-- ==== Sys2Proof/Word.lean ====
section
/-! DEFINITION. The words of the machine: 64-bit scalar registers, bytes, 1,024-bit vector registers (R89), and
the plain readings of a word that the helpers of 06_core_scalar R109 name. -/

namespace Sys2Proof

/-- A scalar register or an 8-byte word (R89). -/
abbrev Word := BitVec 64
/-- A byte of memory. -/
abbrev Byte := BitVec 8
/-- A vector register (R89). -/
abbrev VReg := BitVec 1024

end Sys2Proof
end

