-- ==== Sys2Proof/Syntax.lean ====
section
/-! DEFINITION. The syntax of the machine's steps: one constructor per row of spec/opcode_table.json.
A row with an encoding is one 32-bit instruction word (04_encoding R67); its fields are the encoding's fields.
A row without an encoding is a step that an engine or an outside agent takes (95_what_each_step_holds); its
arguments name the unit that moves and, for a step from outside, what arrives. -/

namespace Sys2Proof

/-- The mask modes of a V-format word (R78): 00, 01, 10, 11. -/
inductive Mask | all | keep | zero | inv
  deriving DecidableEq, Repr

/-- The element types of R77, in the order of their codes. -/
inductive ETy | f32 | bf16 | e4m3 | e5m2 | rl8 | i32 | i16 | i8
  deriving DecidableEq, Repr

/-- The value types of an XA add (R87). -/
inductive XTy | f32 | bf16 | e4m3 | e5m2
  deriving DecidableEq, Repr

/-- The scopes of R11 and R173, in the order of their codes. -/
inductive Scope | c | f | g | d | m | s
  deriving DecidableEq, Repr

/-- The space/policy values of R76. -/
inductive Space | l1 | home | strm | sp
  deriving DecidableEq, Repr

/-- The rounding directions of R32. -/
inductive RMode | rne | rtz | rup | rdn
  deriving DecidableEq, Repr

/-- A rounding code of R32: a direction, and whether it saturates. -/
structure Rnd where
  mode : RMode
  sat : Bool
  deriving DecidableEq, Repr

/-- The class of an element type (R77). -/
inductive TClass | F | L | I
  deriving DecidableEq, Repr

/-- Codes and their readings. -/
def Mask.code : Mask → Nat | .all => 0 | .keep => 1 | .zero => 2 | .inv => 3
def Mask.ofCode : Nat → Mask | 0 => .all | 1 => .keep | 2 => .zero | _ => .inv
def ETy.code : ETy → Nat
  | .f32 => 0 | .bf16 => 1 | .e4m3 => 2 | .e5m2 => 3 | .rl8 => 4 | .i32 => 5 | .i16 => 6 | .i8 => 7
def ETy.ofCode : Nat → ETy
  | 0 => .f32 | 1 => .bf16 | 2 => .e4m3 | 3 => .e5m2 | 4 => .rl8 | 5 => .i32 | 6 => .i16 | _ => .i8
def XTy.code : XTy → Nat | .f32 => 0 | .bf16 => 1 | .e4m3 => 2 | .e5m2 => 3
def XTy.ofCode : Nat → XTy | 0 => .f32 | 1 => .bf16 | 2 => .e4m3 | _ => .e5m2
def Scope.code : Scope → Nat | .c => 0 | .f => 1 | .g => 2 | .d => 3 | .m => 4 | .s => 5
def Scope.ofCode : Nat → Scope | 0 => .c | 1 => .f | 2 => .g | 3 => .d | 4 => .m | _ => .s
def Space.code : Space → Nat | .l1 => 0 | .home => 1 | .strm => 2 | .sp => 3
def Space.ofCode : Nat → Space | 0 => .l1 | 1 => .home | 2 => .strm | _ => .sp
def RMode.code : RMode → Nat | .rne => 0 | .rtz => 1 | .rup => 2 | .rdn => 3
def RMode.ofCode : Nat → RMode | 0 => .rne | 1 => .rtz | 2 => .rup | _ => .rdn
def Rnd.code (r : Rnd) : Nat := r.mode.code + 4 * r.sat.toNat
def Rnd.ofCode (n : Nat) : Rnd := ⟨RMode.ofCode (n % 4), n / 4 == 1⟩
def ETy.cls : ETy → TClass
  | .f32 => .F | .bf16 => .F | .e4m3 => .F | .e5m2 => .F | .rl8 => .L | .i32 => .I | .i16 => .I | .i8 => .I
/-- The element width in bits (R77). -/
def ETy.width : ETy → Nat
  | .f32 => 32 | .bf16 => 16 | .e4m3 => 8 | .e5m2 => 8 | .rl8 => 8 | .i32 => 32 | .i16 => 16 | .i8 => 8

/-- One constructor per row of spec/opcode_table.json. In a word, `st` is the stop bit (R67), `d`, `a`, `b` are
register numbers, `i`, `x`, `n`, `c`, `q`, `l` the raw immediate and option fields. -/
inductive Instr where
  /-- `ADD` (R111): Writes the sum of two scalar registers, modulo 2^64. -/
  | add (st : Bool) (d a b : Nat)
  /-- `SUB` (R111): Writes the difference of two scalar registers, modulo 2^64. -/
  | sub (st : Bool) (d a b : Nat)
  /-- `AND` (R111): Writes the bitwise and of two scalar registers. -/
  | and (st : Bool) (d a b : Nat)
  /-- `OR` (R111): Writes the bitwise or of two scalar registers. -/
  | or (st : Bool) (d a b : Nat)
  /-- `XOR` (R111): Writes the bitwise exclusive or of two scalar registers. -/
  | xor (st : Bool) (d a b : Nat)
  /-- `ANDN` (R111): Writes x and not y. -/
  | andn (st : Bool) (d a b : Nat)
  /-- `ORN` (R111): Writes x or not y. -/
  | orn (st : Bool) (d a b : Nat)
  /-- `SLL` (R112): Shifts left by the low six bits of y. -/
  | sll (st : Bool) (d a b : Nat)
  /-- `SRL` (R112): Shifts right logically by the low six bits of y. -/
  | srl (st : Bool) (d a b : Nat)
  /-- `SRA` (R112): Shifts right arithmetically by the low six bits of y. -/
  | sra (st : Bool) (d a b : Nat)
  /-- `ROL` (R112): Rotates left by the low six bits of y. -/
  | rol (st : Bool) (d a b : Nat)
  /-- `ROR` (R112): Rotates right by the low six bits of y. -/
  | ror (st : Bool) (d a b : Nat)
  /-- `SLT` (R113): Writes 1 when x is below y as signed values, otherwise 0. -/
  | slt (st : Bool) (d a b : Nat)
  /-- `SLTU` (R113): Writes 1 when x is below y as unsigned values, otherwise 0. -/
  | sltu (st : Bool) (d a b : Nat)
  /-- `SEQ` (R113): Writes 1 when x equals y, otherwise 0. -/
  | seq (st : Bool) (d a b : Nat)
  /-- `SNE` (R113): Writes 1 when x differs from y, otherwise 0. -/
  | sne (st : Bool) (d a b : Nat)
  /-- `MIN` (R113): Writes the signed minimum of x and y. -/
  | min (st : Bool) (d a b : Nat)
  /-- `MAX` (R113): Writes the signed maximum of x and y. -/
  | max (st : Bool) (d a b : Nat)
  /-- `MINU` (R113): Writes the unsigned minimum of x and y. -/
  | minu (st : Bool) (d a b : Nat)
  /-- `MAXU` (R113): Writes the unsigned maximum of x and y. -/
  | maxu (st : Bool) (d a b : Nat)
  /-- `MUL` (R114): Writes the low 64 bits of the product. -/
  | mul (st : Bool) (d a b : Nat)
  /-- `MULH` (R114): Writes the high 64 bits of the signed product. -/
  | mulh (st : Bool) (d a b : Nat)
  /-- `MULHU` (R114): Writes the high 64 bits of the unsigned product. -/
  | mulhu (st : Bool) (d a b : Nat)
  /-- `MULHSU` (R114): Writes the high 64 bits of the signed-by-unsigned product. -/
  | mulhsu (st : Bool) (d a b : Nat)
  /-- `DIV` (R115): Writes the signed quotient rounded toward zero, with fixed results for the special cases. -/
  | div (st : Bool) (d a b : Nat)
  /-- `DIVU` (R115): Writes the unsigned quotient, all ones for a zero divisor. -/
  | divu (st : Bool) (d a b : Nat)
  /-- `REM` (R115): Writes the signed remainder with the sign of the dividend. -/
  | rem (st : Bool) (d a b : Nat)
  /-- `REMU` (R115): Writes the unsigned remainder. -/
  | remu (st : Bool) (d a b : Nat)
  /-- `CLZ` (R116): Counts the zero bits above the highest one bit. -/
  | clz (st : Bool) (d a : Nat)
  /-- `CTZ` (R116): Counts the zero bits below the lowest one bit. -/
  | ctz (st : Bool) (d a : Nat)
  /-- `POPC` (R116): Counts the one bits. -/
  | popc (st : Bool) (d a : Nat)
  /-- `FFS` (R116): Writes the 1-based position of the lowest one bit, or 0. -/
  | ffs (st : Bool) (d a : Nat)
  /-- `BREV` (R116): Reverses the bit order. -/
  | brev (st : Bool) (d a : Nat)
  /-- `BSWAP` (R116): Reverses the byte order. -/
  | bswap (st : Bool) (d a : Nat)
  /-- `SXB` (R116): Sign-extends bits 7:0. -/
  | sxb (st : Bool) (d a : Nat)
  /-- `SXH` (R116): Sign-extends bits 15:0. -/
  | sxh (st : Bool) (d a : Nat)
  /-- `SXW` (R116): Sign-extends bits 31:0. -/
  | sxw (st : Bool) (d a : Nat)
  /-- `ZXB` (R116): Zero-extends bits 7:0. -/
  | zxb (st : Bool) (d a : Nat)
  /-- `ZXH` (R116): Zero-extends bits 15:0. -/
  | zxh (st : Bool) (d a : Nat)
  /-- `ZXW` (R116): Zero-extends bits 31:0. -/
  | zxw (st : Bool) (d a : Nat)
  /-- `ADDI` (R117): Adds a sign-extended or prefixed immediate. -/
  | addi (st : Bool) (d a i : Nat)
  /-- `ANDI` (R117): Ands with the immediate. -/
  | andi (st : Bool) (d a i : Nat)
  /-- `ORI` (R117): Ors with the immediate. -/
  | ori (st : Bool) (d a i : Nat)
  /-- `XORI` (R117): Exclusive-ors with the immediate. -/
  | xori (st : Bool) (d a i : Nat)
  /-- `SLTI` (R117): Signed compare with the immediate. -/
  | slti (st : Bool) (d a i : Nat)
  /-- `SLTIU` (R117): Unsigned compare with the immediate. -/
  | sltiu (st : Bool) (d a i : Nat)
  /-- `SLLI` (R118): Shifts left by an immediate count. -/
  | slli (st : Bool) (d a c : Nat)
  /-- `SRLI` (R118): Shifts right logically by an immediate count. -/
  | srli (st : Bool) (d a c : Nat)
  /-- `SRAI` (R118): Shifts right arithmetically by an immediate count. -/
  | srai (st : Bool) (d a c : Nat)
  /-- `RORI` (R118): Rotates right by an immediate count. -/
  | rori (st : Bool) (d a c : Nat)
  /-- `LUI` (R119): Loads the sign-extended imm20 times 4,096. -/
  | lui (st : Bool) (d i : Nat)
  /-- `ADDPC` (R119): Adds imm20 times 4,096 to the instruction address. -/
  | addpc (st : Bool) (d i : Nat)
  /-- `BEQZ` (R120): Branches when the register is zero; ends the run. -/
  | beqz (a x : Nat)
  /-- `BNEZ` (R120): Branches when the register is nonzero. -/
  | bnez (a x : Nat)
  /-- `BLTZ` (R120): Branches when the register is negative. -/
  | bltz (a x : Nat)
  /-- `BGEZ` (R120): Branches when the register is zero or positive. -/
  | bgez (a x : Nat)
  /-- `BGTZ` (R120): Branches when the register is positive. -/
  | bgtz (a x : Nat)
  /-- `BLEZ` (R120): Branches when the register is zero or negative. -/
  | blez (a x : Nat)
  /-- `BODD` (R120): Branches when bit 0 of the register is 1. -/
  | bodd (a x : Nat)
  /-- `J` (R121): Jumps by a 25-bit word displacement. -/
  | j (x : Nat)
  /-- `JL` (R121): Jumps and writes the return address into s31. -/
  | jl (x : Nat)
  /-- `JLR` (R122): Jumps to register plus byte offset and writes the return address. -/
  | jlr (d a i : Nat)
  /-- `SRD` (R95): Reads a system register. -/
  | srd (st : Bool) (d n : Nat)
  /-- `SWR` (R95): Writes a system register field by field at the end of the run. -/
  | swr (st : Bool) (a n : Nat)
  /-- `SRSET` (R95): Reads a system register and sets the given bits. -/
  | srset (st : Bool) (d a n : Nat)
  /-- `SRCLR` (R95): Reads a system register and clears the given bits. -/
  | srclr (st : Bool) (d a n : Nat)
  /-- `VADD` (R131): Element-wise addition, rounded for floating-point types. -/
  | vadd (st : Bool) (d a b : Nat) (m : Mask) (t : ETy)
  /-- `VSUB` (R131): Element-wise subtraction. -/
  | vsub (st : Bool) (d a b : Nat) (m : Mask) (t : ETy)
  /-- `VMUL` (R131): Element-wise multiplication. -/
  | vmul (st : Bool) (d a b : Nat) (m : Mask) (t : ETy)
  /-- `VDIV` (R131): Correctly rounded element-wise division. -/
  | vdiv (st : Bool) (d a b : Nat) (m : Mask) (t : ETy)
  /-- `VMIN` (R131): Element-wise minimum. -/
  | vmin (st : Bool) (d a b : Nat) (m : Mask) (t : ETy)
  /-- `VMAX` (R131): Element-wise maximum. -/
  | vmax (st : Bool) (d a b : Nat) (m : Mask) (t : ETy)
  /-- `VSQRT` (R132): Correctly rounded square root. -/
  | vsqrt (st : Bool) (d a : Nat) (m : Mask) (t : ETy)
  /-- `VEXP2` (R132): Correctly rounded power of two. -/
  | vexp2 (st : Bool) (d a : Nat) (m : Mask) (t : ETy)
  /-- `VLOG2` (R132): Correctly rounded base-2 logarithm. -/
  | vlog2 (st : Bool) (d a : Nat) (m : Mask) (t : ETy)
  /-- `VABS` (R133): Element-wise absolute value. -/
  | vabs (st : Bool) (d a : Nat) (m : Mask) (t : ETy)
  /-- `VNEG` (R133): Element-wise negation. -/
  | vneg (st : Bool) (d a : Nat) (m : Mask) (t : ETy)
  /-- `VMV` (R133): Copies elements unchanged. -/
  | vmv (st : Bool) (d a : Nat) (m : Mask) (t : ETy)
  /-- `VAND` (R134): Element-wise bitwise and. -/
  | vand (st : Bool) (d a b : Nat) (m : Mask) (t : ETy)
  /-- `VOR` (R134): Element-wise bitwise or. -/
  | vor (st : Bool) (d a b : Nat) (m : Mask) (t : ETy)
  /-- `VXOR` (R134): Element-wise bitwise exclusive or. -/
  | vxor (st : Bool) (d a b : Nat) (m : Mask) (t : ETy)
  /-- `VSLL` (R134): Element-wise shift left. -/
  | vsll (st : Bool) (d a b : Nat) (m : Mask) (t : ETy)
  /-- `VSRL` (R134): Element-wise logical shift right. -/
  | vsrl (st : Bool) (d a b : Nat) (m : Mask) (t : ETy)
  /-- `VSRA` (R134): Element-wise arithmetic shift right. -/
  | vsra (st : Bool) (d a b : Nat) (m : Mask) (t : ETy)
  /-- `VADDS` (R135): Element-wise saturating addition. -/
  | vadds (st : Bool) (d a b : Nat) (m : Mask) (t : ETy)
  /-- `VSUBS` (R135): Element-wise saturating subtraction. -/
  | vsubs (st : Bool) (d a b : Nat) (m : Mask) (t : ETy)
  /-- `VMULH` (R135): High half of the signed element product. -/
  | vmulh (st : Bool) (d a b : Nat) (m : Mask) (t : ETy)
  /-- `VCLZ` (R136): Element-wise count of leading zeros. -/
  | vclz (st : Bool) (d a : Nat) (m : Mask) (t : ETy)
  /-- `VPOPC` (R136): Element-wise count of one bits. -/
  | vpopc (st : Bool) (d a : Nat) (m : Mask) (t : ETy)
  /-- `VFFS` (R136): Element-wise 1-based position of the lowest one bit. -/
  | vffs (st : Bool) (d a : Nat) (m : Mask) (t : ETy)
  /-- `VFMA` (R137): Fused a times b plus vd, rounded once. -/
  | vfma (st : Bool) (d a b : Nat) (m : Mask) (t : ETy)
  /-- `VFMS` (R137): Fused a times b minus vd. -/
  | vfms (st : Bool) (d a b : Nat) (m : Mask) (t : ETy)
  /-- `VFNMA` (R137): Fused minus a times b plus vd. -/
  | vfnma (st : Bool) (d a b : Nat) (m : Mask) (t : ETy)
  /-- `VFNMS` (R137): Fused minus a times b minus vd. -/
  | vfnms (st : Bool) (d a b : Nat) (m : Mask) (t : ETy)
  /-- `VCEQ` (R138): Writes a mask of element equality. -/
  | vceq (st : Bool) (d a b : Nat) (m : Mask) (t : ETy)
  /-- `VCNE` (R138): Writes a mask of element inequality. -/
  | vcne (st : Bool) (d a b : Nat) (m : Mask) (t : ETy)
  /-- `VCLT` (R138): Writes a mask of a less than b. -/
  | vclt (st : Bool) (d a b : Nat) (m : Mask) (t : ETy)
  /-- `VCLE` (R138): Writes a mask of a at most b. -/
  | vcle (st : Bool) (d a b : Nat) (m : Mask) (t : ETy)
  /-- `VCLTU` (R138): Writes a mask of unsigned a less than b. -/
  | vcltu (st : Bool) (d a b : Nat) (m : Mask) (t : ETy)
  /-- `VCLEU` (R138): Writes a mask of unsigned a at most b. -/
  | vcleu (st : Bool) (d a b : Nat) (m : Mask) (t : ETy)
  /-- `VCUN` (R138): Writes a mask of unordered elements. -/
  | vcun (st : Bool) (d a b : Nat) (m : Mask) (t : ETy)
  /-- `VSEL` (R139): Selects elements of va or vb by v0. -/
  | vsel (st : Bool) (d a b : Nat) (t : ETy)
  /-- `VCVT` (R140): Converts each element from the source type to the destination type with the given rounding. -/
  | vcvt (st : Bool) (d a : Nat) (u : ETy) (m : Mask) (t : ETy) (r : Rnd)
  /-- `VCOMPRESS` (R141): Packs the elements selected by v0 to the bottom. -/
  | vcompress (st : Bool) (d a : Nat) (t : ETy)
  /-- `VEXPAND` (R141): Spreads low elements to the positions selected by v0. -/
  | vexpand (st : Bool) (d a : Nat) (t : ETy)
  /-- `VPERM` (R142): Gathers elements by index vector. -/
  | vperm (st : Bool) (d a b : Nat) (m : Mask) (t : ETy)
  /-- `VSLIDEUP` (R142): Moves elements up by a scalar offset. -/
  | vslideup (st : Bool) (d a b : Nat) (m : Mask) (t : ETy)
  /-- `VSLIDEDN` (R142): Moves elements down by a scalar offset. -/
  | vslidedn (st : Bool) (d a b : Nat) (m : Mask) (t : ETy)
  /-- `VBCAST` (R143): Broadcasts a scalar to every element. -/
  | vbcast (st : Bool) (d a : Nat) (m : Mask) (t : ETy)
  /-- `VEXTR` (R143): Extracts one element into a scalar register. -/
  | vextr (st : Bool) (d a b : Nat) (t : ETy)
  /-- `VIDX` (R143): Writes each element's own index. -/
  | vidx (st : Bool) (d : Nat) (m : Mask) (t : ETy)
  /-- `VREDSUM` (R144): Sums the active elements by the fixed pairwise tree. -/
  | vredsum (st : Bool) (d a : Nat) (m : Mask) (t : ETy)
  /-- `VREDMAX` (R144): Maximum of the active elements by the fixed tree. -/
  | vredmax (st : Bool) (d a : Nat) (m : Mask) (t : ETy)
  /-- `VREDMIN` (R144): Minimum of the active elements by the fixed tree. -/
  | vredmin (st : Bool) (d a : Nat) (m : Mask) (t : ETy)
  /-- `VREDAND` (R144): Bitwise and of the active elements. -/
  | vredand (st : Bool) (d a : Nat) (m : Mask) (t : ETy)
  /-- `VREDOR` (R144): Bitwise or of the active elements. -/
  | vredor (st : Bool) (d a : Nat) (m : Mask) (t : ETy)
  /-- `VREDXOR` (R144): Bitwise exclusive or of the active elements. -/
  | vredxor (st : Bool) (d a : Nat) (m : Mask) (t : ETy)
  /-- `VMAND` (R145): Mask and. -/
  | vmand (st : Bool) (d a b : Nat) (t : ETy)
  /-- `VMOR` (R145): Mask or. -/
  | vmor (st : Bool) (d a b : Nat) (t : ETy)
  /-- `VMXOR` (R145): Mask exclusive or. -/
  | vmxor (st : Bool) (d a b : Nat) (t : ETy)
  /-- `VMANDN` (R145): Mask and-not. -/
  | vmandn (st : Bool) (d a b : Nat) (t : ETy)
  /-- `VMNOT` (R145): Mask complement. -/
  | vmnot (st : Bool) (d a : Nat) (t : ETy)
  /-- `VMPOPC` (R145): Counts the set mask bits into a scalar. -/
  | vmpopc (st : Bool) (d a : Nat) (t : ETy)
  /-- `VMFFS` (R145): Writes the 1-based position of the lowest set mask bit. -/
  | vmffs (st : Bool) (d a : Nat) (t : ETy)
  /-- `LDB` (R148): Loads a sign-extended byte. -/
  | ldb (st : Bool) (d b : Nat) (spc : Space) (x : Nat)
  /-- `LDH` (R148): Loads a sign-extended 2-byte value. -/
  | ldh (st : Bool) (d b : Nat) (spc : Space) (x : Nat)
  /-- `LDW` (R148): Loads a sign-extended 4-byte value. -/
  | ldw (st : Bool) (d b : Nat) (spc : Space) (x : Nat)
  /-- `LDD` (R148): Loads an 8-byte value. -/
  | ldd (st : Bool) (d b : Nat) (spc : Space) (x : Nat)
  /-- `LDBU` (R148): Loads a zero-extended byte. -/
  | ldbu (st : Bool) (d b : Nat) (spc : Space) (x : Nat)
  /-- `LDHU` (R148): Loads a zero-extended 2-byte value. -/
  | ldhu (st : Bool) (d b : Nat) (spc : Space) (x : Nat)
  /-- `LDWU` (R148): Loads a zero-extended 4-byte value. -/
  | ldwu (st : Bool) (d b : Nat) (spc : Space) (x : Nat)
  /-- `STB` (R148): Buffers a 1-byte store until commit. -/
  | stb (st : Bool) (d b : Nat) (spc : Space) (x : Nat)
  /-- `STH` (R148): Buffers a 2-byte store until commit. -/
  | sth (st : Bool) (d b : Nat) (spc : Space) (x : Nat)
  /-- `STW` (R148): Buffers a 4-byte store until commit. -/
  | stw (st : Bool) (d b : Nat) (spc : Space) (x : Nat)
  /-- `STD` (R148): Buffers an 8-byte store until commit. -/
  | std (st : Bool) (d b : Nat) (spc : Space) (x : Nat)
  /-- `VLD` (R148): Loads the granted vector length of bytes into a vector register. -/
  | vld (st : Bool) (d b : Nat) (spc : Space) (x : Nat)
  /-- `VST` (R148): Buffers a store of the granted vector length of bytes. -/
  | vst (st : Bool) (d b : Nat) (spc : Space) (x : Nat)
  /-- `LDF` (R150): Commit point that waits for a full scratchpad word, takes it and leaves it empty. -/
  | ldf (d b x : Nat)
  /-- `LDFN` (R150): Commit point that waits for a full word and takes it, leaving it full. -/
  | ldfn (d b x : Nat)
  /-- `STE` (R150): Commit point that waits for an empty word, writes it and sets it full. -/
  | ste (d b x : Nat)
  /-- `STF` (R150): Buffered store that writes a scratchpad word and sets it full. -/
  | stf (st : Bool) (d b x : Nat)
  /-- `AMOSWAP` (R153): Atomic swap at the home; commit point, release and acquire. -/
  | amoswap (d a b : Nat) (z : Bool) (sc : Scope)
  /-- `AMOCAS` (R153): Atomic compare-and-swap against s[d]. -/
  | amocas (d a b : Nat) (z : Bool) (sc : Scope)
  /-- `AMOADD` (R153): Atomic add. -/
  | amoadd (d a b : Nat) (z : Bool) (sc : Scope)
  /-- `AMOAND` (R153): Atomic and. -/
  | amoand (d a b : Nat) (z : Bool) (sc : Scope)
  /-- `AMOOR` (R153): Atomic or. -/
  | amoor (d a b : Nat) (z : Bool) (sc : Scope)
  /-- `AMOXOR` (R153): Atomic exclusive or. -/
  | amoxor (d a b : Nat) (z : Bool) (sc : Scope)
  /-- `AMOMIN` (R153): Atomic signed minimum. -/
  | amomin (d a b : Nat) (z : Bool) (sc : Scope)
  /-- `AMOMAX` (R153): Atomic signed maximum. -/
  | amomax (d a b : Nat) (z : Bool) (sc : Scope)
  /-- `AMOMINU` (R153): Atomic unsigned minimum. -/
  | amominu (d a b : Nat) (z : Bool) (sc : Scope)
  /-- `AMOMAXU` (R153): Atomic unsigned maximum. -/
  | amomaxu (d a b : Nat) (z : Bool) (sc : Scope)
  /-- `REDADD` (R154): Buffered memory-side add merged at the home write queue. -/
  | redadd (st : Bool) (a b : Nat) (z : Bool) (sc : Scope)
  /-- `REDAND` (R154): Buffered memory-side and. -/
  | redand (st : Bool) (a b : Nat) (z : Bool) (sc : Scope)
  /-- `REDOR` (R154): Buffered memory-side or. -/
  | redor (st : Bool) (a b : Nat) (z : Bool) (sc : Scope)
  /-- `REDXOR` (R154): Buffered memory-side exclusive or. -/
  | redxor (st : Bool) (a b : Nat) (z : Bool) (sc : Scope)
  /-- `REDMIN` (R154): Buffered memory-side signed minimum. -/
  | redmin (st : Bool) (a b : Nat) (z : Bool) (sc : Scope)
  /-- `REDMAX` (R154): Buffered memory-side signed maximum. -/
  | redmax (st : Bool) (a b : Nat) (z : Bool) (sc : Scope)
  /-- `REDMINU` (R154): Buffered memory-side unsigned minimum. -/
  | redminu (st : Bool) (a b : Nat) (z : Bool) (sc : Scope)
  /-- `REDMAXU` (R154): Buffered memory-side unsigned maximum. -/
  | redmaxu (st : Bool) (a b : Nat) (z : Bool) (sc : Scope)
  /-- `REDFMIN` (R154): Buffered memory-side FP32 minimum. -/
  | redfmin (st : Bool) (a b : Nat) (sc : Scope)
  /-- `REDFMAX` (R154): Buffered memory-side FP32 maximum. -/
  | redfmax (st : Bool) (a b : Nat) (sc : Scope)
  /-- `XAADD` (R155): Buffered exact-accumulator add into a 64-byte XA cell. -/
  | xaadd (st : Bool) (a b : Nat) (sc : Scope) (t : XTy)
  /-- `XARD` (R156): Reads an XA cell at its home, converted to FP32 or BF16. -/
  | xard (st : Bool) (d a : Nat) (r : Rnd) (f : Bool)
  /-- `LEASE` (R161): Obtains a granule in E or M and holds it until the next commit, expiry or abort. -/
  | lease (st : Bool) (a : Nat)
  /-- `LREL` (R164): Commit point with empty own effect that ends the leases. -/
  | lrel
  /-- `FENCE` (R159): Orders loads and released effects at the given scope. -/
  | fence (st : Bool) (sc : Scope)
  /-- `BARV` (R167): Buffered arrival at a split barrier. -/
  | barv (st : Bool) (a : Nat)
  /-- `BARVX` (R167): Buffered arrival that also adds expected bytes to PENDING. -/
  | barvx (st : Bool) (a b : Nat)
  /-- `BWAIT` (R168): Suspension point that waits for the barrier phase to flip and acquires at .G. -/
  | bwait (a b : Nat)
  /-- `TLWAIT` (R170): Suspension point that waits for a timeline's completed count and acquires. -/
  | tlwait (a b : Nat)
  /-- `TTDEF` (R171): Buffered definition of a tile entry. -/
  | ttdef (st : Bool) (a b : Nat)
  /-- `TTWAIT` (R172): Suspension point that waits for a filling tile to become ready. -/
  | ttwait (a : Nat)
  /-- `TTREL` (R172): Buffered release of a ready tile entry to empty. -/
  | ttrel (st : Bool) (a : Nat)
  /-- `MTURN` (R242): Command requesting a turn with its tile and window claim. -/
  | mturn (st : Bool) (d a : Nat)
  /-- `MTEND` (R243): Command ending the issuer's turn after its earlier commands. -/
  | mtend (st : Bool) (d : Nat)
  /-- `MRINGCFG` (R244): Command configuring a ring's base and size and resetting HEAD and TAIL. -/
  | mringcfg (st : Bool) (d a b : Nat)
  /-- `MRINGADV` (R245): Command adding to a ring's TAIL, optionally after a sluice number completes. -/
  | mringadv (st : Bool) (d a b : Nat)
  /-- `MZERO` (R246): Command writing +0 to the named claimed tiles. -/
  | mzero (st : Bool) (d a : Nat)
  /-- `MMA` (R237): Command multiplying ring operands into a tile in fixed k-group order. -/
  | mma (st : Bool) (d a b : Nat) (o : Bool)
  /-- `MMAX` (R239): Command computing the max-plus product into a tile. -/
  | mmax (st : Bool) (d a b : Nat)
  /-- `MREC` (R239): Command running the turn's microprogram in every cell. -/
  | mrec (st : Bool) (d a b : Nat)
  /-- `MLDPROG` (R248): Command loading a 64-byte microprogram from scratchpad. -/
  | mldprog (st : Bool) (d a : Nat)
  /-- `MACCRD` (R249): Command converting a block of a tile into scratchpad. -/
  | maccrd (st : Bool) (d a b : Nat) (i : Bool)
  /-- `MACCWR` (R250): Drain command copying a ready tile entry into an accumulator tile. -/
  | maccwr (st : Bool) (d a b : Nat)
  /-- `MSTAT` (R251): Reads a matrix status, ring HEAD or TAIL, or the claim at issue. -/
  | mstat (st : Bool) (d a l : Nat)
  /-- `SCOPY` (R207): Sluice command copying LEN bytes. -/
  | scopy (st : Bool) (d a q : Nat)
  /-- `SCOPY2D` (R207): Sluice command copying ROWS strided rows. -/
  | scopy2d (st : Bool) (d a q : Nat)
  /-- `SFILL` (R207): Sluice command filling a range with an 8-byte pattern. -/
  | sfill (st : Bool) (d a q : Nat)
  /-- `SCVT` (R208): Sluice command converting elements between formats, with block scales. -/
  | scvt (st : Bool) (d a q : Nat)
  /-- `SHINT` (R209): Sluice command advising the memory system about a range. -/
  | shint (st : Bool) (d a q : Nat)
  /-- `SQCFG` (R213): Sluice command setting a queue's time-out and weight. -/
  | sqcfg (st : Bool) (d a q : Nat)
  /-- `SQSTAT` (R212): Reads a command's status on a queue of the issuing flight at issue. -/
  | sqstat (st : Bool) (d a q : Nat)
  /-- `SQSTAT_NAMED` (R212): Reads a command's status on the queue named by a timeline name in s[b]. -/
  | sqstatNamed (st : Bool) (d a b : Nat)
  /-- `SQRST` (R214): Sluice command resetting the queue's unbegun lower commands. -/
  | sqrst (st : Bool) (d q : Nat)
  /-- `CDEF` (R268): Composer command defining a virtual cache from a record. -/
  | cdef (st : Bool) (d a : Nat)
  /-- `CRSZ` (R269): Composer command resizing a virtual cache. -/
  | crsz (st : Bool) (d a : Nat)
  /-- `CFLUSH` (R270): Composer command writing back dirty lines of a range. -/
  | cflush (st : Bool) (d a b : Nat)
  /-- `CINVAL` (R270): Composer command invalidating a range, or zeroing direct storage. -/
  | cinval (st : Bool) (d a b : Nat)
  /-- `CQUERY` (R273): Reads a composer status, state word, limit or share at issue. -/
  | cquery (st : Bool) (d a b l : Nat)
  /-- `CPLACE` (R271): Composer command replacing a cache's placement anchors. -/
  | cplace (st : Bool) (d a b : Nat)
  /-- `CDROP` (R272): Composer command ending a virtual cache and freeing its shares. -/
  | cdrop (st : Bool) (d a : Nat)
  /-- `MAP` (R295): Mapping command delivering a map item that creates child nodes in the target. -/
  | map (st : Bool) (d a : Nat)
  /-- `GRANT` (R296): Mapping command moving the issuer's nodes to the target. -/
  | grant (st : Bool) (d a : Nat)
  /-- `UNMAP` (R297): Mapping command withdrawing every child derived from a range. -/
  | unmap (st : Bool) (d a b : Nat)
  /-- `UNMAPX` (R297): Mapping command also withdrawing the covering pieces. -/
  | unmapx (st : Bool) (d a b : Nat)
  /-- `SEND` (R295): Mapping command queuing a SEND message through an endpoint. -/
  | send (st : Bool) (d a : Nat)
  /-- `RECV` (R298): Suspension point taking the oldest message of an owned channel. -/
  | recv (a b : Nat) (p : Bool)
  /-- `CALL` (R300): Suspension point sending a CALL message and waiting for the reply. -/
  | call (a b : Nat)
  /-- `REPLY` (R301): Mapping command answering a CALL or FAULT token. -/
  | reply (st : Bool) (d a : Nat)
  /-- `EPDROP` (R302): Mapping command invalidating an endpoint slot and advancing its generation. -/
  | epdrop (st : Bool) (d a : Nat)
  /-- `EPINFO` (R302): Reads a handle's validity, rights and generation at issue. -/
  | epinfo (st : Bool) (d a : Nat)
  /-- `CHBIND` (R303): Mapping command setting a context's supervisor or pager binding. -/
  | chbind (st : Bool) (d a b : Nat)
  /-- `MQUERY` (R304): Reads a mapping status, node, scope or physical address at issue. -/
  | mquery (st : Bool) (d a b l : Nat)
  /-- `SPAWN` (R324): Wharf command creating one barge from a descriptor. -/
  | spawn (st : Bool) (a : Nat)
  /-- `SPAWNG` (R324): Wharf command creating a gang. -/
  | spawng (st : Bool) (a : Nat)
  /-- `PDEC` (R327): Wharf command decrementing a barge's predecessor count. -/
  | pdec (st : Bool) (a : Nat)
  /-- `CHPRI` (R330): Wharf command setting the barge's priority, capped by PRIMAX. -/
  | chpri (st : Bool) (a : Nat)
  /-- `END` (R328): Commit point that ends the barge, decrements successors and informs its packet. -/
  | endOp
  /-- `GINFO` (R332): Reads a gang member's STATE at issue. -/
  | ginfo (st : Bool) (d a : Nat)
  /-- `AFFIN` (R331): Wharf command replacing the barge's affinity word. -/
  | affin (st : Bool) (a : Nat)
  /-- `WSTAT` (R333): Reads service, slot, error count or record state at issue. -/
  | wstat (st : Bool) (d a l : Nat)
  /-- `SETSHP` (R108): Grants a vector length and tile shape from the request at run end. -/
  | setshp (st : Bool) (d a : Nat)
  /-- `CKPT` (R125): Commit point releasing the region and clearing registers other than s0-s6. -/
  | ckpt
  /-- `YIELD` (R126): Suspension point returning the barge to the wharf as READY. -/
  | yield
  /-- `TRAP` (R191): Commit point sending a class 0x0F message with a code and parking. -/
  | trap (a b c : Nat)
  /-- `BKPT` (R192): Commit point sending class 0x10 and resuming at its own address. -/
  | bkpt
  /-- `RPT` (R81): Performs a frame of up to 16 words up to 32 times, advancing register fields and immediates. -/
  | rpt (c l x y z e : Nat)
  /-- `PREFIX` (R79): Supplies the upper bits of a wider immediate to the next I or M word. -/
  | pfx (p : Nat)
  /-- `LEASEMAX_WRITE` (R92): A context-0 write to CORE.LEASEMAX stores the bound clamped to 16..1,024; other contexts take the privilege fault. -/
  | leasemaxWrite (b : Nat) (v : Word)
  /-- `TLEASE_WRITE` (R284): A context-0 write to MAP.TLEASE stores the bound clamped to 256..4,096 for later leases. -/
  | tleaseWrite (b : Nat) (v : Word)
  /-- `SLOTCFG_WRITE` (R342): A context-0 write to WHARF.SLOTCFG sets EN and LEN, with LEN at least 10. -/
  | slotcfgWrite (b : Nat) (v : Word)
  /-- `FPFLAGS_WRITE` (R96): A write to BARGE.FPFLAGS takes effect at run end, ORed with the run's raised flags, without trapping. -/
  | fpflagsWrite (b : Nat) (v : Word)
  /-- `SYSREG_WRITE` (R95): A write to any other system register; writes to RO registers are ignored without fault. -/
  | sysregWrite (b n : Nat) (v : Word)
  /-- `FE_HELD_PERFORM` (R150): A held full/empty operation is performed at the window once the bit allows it, in request order. -/
  | feHeldPerform (b : Nat)
  /-- `MATRIX_COMMAND_BEGIN` (R231): The array begins the next command, choosing among the flight's contexts cyclically. -/
  | matrixCommandBegin (flight : Nat)
  /-- `MATRIX_COMMAND_COMPLETE` (R241): A matrix command completes with its status after its occupancy. -/
  | matrixCommandComplete (flight : Nat)
  /-- `TURN_RELEASE` (R232): At a turn's end the array waits for ring copies, zeroes the claim, clears rings and releases it. -/
  | turnRelease (core : Nat)
  /-- `SLUICE_COMMAND_BEGIN` (R203): The sluice begins an accepted command by weighted round-robin, translating and checking its ranges. -/
  | sluiceCommandBegin (flight q : Nat)
  /-- `SLUICE_COMMAND_COMPLETE` (R215): A sluice command completes with one status, subtracts barrier bytes and may ready a tile. -/
  | sluiceCommandComplete (flight q n : Nat)
  /-- `SLUICE_TIMEOUT` (R218): A host or expander read or write unanswered within 2^TOUT µs times out and isolates the target. -/
  | sluiceTimeout (flight q n : Nat)
  /-- `COMPOSER_COMMAND_COMPLETE` (R267): A composer command completes with its status. -/
  | composerCommandComplete (vcid : Nat)
  /-- `RESIZE_LINE_MOVE` (R274): The resize walk moves one line to its new set once its migration probes are answered. -/
  | resizeLineMove (vcid : Nat)
  /-- `BANK_SHARE_FAULT` (R277): An uncorrectable bank error or failed scrub withdraws a share and repairs or poisons its lines. -/
  | bankShareFault (die share : Nat)
  /-- `MAPPING_COMMAND_BEGIN` (R306): The engine begins the context's next command and applies its tree step in tree order. -/
  | mappingCommandBegin (ctx : Nat)
  /-- `MAPPING_COMMAND_COMPLETE` (R310): A grant or withdrawal completes once leases have ended and stores are at their homes, freeing records. -/
  | mappingCommandComplete (ctx : Nat)
  /-- `CONTEXT_FREE` (R307): A dying context becomes free once every withdrawn node meets R310. -/
  | contextFree (ctx : Nat)
  /-- `HELD_FAULT_QUEUE` (R187): A fault message held for a full channel is queued when room appears, or ends the barge if undeliverable. -/
  | heldFaultQueue (chan : Nat)
  /-- `LEASE_EXPIRY` (R165): A lease reaches CORE.LEASEMAX cycles and aborts the region at the next run boundary. -/
  | leaseExpiry (b : Nat)
  /-- `PREEMPTION` (R195): A requested pre-emption is taken at the first leaseless run boundary, aborting the region. -/
  | preemption (b : Nat)
  /-- `SHOOTDOWN` (R197): A core drops named translations and aborts regions that used them. -/
  | shootdown (party : Nat)
  /-- `SHOOTDOWN_ACK` (R197): The core acknowledges once released effects through the translations reach their homes. -/
  | shootdownAck (party : Nat)
  /-- `BACK_INVALIDATE` (R163): An invalidate, probe or recall reaches a core and is served, or queued behind a lease. -/
  | backInvalidate (core granule : Nat) (drop : Bool)
  /-- `TRANSLATION_WALK` (R308): A walk completes a translation-cache miss and confirms or overturns a predicted translation. -/
  | translationWalk (core ctx va : Nat)
  /-- `TRANSLATION_LEASE_EXPIRY` (R310): A translation lease reaches TLEASE cycles or fails renewal, aborting its region. -/
  | translationLeaseExpiry (core node : Nat)
  /-- `SLOT_DISPATCH` (R335): A die's stage fills a free slot with a READY barge or whole gang by priority and affinity. -/
  | slotDispatch (die : Nat)
  /-- `WEIR_PERIOD` (R339): Every 65,536 cycles the weir recomputes flight targets and starts flight moves. -/
  | weirPeriod (die : Nat)
  /-- `FLIGHT_JOIN` (R340): The flight joins the receiver's cut once empty and acknowledged. -/
  | flightJoin (flight : Nat)
  /-- `SLOT_BOUNDARY` (R343): At each slot boundary barges of ineligible tenants are pre-empted. -/
  | slotBoundary
  /-- `NOTIFY_WRITE` (R351): A host write to the notify page sets a queue's TAIL or is logged as NOTIFY. -/
  | notifyWrite (port off size : Nat) (v : Word)
  /-- `DISPATCH` (R353): Host packet creating one barge as SPAWN does. -/
  | dispatch (port q : Nat)
  /-- `DISPATCHG` (R353): Host packet creating a gang as SPAWNG does. -/
  | dispatchg (port q : Nat)
  /-- `ORDER` (R344): Host packet completing after every earlier packet of its queue. -/
  | order (port q : Nat)
  /-- `MAINT` (R344): Ordered host packet performing CFLUSH or CINVAL over a range. -/
  | maint (port q : Nat)
  /-- `PACKET_COMPLETION` (R354): A packet's number completes when its barges end and commands complete, writing the record and perhaps an interrupt. -/
  | packetCompletion (port q n : Nat)
  /-- `CTXCREATE` (R359): ADMIN making a context live and generating its key. -/
  | ctxcreate (port q : Nat)
  /-- `CTXDESTROY` (R359): ADMIN making a context dying. -/
  | ctxdestroy (port q : Nat)
  /-- `BINDQ` (R359): ADMIN binding a queue and loading its QCB copy. -/
  | bindq (port q : Nat)
  /-- `RESETQ` (R359): ADMIN stopping a queue, completing unpassed numbers RESET and comparing the QCB. -/
  | resetq (port q : Nat)
  /-- `UNBINDQ` (R359): ADMIN revoking a queue's binding. -/
  | unbindq (port q : Nat)
  /-- `SETLIMIT` (R359): ADMIN setting a partition's share LIMIT on a die. -/
  | setlimit (port q : Nat)
  /-- `TENANT` (R359): ADMIN setting a tenant record. -/
  | tenant (port q : Nat)
  /-- `SLOTSET` (R359): ADMIN setting a slot-table entry. -/
  | slotset (port q : Nat)
  /-- `EPSET` (R359): ADMIN filling an endpoint slot and setting its generation. -/
  | epset (port q : Nat)
  /-- `CHOWN` (R359): ADMIN assigning a channel's owner. -/
  | chown (port q : Nat)
  /-- `UNISOLATE` (R359): ADMIN ending an isolation and reporting its discard count. -/
  | unisolate (port q : Nat)
  /-- `BIAS` (R358): ADMIN moving HBM blocks between device and host bias. -/
  | bias (port q : Nat)
  /-- `INTRSET` (R359): ADMIN setting an interrupt remap entry. -/
  | intrset (port q : Nat)
  /-- `EVRING` (R356): ADMIN setting a port's event ring. -/
  | evring (port q : Nat)
  /-- `INJECT` (R359): ADMIN injecting an uncorrectable error or stall on a target. -/
  | inject (port q : Nat)
  /-- `PEERSET` (R368): ADMIN setting the module id and a peer table entry. -/
  | peerset (port q : Nat)
  /-- `EXPORT` (R369): ADMIN setting the export for a peer. -/
  | exportOp (port q : Nat)
  /-- `HOST_ACCESS_TIMEOUT` (R357): A core access to a host or expander window unanswered within 1,024 µs isolates the target and faults. -/
  | hostAccessTimeout (b : Nat)
  /-- `HOST_MEMORY_ACCESS` (R358): A host CXL.mem read or write of device memory is served per bias, refused for confidential granules. -/
  | hostMemoryAccess (port : Nat) (wr : Bool) (pa : Nat) (data : List Byte)
  /-- `ATS_INVALIDATION` (R353): A host ATS invalidation is answered once accesses through the entries complete. -/
  | atsInvalidation (port base len : Nat)
  /-- `EXPANDER_HOT_ADD` (R349): An expander found by hot-add receives its root node. -/
  | expanderHotAdd (e port : Nat)
  /-- `IMAGE_WRITE` (R360): The host writes the firmware image to the DOE mailbox and it is verified. -/
  | imageWrite (image : List Byte)
  /-- `GET_VERSION` (R361): SPDM request for versions. -/
  | getVersion (port : Nat) (req : List Byte)
  /-- `GET_CAPABILITIES` (R361): SPDM request for capabilities. -/
  | getCapabilities (port : Nat) (req : List Byte)
  /-- `NEGOTIATE_ALGORITHMS` (R361): SPDM algorithm negotiation. -/
  | negotiateAlgorithms (port : Nat) (req : List Byte)
  /-- `GET_DIGESTS` (R361): SPDM request for certificate digests. -/
  | getDigests (port : Nat) (req : List Byte)
  /-- `GET_CERTIFICATE` (R361): SPDM request for a certificate. -/
  | getCertificate (port : Nat) (req : List Byte)
  /-- `CHALLENGE` (R361): SPDM challenge signed with Ed25519. -/
  | challenge (port : Nat) (req : List Byte)
  /-- `GET_MEASUREMENTS` (R363): SPDM request for measurement blocks. -/
  | getMeasurements (port : Nat) (req : List Byte)
  /-- `KEY_EXCHANGE` (R361): SPDM ECDHE key exchange opening a session. -/
  | keyExchange (port : Nat) (req : List Byte)
  /-- `FINISH` (R361): SPDM session finish. -/
  | finish (port : Nat) (req : List Byte)
  /-- `END_SESSION` (R361): SPDM session end. -/
  | endSession (port : Nat) (req : List Byte)
  /-- `CONFIG_LOCKED` (R361): A TDISP interface is locked, freezing its queue and measuring the context. -/
  | configLocked (port q : Nat)
  /-- `RUN` (R361): A TDISP interface enters RUN and accepts packets confidentially. -/
  | run (port q : Nat)
  /-- `ERROR` (R361): A TDISP interface enters ERROR; the context becomes dying. -/
  | error (port q : Nat)
  /-- `IDE_INTEGRITY_FAILURE` (R361): An IDE integrity failure moves the interface to ERROR. -/
  | ideIntegrityFailure (port q : Nat)
  /-- `COUNTER_WINDOW` (R364): Every 100 ms the coarsened counters are refreshed. -/
  | counterWindow
  /-- `COLD_START` (R365): Runs all nine start steps. -/
  | coldStart
  /-- `WARM_START` (R365): Runs the start steps except HBM training, self-test and calibration. -/
  | warmStart
  /-- `POWER_LIMIT` (R366): Power over 6.4 kW reduces clocks in 100 MHz steps. -/
  | powerLimit (mw : Nat)
  /-- `THROTTLE` (R366): Junction temperature at 105 °C throttles. -/
  | throttle (die : Nat)
  /-- `TRIP` (R366): Junction temperature at 115 °C stops the die. -/
  | trip (die : Nat)
  /-- `LINK_FLIT_RECEIVE` (R367): A flit arrives; a CRC failure or sequence gap starts a go-back-N replay. -/
  | linkFlitReceive (link : Nat) (crcOk : Bool) (hdr : Word)
  /-- `LINK_REQUEST` (R369): A peer's link request is served within its export as an access of XCTX: `data` holds
the bytes of a write, each with its poison. -/
  | linkRequest (peer tag : Nat) (wr : Bool) (off len : Nat) (data : List (Byte × Bool)) (note : Option (List Word))
  /-- `LINK_RESPONSE` (R370): The peer's response completes the issuer's link command: `data` holds the
bytes read, each with its poison. -/
  | linkResponse (flight q n : Nat) (data : List (Byte × Bool)) (status : Nat)
  /-- `LINK_DOWN` (R371): A link losing lock or failing eight replays leaves service and resends its flits. -/
  | linkDown (link cause : Nat)
  /-- `PEER_TIMEOUT` (R371): An unanswered peer request or empty mask isolates the peer. -/
  | peerTimeout (peer cause : Nat)
  /-- `VIEW_APPLIES_WRITE` (R177): A die's view of global memory applies a released write, the home die when the home applies it and other dies later once the write's vector clock is satisfied. -/
  | viewAppliesWrite (die k : Nat)
  /-- `INJECTION_TAKES_EFFECT` (R359): An injected uncorrectable error or stall takes effect on its target once the INJECT packet's delay in nanoseconds has passed. -/
  | injectionTakesEffect (k : Nat)
  /-- `CONFIG_UNLOCKED` (R361): A TDISP interface returns to CONFIG_UNLOCKED, after which BINDQ, UNBINDQ, RESETQ and INTRSET are accepted again. -/
  | configUnlocked (port q : Nat)
  deriving DecidableEq, Repr

end Sys2Proof
end

