-- ==== Sys2Proof/Config.lean ====
section
/-! DEFINITION. What the spec leaves open and no rule fixes: free values, each an opaque constant. No proof can see
one, so a claim that holds holds for every value of it (notes/assumptions/14.md). What reaches a register or a window is a
function of what the instruction reads, so that two runs agree on it (R7, R9). Elsewhere the argument is a counter of the
state that every use advances, so that two uses are not forced to agree. -/

namespace Sys2Proof.Config

/-- Which of several agents that can move takes the next step (R8: timing and the order of independent agents lie
outside the promise). Read modulo the number of agents, and only where there are two or more. -/
opaque choose : Nat → Nat

/-- A fresh key from the security core's random generator (R362). -/
opaque freeKey : Nat → Word

/-- The bytes of a reply that the security core gives to an SPDM message (R361 names the messages and algorithms;
the reply's bytes depend on keys and nonces that the spec does not give). -/
opaque freeReply : Nat → List Byte

/-- Whether an Ed25519 signature check of a firmware image succeeds (R360). -/
opaque imageOk : List Byte → Bool

/-- Whether a verified firmware image enables error injection (R359, INJECT). -/
opaque injectEnabled : List Byte → Bool

/-- The result of a query whose operand has a bit set that the rule requires to be zero, where the rule gives no result for
it (R251, R273, R304), or the part of a result that no rule gives: by the query and its two operands. -/
opaque openWord : Nat → Word → Word → Word

/-- KIND of the receipt of a wait that ends without a message, read modulo the four kinds that carry no token (R299
gives that receipt its STATUS only): by that STATUS. -/
opaque openKind : Nat → Nat

/-- BADGE of a receipt that no rule gives one: by its KIND and STATUS. -/
opaque openBadge : Nat → Nat → Word

/-- The fresh token of a call or of a fault message (R299, R300, which give it no value but that it is nonzero and of 32 bits): by the
context and address of the barge's record, whether it is of a fault, and its place among the barge's own. -/
opaque freeToken : Nat → Nat → Bool → Nat → Nat

/-- Whether a command that ends early has written an 8-byte word of its destination (R215: each byte holds its old value or
the new one): by a key and the word. The key of a command that ends XLATE names the command by what R7 fixes (R215); that of
another is a counter. -/
opaque partWord : List Nat → Nat → Bool

/-- A byte of a peer's memory that a link command which ends early may have fetched (R215, R370): by a key, as that of
`partWord`, and the address in the peer window. -/
opaque peerByte : List Nat → Nat → BitVec 8

/-- The page to which the host translates a page of a PASID behind a port (R353): by port, PASID, page, and the number of
invalidations that have covered it. -/
opaque hostFrame : Nat → Nat → Nat → Nat → Nat

/-- Whether a host or an expander leaves a core's access unanswered for now (R357 says what follows, and nothing says when it
answers): by the target and a counter. -/
opaque silent : Nat → Nat → Bool

/-- Bytes read from or written to HBM for a tenant in a counter window (R364 names the counter and its quantum, not
which accesses it counts). -/
opaque hbmBytes : Nat → Nat

/-- The number by which an event's detail names its cause (R356 names the causes of codes 5, 9, 11 and 12 and gives them
no numbers): the event's code, and the model's own number for the cause. -/
opaque causeCode : Nat → Nat → Nat

/-- The version of the security core's ROM, measurement block 2 (R363). -/
opaque romVersion : List (BitVec 8)

/-- The start configuration, measurement block 3 (R363 names R364, which gives none): by the shares withdrawn when it is read. -/
opaque startConfig : List Nat → List (BitVec 8)

/-- The reply to GET_MEASUREMENTS that carries these measurement blocks: by a counter and the blocks' bytes. -/
opaque measureReply : Nat → List (BitVec 8) → List (BitVec 8)

end Sys2Proof.Config
end

