-- ==== Sys2Proof/WellFormed.lean ====
section
/-! DEFINITION. Which terms of `Instr` stand for an instruction word that the encoding has (04_encoding R72 to R88):
every field fits its width, an element type lies in the function's classes, the two types of a conversion differ, a
system-register number names a register (R85, R91, R283, R342), the register form of `SQSTAT` names a register. An
event has no word; its arguments are checked by its meaning. -/

namespace Sys2Proof

def ETy.isF (t : ETy) : Bool := t.cls == .F
def ETy.isI (t : ETy) : Bool := t.cls == .I
def ETy.isFI (t : ETy) : Bool := t.cls != .L

/-- The system registers that some chapter assigns (R91, R283, R342). -/
def isSysReg (n : Nat) : Bool :=
  n ≤ 0x002 || n == 0x010 || (0x100 ≤ n && n ≤ 0x105) || (0x500 ≤ n && n ≤ 0x503) || (0x600 ≤ n && n ≤ 0x602)

/-- A register number. -/
def regOk (n : Nat) : Bool := n < 32

/-- Is the row an instruction word (true) or a step without a word (false)? -/
def Instr.isWord : Instr → Bool
  | .add _ _ _ _ => true
  | .sub _ _ _ _ => true
  | .and _ _ _ _ => true
  | .or _ _ _ _ => true
  | .xor _ _ _ _ => true
  | .andn _ _ _ _ => true
  | .orn _ _ _ _ => true
  | .sll _ _ _ _ => true
  | .srl _ _ _ _ => true
  | .sra _ _ _ _ => true
  | .rol _ _ _ _ => true
  | .ror _ _ _ _ => true
  | .slt _ _ _ _ => true
  | .sltu _ _ _ _ => true
  | .seq _ _ _ _ => true
  | .sne _ _ _ _ => true
  | .min _ _ _ _ => true
  | .max _ _ _ _ => true
  | .minu _ _ _ _ => true
  | .maxu _ _ _ _ => true
  | .mul _ _ _ _ => true
  | .mulh _ _ _ _ => true
  | .mulhu _ _ _ _ => true
  | .mulhsu _ _ _ _ => true
  | .div _ _ _ _ => true
  | .divu _ _ _ _ => true
  | .rem _ _ _ _ => true
  | .remu _ _ _ _ => true
  | .clz _ _ _ => true
  | .ctz _ _ _ => true
  | .popc _ _ _ => true
  | .ffs _ _ _ => true
  | .brev _ _ _ => true
  | .bswap _ _ _ => true
  | .sxb _ _ _ => true
  | .sxh _ _ _ => true
  | .sxw _ _ _ => true
  | .zxb _ _ _ => true
  | .zxh _ _ _ => true
  | .zxw _ _ _ => true
  | .addi _ _ _ _ => true
  | .andi _ _ _ _ => true
  | .ori _ _ _ _ => true
  | .xori _ _ _ _ => true
  | .slti _ _ _ _ => true
  | .sltiu _ _ _ _ => true
  | .slli _ _ _ _ => true
  | .srli _ _ _ _ => true
  | .srai _ _ _ _ => true
  | .rori _ _ _ _ => true
  | .lui _ _ _ => true
  | .addpc _ _ _ => true
  | .beqz _ _ => true
  | .bnez _ _ => true
  | .bltz _ _ => true
  | .bgez _ _ => true
  | .bgtz _ _ => true
  | .blez _ _ => true
  | .bodd _ _ => true
  | .j _ => true
  | .jl _ => true
  | .jlr _ _ _ => true
  | .srd _ _ _ => true
  | .swr _ _ _ => true
  | .srset _ _ _ _ => true
  | .srclr _ _ _ _ => true
  | .vadd _ _ _ _ _ _ => true
  | .vsub _ _ _ _ _ _ => true
  | .vmul _ _ _ _ _ _ => true
  | .vdiv _ _ _ _ _ _ => true
  | .vmin _ _ _ _ _ _ => true
  | .vmax _ _ _ _ _ _ => true
  | .vsqrt _ _ _ _ _ => true
  | .vexp2 _ _ _ _ _ => true
  | .vlog2 _ _ _ _ _ => true
  | .vabs _ _ _ _ _ => true
  | .vneg _ _ _ _ _ => true
  | .vmv _ _ _ _ _ => true
  | .vand _ _ _ _ _ _ => true
  | .vor _ _ _ _ _ _ => true
  | .vxor _ _ _ _ _ _ => true
  | .vsll _ _ _ _ _ _ => true
  | .vsrl _ _ _ _ _ _ => true
  | .vsra _ _ _ _ _ _ => true
  | .vadds _ _ _ _ _ _ => true
  | .vsubs _ _ _ _ _ _ => true
  | .vmulh _ _ _ _ _ _ => true
  | .vclz _ _ _ _ _ => true
  | .vpopc _ _ _ _ _ => true
  | .vffs _ _ _ _ _ => true
  | .vfma _ _ _ _ _ _ => true
  | .vfms _ _ _ _ _ _ => true
  | .vfnma _ _ _ _ _ _ => true
  | .vfnms _ _ _ _ _ _ => true
  | .vceq _ _ _ _ _ _ => true
  | .vcne _ _ _ _ _ _ => true
  | .vclt _ _ _ _ _ _ => true
  | .vcle _ _ _ _ _ _ => true
  | .vcltu _ _ _ _ _ _ => true
  | .vcleu _ _ _ _ _ _ => true
  | .vcun _ _ _ _ _ _ => true
  | .vsel _ _ _ _ _ => true
  | .vcvt _ _ _ _ _ _ _ => true
  | .vcompress _ _ _ _ => true
  | .vexpand _ _ _ _ => true
  | .vperm _ _ _ _ _ _ => true
  | .vslideup _ _ _ _ _ _ => true
  | .vslidedn _ _ _ _ _ _ => true
  | .vbcast _ _ _ _ _ => true
  | .vextr _ _ _ _ _ => true
  | .vidx _ _ _ _ => true
  | .vredsum _ _ _ _ _ => true
  | .vredmax _ _ _ _ _ => true
  | .vredmin _ _ _ _ _ => true
  | .vredand _ _ _ _ _ => true
  | .vredor _ _ _ _ _ => true
  | .vredxor _ _ _ _ _ => true
  | .vmand _ _ _ _ _ => true
  | .vmor _ _ _ _ _ => true
  | .vmxor _ _ _ _ _ => true
  | .vmandn _ _ _ _ _ => true
  | .vmnot _ _ _ _ => true
  | .vmpopc _ _ _ _ => true
  | .vmffs _ _ _ _ => true
  | .ldb _ _ _ _ _ => true
  | .ldh _ _ _ _ _ => true
  | .ldw _ _ _ _ _ => true
  | .ldd _ _ _ _ _ => true
  | .ldbu _ _ _ _ _ => true
  | .ldhu _ _ _ _ _ => true
  | .ldwu _ _ _ _ _ => true
  | .stb _ _ _ _ _ => true
  | .sth _ _ _ _ _ => true
  | .stw _ _ _ _ _ => true
  | .std _ _ _ _ _ => true
  | .vld _ _ _ _ _ => true
  | .vst _ _ _ _ _ => true
  | .ldf _ _ _ => true
  | .ldfn _ _ _ => true
  | .ste _ _ _ => true
  | .stf _ _ _ _ => true
  | .amoswap _ _ _ _ _ => true
  | .amocas _ _ _ _ _ => true
  | .amoadd _ _ _ _ _ => true
  | .amoand _ _ _ _ _ => true
  | .amoor _ _ _ _ _ => true
  | .amoxor _ _ _ _ _ => true
  | .amomin _ _ _ _ _ => true
  | .amomax _ _ _ _ _ => true
  | .amominu _ _ _ _ _ => true
  | .amomaxu _ _ _ _ _ => true
  | .redadd _ _ _ _ _ => true
  | .redand _ _ _ _ _ => true
  | .redor _ _ _ _ _ => true
  | .redxor _ _ _ _ _ => true
  | .redmin _ _ _ _ _ => true
  | .redmax _ _ _ _ _ => true
  | .redminu _ _ _ _ _ => true
  | .redmaxu _ _ _ _ _ => true
  | .redfmin _ _ _ _ => true
  | .redfmax _ _ _ _ => true
  | .xaadd _ _ _ _ _ => true
  | .xard _ _ _ _ _ => true
  | .lease _ _ => true
  | .lrel => true
  | .fence _ _ => true
  | .barv _ _ => true
  | .barvx _ _ _ => true
  | .bwait _ _ => true
  | .tlwait _ _ => true
  | .ttdef _ _ _ => true
  | .ttwait _ => true
  | .ttrel _ _ => true
  | .mturn _ _ _ => true
  | .mtend _ _ => true
  | .mringcfg _ _ _ _ => true
  | .mringadv _ _ _ _ => true
  | .mzero _ _ _ => true
  | .mma _ _ _ _ _ => true
  | .mmax _ _ _ _ => true
  | .mrec _ _ _ _ => true
  | .mldprog _ _ _ => true
  | .maccrd _ _ _ _ _ => true
  | .maccwr _ _ _ _ => true
  | .mstat _ _ _ _ => true
  | .scopy _ _ _ _ => true
  | .scopy2d _ _ _ _ => true
  | .sfill _ _ _ _ => true
  | .scvt _ _ _ _ => true
  | .shint _ _ _ _ => true
  | .sqcfg _ _ _ _ => true
  | .sqstat _ _ _ _ => true
  | .sqstatNamed _ _ _ _ => true
  | .sqrst _ _ _ => true
  | .cdef _ _ _ => true
  | .crsz _ _ _ => true
  | .cflush _ _ _ _ => true
  | .cinval _ _ _ _ => true
  | .cquery _ _ _ _ _ => true
  | .cplace _ _ _ _ => true
  | .cdrop _ _ _ => true
  | .map _ _ _ => true
  | .grant _ _ _ => true
  | .unmap _ _ _ _ => true
  | .unmapx _ _ _ _ => true
  | .send _ _ _ => true
  | .recv _ _ _ => true
  | .call _ _ => true
  | .reply _ _ _ => true
  | .epdrop _ _ _ => true
  | .epinfo _ _ _ => true
  | .chbind _ _ _ _ => true
  | .mquery _ _ _ _ _ => true
  | .spawn _ _ => true
  | .spawng _ _ => true
  | .pdec _ _ => true
  | .chpri _ _ => true
  | .endOp => true
  | .ginfo _ _ _ => true
  | .affin _ _ => true
  | .wstat _ _ _ _ => true
  | .setshp _ _ _ => true
  | .ckpt => true
  | .yield => true
  | .trap _ _ _ => true
  | .bkpt => true
  | .rpt _ _ _ _ _ _ => true
  | .pfx _ => true
  | .leasemaxWrite _ _ => false
  | .tleaseWrite _ _ => false
  | .slotcfgWrite _ _ => false
  | .fpflagsWrite _ _ => false
  | .sysregWrite _ _ _ => false
  | .feHeldPerform _ => false
  | .matrixCommandBegin _ => false
  | .matrixCommandComplete _ => false
  | .turnRelease _ => false
  | .sluiceCommandBegin _ _ => false
  | .sluiceCommandComplete _ _ _ => false
  | .sluiceTimeout _ _ _ => false
  | .composerCommandComplete _ => false
  | .resizeLineMove _ => false
  | .bankShareFault _ _ => false
  | .mappingCommandBegin _ => false
  | .mappingCommandComplete _ => false
  | .contextFree _ => false
  | .heldFaultQueue _ => false
  | .leaseExpiry _ => false
  | .preemption _ => false
  | .shootdown _ => false
  | .shootdownAck _ => false
  | .backInvalidate _ _ _ => false
  | .translationWalk _ _ _ => false
  | .translationLeaseExpiry _ _ => false
  | .slotDispatch _ => false
  | .weirPeriod _ => false
  | .flightJoin _ => false
  | .slotBoundary => false
  | .notifyWrite _ _ _ _ => false
  | .dispatch _ _ => false
  | .dispatchg _ _ => false
  | .order _ _ => false
  | .maint _ _ => false
  | .packetCompletion _ _ _ => false
  | .ctxcreate _ _ => false
  | .ctxdestroy _ _ => false
  | .bindq _ _ => false
  | .resetq _ _ => false
  | .unbindq _ _ => false
  | .setlimit _ _ => false
  | .tenant _ _ => false
  | .slotset _ _ => false
  | .epset _ _ => false
  | .chown _ _ => false
  | .unisolate _ _ => false
  | .bias _ _ => false
  | .intrset _ _ => false
  | .evring _ _ => false
  | .inject _ _ => false
  | .peerset _ _ => false
  | .exportOp _ _ => false
  | .hostAccessTimeout _ => false
  | .hostMemoryAccess _ _ _ _ => false
  | .atsInvalidation _ _ _ => false
  | .expanderHotAdd _ _ => false
  | .imageWrite _ => false
  | .getVersion _ _ => false
  | .getCapabilities _ _ => false
  | .negotiateAlgorithms _ _ => false
  | .getDigests _ _ => false
  | .getCertificate _ _ => false
  | .challenge _ _ => false
  | .getMeasurements _ _ => false
  | .keyExchange _ _ => false
  | .finish _ _ => false
  | .endSession _ _ => false
  | .configLocked _ _ => false
  | .run _ _ => false
  | .error _ _ => false
  | .ideIntegrityFailure _ _ => false
  | .counterWindow => false
  | .coldStart => false
  | .warmStart => false
  | .powerLimit _ => false
  | .throttle _ => false
  | .trip _ => false
  | .linkFlitReceive _ _ _ => false
  | .linkRequest _ _ _ _ _ _ _ => false
  | .linkResponse _ _ _ _ _ => false
  | .linkDown _ _ => false
  | .peerTimeout _ _ => false
  | .viewAppliesWrite _ _ => false
  | .injectionTakesEffect _ => false
  | .configUnlocked _ _ => false

/-- The well-formed instruction words. -/
def Instr.wf : Instr → Bool
  | .add _ d a b => regOk d && regOk a && regOk b
  | .sub _ d a b => regOk d && regOk a && regOk b
  | .and _ d a b => regOk d && regOk a && regOk b
  | .or _ d a b => regOk d && regOk a && regOk b
  | .xor _ d a b => regOk d && regOk a && regOk b
  | .andn _ d a b => regOk d && regOk a && regOk b
  | .orn _ d a b => regOk d && regOk a && regOk b
  | .sll _ d a b => regOk d && regOk a && regOk b
  | .srl _ d a b => regOk d && regOk a && regOk b
  | .sra _ d a b => regOk d && regOk a && regOk b
  | .rol _ d a b => regOk d && regOk a && regOk b
  | .ror _ d a b => regOk d && regOk a && regOk b
  | .slt _ d a b => regOk d && regOk a && regOk b
  | .sltu _ d a b => regOk d && regOk a && regOk b
  | .seq _ d a b => regOk d && regOk a && regOk b
  | .sne _ d a b => regOk d && regOk a && regOk b
  | .min _ d a b => regOk d && regOk a && regOk b
  | .max _ d a b => regOk d && regOk a && regOk b
  | .minu _ d a b => regOk d && regOk a && regOk b
  | .maxu _ d a b => regOk d && regOk a && regOk b
  | .mul _ d a b => regOk d && regOk a && regOk b
  | .mulh _ d a b => regOk d && regOk a && regOk b
  | .mulhu _ d a b => regOk d && regOk a && regOk b
  | .mulhsu _ d a b => regOk d && regOk a && regOk b
  | .div _ d a b => regOk d && regOk a && regOk b
  | .divu _ d a b => regOk d && regOk a && regOk b
  | .rem _ d a b => regOk d && regOk a && regOk b
  | .remu _ d a b => regOk d && regOk a && regOk b
  | .clz _ d a => regOk d && regOk a
  | .ctz _ d a => regOk d && regOk a
  | .popc _ d a => regOk d && regOk a
  | .ffs _ d a => regOk d && regOk a
  | .brev _ d a => regOk d && regOk a
  | .bswap _ d a => regOk d && regOk a
  | .sxb _ d a => regOk d && regOk a
  | .sxh _ d a => regOk d && regOk a
  | .sxw _ d a => regOk d && regOk a
  | .zxb _ d a => regOk d && regOk a
  | .zxh _ d a => regOk d && regOk a
  | .zxw _ d a => regOk d && regOk a
  | .addi _ d a i => regOk d && regOk a && decide (i < 32768)
  | .andi _ d a i => regOk d && regOk a && decide (i < 32768)
  | .ori _ d a i => regOk d && regOk a && decide (i < 32768)
  | .xori _ d a i => regOk d && regOk a && decide (i < 32768)
  | .slti _ d a i => regOk d && regOk a && decide (i < 32768)
  | .sltiu _ d a i => regOk d && regOk a && decide (i < 32768)
  | .slli _ d a c => regOk d && regOk a && decide (c < 64)
  | .srli _ d a c => regOk d && regOk a && decide (c < 64)
  | .srai _ d a c => regOk d && regOk a && decide (c < 64)
  | .rori _ d a c => regOk d && regOk a && decide (c < 64)
  | .lui _ d i => regOk d && decide (i < 1048576)
  | .addpc _ d i => regOk d && decide (i < 1048576)
  | .beqz a x => regOk a && decide (x < 131072)
  | .bnez a x => regOk a && decide (x < 131072)
  | .bltz a x => regOk a && decide (x < 131072)
  | .bgez a x => regOk a && decide (x < 131072)
  | .bgtz a x => regOk a && decide (x < 131072)
  | .blez a x => regOk a && decide (x < 131072)
  | .bodd a x => regOk a && decide (x < 131072)
  | .j x => decide (x < 33554432)
  | .jl x => decide (x < 33554432)
  | .jlr d a i => regOk d && regOk a && decide (i < 32768)
  | .srd _ d n => regOk d && isSysReg n
  | .swr _ a n => regOk a && isSysReg n
  | .srset _ d a n => regOk d && regOk a && isSysReg n
  | .srclr _ d a n => regOk d && regOk a && isSysReg n
  | .vadd _ d a b _ t => regOk d && regOk a && regOk b && t.isFI
  | .vsub _ d a b _ t => regOk d && regOk a && regOk b && t.isFI
  | .vmul _ d a b _ t => regOk d && regOk a && regOk b && t.isFI
  | .vdiv _ d a b _ t => regOk d && regOk a && regOk b && t.isF
  | .vmin _ d a b _ t => regOk d && regOk a && regOk b && t.isFI
  | .vmax _ d a b _ t => regOk d && regOk a && regOk b && t.isFI
  | .vsqrt _ d a _ t => regOk d && regOk a && t.isF
  | .vexp2 _ d a _ t => regOk d && regOk a && t.isF
  | .vlog2 _ d a _ t => regOk d && regOk a && t.isF
  | .vabs _ d a _ t => regOk d && regOk a && t.isFI
  | .vneg _ d a _ t => regOk d && regOk a && t.isFI
  | .vmv _ d a _ _ => regOk d && regOk a
  | .vand _ d a b _ t => regOk d && regOk a && regOk b && t.isI
  | .vor _ d a b _ t => regOk d && regOk a && regOk b && t.isI
  | .vxor _ d a b _ t => regOk d && regOk a && regOk b && t.isI
  | .vsll _ d a b _ t => regOk d && regOk a && regOk b && t.isI
  | .vsrl _ d a b _ t => regOk d && regOk a && regOk b && t.isI
  | .vsra _ d a b _ t => regOk d && regOk a && regOk b && t.isI
  | .vadds _ d a b _ t => regOk d && regOk a && regOk b && t.isI
  | .vsubs _ d a b _ t => regOk d && regOk a && regOk b && t.isI
  | .vmulh _ d a b _ t => regOk d && regOk a && regOk b && t.isI
  | .vclz _ d a _ t => regOk d && regOk a && t.isI
  | .vpopc _ d a _ t => regOk d && regOk a && t.isI
  | .vffs _ d a _ t => regOk d && regOk a && t.isI
  | .vfma _ d a b _ t => regOk d && regOk a && regOk b && t.isF
  | .vfms _ d a b _ t => regOk d && regOk a && regOk b && t.isF
  | .vfnma _ d a b _ t => regOk d && regOk a && regOk b && t.isF
  | .vfnms _ d a b _ t => regOk d && regOk a && regOk b && t.isF
  | .vceq _ d a b _ t => regOk d && regOk a && regOk b && t.isFI
  | .vcne _ d a b _ t => regOk d && regOk a && regOk b && t.isFI
  | .vclt _ d a b _ t => regOk d && regOk a && regOk b && t.isFI
  | .vcle _ d a b _ t => regOk d && regOk a && regOk b && t.isFI
  | .vcltu _ d a b _ t => regOk d && regOk a && regOk b && t.isI
  | .vcleu _ d a b _ t => regOk d && regOk a && regOk b && t.isI
  | .vcun _ d a b _ t => regOk d && regOk a && regOk b && t.isF
  | .vsel _ d a b _ => regOk d && regOk a && regOk b
  | .vcvt _ d a u _ t _ => regOk d && regOk a && u != t
  | .vcompress _ d a _ => regOk d && regOk a
  | .vexpand _ d a _ => regOk d && regOk a
  | .vperm _ d a b _ _ => regOk d && regOk a && regOk b
  | .vslideup _ d a b _ _ => regOk d && regOk a && regOk b
  | .vslidedn _ d a b _ _ => regOk d && regOk a && regOk b
  | .vbcast _ d a _ _ => regOk d && regOk a
  | .vextr _ d a b _ => regOk d && regOk a && regOk b
  | .vidx _ d _ t => regOk d && t.isI
  | .vredsum _ d a _ t => regOk d && regOk a && t.isFI
  | .vredmax _ d a _ t => regOk d && regOk a && t.isFI
  | .vredmin _ d a _ t => regOk d && regOk a && t.isFI
  | .vredand _ d a _ t => regOk d && regOk a && t.isI
  | .vredor _ d a _ t => regOk d && regOk a && t.isI
  | .vredxor _ d a _ t => regOk d && regOk a && t.isI
  | .vmand _ d a b _ => regOk d && regOk a && regOk b
  | .vmor _ d a b _ => regOk d && regOk a && regOk b
  | .vmxor _ d a b _ => regOk d && regOk a && regOk b
  | .vmandn _ d a b _ => regOk d && regOk a && regOk b
  | .vmnot _ d a _ => regOk d && regOk a
  | .vmpopc _ d a _ => regOk d && regOk a
  | .vmffs _ d a _ => regOk d && regOk a
  | .ldb _ d b _ x => regOk d && regOk b && decide (x < 1024)
  | .ldh _ d b _ x => regOk d && regOk b && decide (x < 1024)
  | .ldw _ d b _ x => regOk d && regOk b && decide (x < 1024)
  | .ldd _ d b _ x => regOk d && regOk b && decide (x < 1024)
  | .ldbu _ d b _ x => regOk d && regOk b && decide (x < 1024)
  | .ldhu _ d b _ x => regOk d && regOk b && decide (x < 1024)
  | .ldwu _ d b _ x => regOk d && regOk b && decide (x < 1024)
  | .stb _ d b _ x => regOk d && regOk b && decide (x < 1024)
  | .sth _ d b _ x => regOk d && regOk b && decide (x < 1024)
  | .stw _ d b _ x => regOk d && regOk b && decide (x < 1024)
  | .std _ d b _ x => regOk d && regOk b && decide (x < 1024)
  | .vld _ d b _ x => regOk d && regOk b && decide (x < 1024)
  | .vst _ d b _ x => regOk d && regOk b && decide (x < 1024)
  | .ldf d b x => regOk d && regOk b && decide (x < 1024)
  | .ldfn d b x => regOk d && regOk b && decide (x < 1024)
  | .ste d b x => regOk d && regOk b && decide (x < 1024)
  | .stf _ d b x => regOk d && regOk b && decide (x < 1024)
  | .amoswap d a b _ _ => regOk d && regOk a && regOk b
  | .amocas d a b _ _ => regOk d && regOk a && regOk b
  | .amoadd d a b _ _ => regOk d && regOk a && regOk b
  | .amoand d a b _ _ => regOk d && regOk a && regOk b
  | .amoor d a b _ _ => regOk d && regOk a && regOk b
  | .amoxor d a b _ _ => regOk d && regOk a && regOk b
  | .amomin d a b _ _ => regOk d && regOk a && regOk b
  | .amomax d a b _ _ => regOk d && regOk a && regOk b
  | .amominu d a b _ _ => regOk d && regOk a && regOk b
  | .amomaxu d a b _ _ => regOk d && regOk a && regOk b
  | .redadd _ a b _ _ => regOk a && regOk b
  | .redand _ a b _ _ => regOk a && regOk b
  | .redor _ a b _ _ => regOk a && regOk b
  | .redxor _ a b _ _ => regOk a && regOk b
  | .redmin _ a b _ _ => regOk a && regOk b
  | .redmax _ a b _ _ => regOk a && regOk b
  | .redminu _ a b _ _ => regOk a && regOk b
  | .redmaxu _ a b _ _ => regOk a && regOk b
  | .redfmin _ a b _ => regOk a && regOk b
  | .redfmax _ a b _ => regOk a && regOk b
  | .xaadd _ a b _ _ => regOk a && regOk b
  | .xard _ d a _ _ => regOk d && regOk a
  | .lease _ a => regOk a
  | .lrel => true
  | .fence _ _ => true
  | .barv _ a => regOk a
  | .barvx _ a b => regOk a && regOk b
  | .bwait a b => regOk a && regOk b
  | .tlwait a b => regOk a && regOk b
  | .ttdef _ a b => regOk a && regOk b
  | .ttwait a => regOk a
  | .ttrel _ a => regOk a
  | .mturn _ d a => regOk d && regOk a
  | .mtend _ d => regOk d
  | .mringcfg _ d a b => regOk d && regOk a && regOk b
  | .mringadv _ d a b => regOk d && regOk a && regOk b
  | .mzero _ d a => regOk d && regOk a
  | .mma _ d a b _ => regOk d && regOk a && regOk b
  | .mmax _ d a b => regOk d && regOk a && regOk b
  | .mrec _ d a b => regOk d && regOk a && regOk b
  | .mldprog _ d a => regOk d && regOk a
  | .maccrd _ d a b _ => regOk d && regOk a && regOk b
  | .maccwr _ d a b => regOk d && regOk a && regOk b
  | .mstat _ d a l => regOk d && regOk a && decide (l < 4)
  | .scopy _ d a q => regOk d && regOk a && decide (q < 16)
  | .scopy2d _ d a q => regOk d && regOk a && decide (q < 16)
  | .sfill _ d a q => regOk d && regOk a && decide (q < 16)
  | .scvt _ d a q => regOk d && regOk a && decide (q < 16)
  | .shint _ d a q => regOk d && regOk a && decide (q < 16)
  | .sqcfg _ d a q => regOk d && regOk a && decide (q < 16)
  | .sqstat _ d a q => regOk d && regOk a && decide (q < 16)
  | .sqstatNamed _ d a b => regOk d && regOk a && regOk b && b != 0
  | .sqrst _ d q => regOk d && decide (q < 16)
  | .cdef _ d a => regOk d && regOk a
  | .crsz _ d a => regOk d && regOk a
  | .cflush _ d a b => regOk d && regOk a && regOk b
  | .cinval _ d a b => regOk d && regOk a && regOk b
  | .cquery _ d a b l => regOk d && regOk a && regOk b && decide (l < 4)
  | .cplace _ d a b => regOk d && regOk a && regOk b
  | .cdrop _ d a => regOk d && regOk a
  | .map _ d a => regOk d && regOk a
  | .grant _ d a => regOk d && regOk a
  | .unmap _ d a b => regOk d && regOk a && regOk b
  | .unmapx _ d a b => regOk d && regOk a && regOk b
  | .send _ d a => regOk d && regOk a
  | .recv a b _ => regOk a && regOk b
  | .call a b => regOk a && regOk b
  | .reply _ d a => regOk d && regOk a
  | .epdrop _ d a => regOk d && regOk a
  | .epinfo _ d a => regOk d && regOk a
  | .chbind _ d a b => regOk d && regOk a && regOk b
  | .mquery _ d a b l => regOk d && regOk a && regOk b && decide (l < 4)
  | .spawn _ a => regOk a
  | .spawng _ a => regOk a
  | .pdec _ a => regOk a
  | .chpri _ a => regOk a
  | .endOp => true
  | .ginfo _ d a => regOk d && regOk a
  | .affin _ a => regOk a
  | .wstat _ d a l => regOk d && regOk a && decide (l < 4)
  | .setshp _ d a => regOk d && regOk a
  | .ckpt => true
  | .yield => true
  | .trap a b c => regOk a && regOk b && decide (c < 16)
  | .bkpt => true
  | .rpt c l x y z e => decide (c < 32) && decide (l < 16) && decide (x < 16) && decide (y < 16) && decide (z < 16) && decide (e < 16)
  | .pfx p => decide (p < 33554432)
  | .leasemaxWrite _ _ => false
  | .tleaseWrite _ _ => false
  | .slotcfgWrite _ _ => false
  | .fpflagsWrite _ _ => false
  | .sysregWrite _ _ _ => false
  | .feHeldPerform _ => false
  | .matrixCommandBegin _ => false
  | .matrixCommandComplete _ => false
  | .turnRelease _ => false
  | .sluiceCommandBegin _ _ => false
  | .sluiceCommandComplete _ _ _ => false
  | .sluiceTimeout _ _ _ => false
  | .composerCommandComplete _ => false
  | .resizeLineMove _ => false
  | .bankShareFault _ _ => false
  | .mappingCommandBegin _ => false
  | .mappingCommandComplete _ => false
  | .contextFree _ => false
  | .heldFaultQueue _ => false
  | .leaseExpiry _ => false
  | .preemption _ => false
  | .shootdown _ => false
  | .shootdownAck _ => false
  | .backInvalidate _ _ _ => false
  | .translationWalk _ _ _ => false
  | .translationLeaseExpiry _ _ => false
  | .slotDispatch _ => false
  | .weirPeriod _ => false
  | .flightJoin _ => false
  | .slotBoundary => false
  | .notifyWrite _ _ _ _ => false
  | .dispatch _ _ => false
  | .dispatchg _ _ => false
  | .order _ _ => false
  | .maint _ _ => false
  | .packetCompletion _ _ _ => false
  | .ctxcreate _ _ => false
  | .ctxdestroy _ _ => false
  | .bindq _ _ => false
  | .resetq _ _ => false
  | .unbindq _ _ => false
  | .setlimit _ _ => false
  | .tenant _ _ => false
  | .slotset _ _ => false
  | .epset _ _ => false
  | .chown _ _ => false
  | .unisolate _ _ => false
  | .bias _ _ => false
  | .intrset _ _ => false
  | .evring _ _ => false
  | .inject _ _ => false
  | .peerset _ _ => false
  | .exportOp _ _ => false
  | .hostAccessTimeout _ => false
  | .hostMemoryAccess _ _ _ _ => false
  | .atsInvalidation _ _ _ => false
  | .expanderHotAdd _ _ => false
  | .imageWrite _ => false
  | .getVersion _ _ => false
  | .getCapabilities _ _ => false
  | .negotiateAlgorithms _ _ => false
  | .getDigests _ _ => false
  | .getCertificate _ _ => false
  | .challenge _ _ => false
  | .getMeasurements _ _ => false
  | .keyExchange _ _ => false
  | .finish _ _ => false
  | .endSession _ _ => false
  | .configLocked _ _ => false
  | .run _ _ => false
  | .error _ _ => false
  | .ideIntegrityFailure _ _ => false
  | .counterWindow => false
  | .coldStart => false
  | .warmStart => false
  | .powerLimit _ => false
  | .throttle _ => false
  | .trip _ => false
  | .linkFlitReceive _ _ _ => false
  | .linkRequest _ _ _ _ _ _ _ => false
  | .linkResponse _ _ _ _ _ => false
  | .linkDown _ _ => false
  | .peerTimeout _ _ => false
  | .viewAppliesWrite _ _ => false
  | .injectionTakesEffect _ => false
  | .configUnlocked _ _ => false

end Sys2Proof
end

