-- ==== Sys2Proof/Decode.lean ====
section
/-! DEFINITION. Decoding: from a 32-bit word to an instruction or a named rejection (04_encoding R67 to R88), total on
every word; then the encoder, written from the same maps. A word is read as six fields: the stop bit 31, the major
30:25, bits 24:20, 19:15, 14:10 and 9:0. Rejections that need more than the word itself (R68, R80, R82) are in
Machine/Fetch.lean. -/

namespace Sys2Proof

/-- Why a word is no instruction (R88). -/
inductive Illegal
  | reservedMajor | unassigned | nonzeroField | badType | badMask | badScope | badSize | badSpace
  | noSysReg | equalTypes | stopClear | prefixStop | tooShort
  deriving DecidableEq, Repr

/-- The six fields of a word. -/
structure Fields where
  st : Nat
  maj : Nat
  d : Nat
  a : Nat
  b : Nat
  lo : Nat
  deriving DecidableEq, Repr

/-- The word of six fields. -/
def Fields.pack (f : Fields) : Nat :=
  f.st * 2147483648 + f.maj * 33554432 + f.d * 1048576 + f.a * 32768 + f.b * 1024 + f.lo

/-- The six fields of a word. -/
def Fields.unpack (w : Nat) : Fields :=
  ⟨w / 2147483648 % 2, w / 33554432 % 64, w / 1048576 % 32, w / 32768 % 32, w / 1024 % 32, w % 1024⟩

abbrev DecodeResult := Except Illegal Instr

/-- `i` where a field that must be zero is zero. -/
def zeroed (x : Nat) (i : Instr) : DecodeResult := if x = 0 then .ok i else .error .nonzeroField
/-- `r` where the word ends its run, as R71 asks of it. -/
def ends (st : Nat) (r : DecodeResult) : DecodeResult := if st = 1 then r else .error .stopClear
/-- `r` where the element type is permitted. -/
def typed (ok : Bool) (r : DecodeResult) : DecodeResult := if ok then r else .error .badType
/-- `r` where the mask mode is 00. -/
def unmasked (m : Nat) (r : DecodeResult) : DecodeResult := if m = 0 then r else .error .badMask
/-- `r` where the scope code is one of the six. -/
def inScope (sc : Nat) (r : DecodeResult) : DecodeResult := if sc < 6 then r else .error .badScope

/-- Major 0x01 (R84). -/
def decodeAlu (st d a b fn : Nat) : DecodeResult :=
  match fn with
  | 0 => .ok (.add (st == 1) d a b)
  | 1 => .ok (.sub (st == 1) d a b)
  | 2 => .ok (.and (st == 1) d a b)
  | 3 => .ok (.or (st == 1) d a b)
  | 4 => .ok (.xor (st == 1) d a b)
  | 5 => .ok (.andn (st == 1) d a b)
  | 6 => .ok (.orn (st == 1) d a b)
  | 8 => .ok (.sll (st == 1) d a b)
  | 9 => .ok (.srl (st == 1) d a b)
  | 10 => .ok (.sra (st == 1) d a b)
  | 11 => .ok (.rol (st == 1) d a b)
  | 12 => .ok (.ror (st == 1) d a b)
  | 16 => .ok (.slt (st == 1) d a b)
  | 17 => .ok (.sltu (st == 1) d a b)
  | 18 => .ok (.seq (st == 1) d a b)
  | 19 => .ok (.sne (st == 1) d a b)
  | 20 => .ok (.min (st == 1) d a b)
  | 21 => .ok (.max (st == 1) d a b)
  | 22 => .ok (.minu (st == 1) d a b)
  | 23 => .ok (.maxu (st == 1) d a b)
  | 32 => .ok (.mul (st == 1) d a b)
  | 33 => .ok (.mulh (st == 1) d a b)
  | 34 => .ok (.mulhu (st == 1) d a b)
  | 35 => .ok (.mulhsu (st == 1) d a b)
  | 36 => .ok (.div (st == 1) d a b)
  | 37 => .ok (.divu (st == 1) d a b)
  | 38 => .ok (.rem (st == 1) d a b)
  | 39 => .ok (.remu (st == 1) d a b)
  | 64 => zeroed b (.clz (st == 1) d a)
  | 65 => zeroed b (.ctz (st == 1) d a)
  | 66 => zeroed b (.popc (st == 1) d a)
  | 67 => zeroed b (.ffs (st == 1) d a)
  | 68 => zeroed b (.brev (st == 1) d a)
  | 69 => zeroed b (.bswap (st == 1) d a)
  | 70 => zeroed b (.sxb (st == 1) d a)
  | 71 => zeroed b (.sxh (st == 1) d a)
  | 72 => zeroed b (.sxw (st == 1) d a)
  | 73 => zeroed b (.zxb (st == 1) d a)
  | 74 => zeroed b (.zxh (st == 1) d a)
  | 75 => zeroed b (.zxw (st == 1) d a)
  | _ => .error .unassigned

/-- Major 0x08 (R85, R118). -/
def decodeShiftImm (st d a imm : Nat) : DecodeResult :=
  if 256 ≤ imm then .error .nonzeroField else
  match imm / 64 with
  | 0 => .ok (.slli (st == 1) d a (imm % 64))
  | 1 => .ok (.srli (st == 1) d a (imm % 64))
  | 2 => .ok (.srai (st == 1) d a (imm % 64))
  | _ => .ok (.rori (st == 1) d a (imm % 64))

/-- Major 0x0B (R74). -/
def decodeBranch (st a cond x : Nat) : DecodeResult :=
  ends st (match cond with
    | 0 => .ok (.beqz a x)
    | 1 => .ok (.bnez a x)
    | 2 => .ok (.bltz a x)
    | 3 => .ok (.bgez a x)
    | 4 => .ok (.bgtz a x)
    | 5 => .ok (.blez a x)
    | 6 => .ok (.bodd a x)
    | _ => .error .unassigned)

/-- Major 0x0F (R85): the system-register words. -/
def decodeSys (st d a op n : Nat) : DecodeResult :=
  if isSysReg n then
    match op with
    | 0 => zeroed a (.srd (st == 1) d n)
    | 1 => zeroed d (.swr (st == 1) a n)
    | 2 => .ok (.srset (st == 1) d a n)
    | 3 => .ok (.srclr (st == 1) d a n)
    | _ => .error .unassigned
  else if op < 4 then .error .noSysReg else .error .unassigned

/-- Major 0x10 (R86). -/
def decodeVArith (st d a b m t fn : Nat) : DecodeResult :=
  match fn with
  | 0 => typed (ETy.ofCode t).isFI (.ok (.vadd (st == 1) d a b (.ofCode m) (.ofCode t)))
  | 1 => typed (ETy.ofCode t).isFI (.ok (.vsub (st == 1) d a b (.ofCode m) (.ofCode t)))
  | 2 => typed (ETy.ofCode t).isFI (.ok (.vmul (st == 1) d a b (.ofCode m) (.ofCode t)))
  | 3 => typed (ETy.ofCode t).isF (.ok (.vdiv (st == 1) d a b (.ofCode m) (.ofCode t)))
  | 4 => typed (ETy.ofCode t).isFI (.ok (.vmin (st == 1) d a b (.ofCode m) (.ofCode t)))
  | 5 => typed (ETy.ofCode t).isFI (.ok (.vmax (st == 1) d a b (.ofCode m) (.ofCode t)))
  | 6 => typed (ETy.ofCode t).isF (zeroed b (.vsqrt (st == 1) d a (.ofCode m) (.ofCode t)))
  | 7 => typed (ETy.ofCode t).isF (zeroed b (.vexp2 (st == 1) d a (.ofCode m) (.ofCode t)))
  | 8 => typed (ETy.ofCode t).isF (zeroed b (.vlog2 (st == 1) d a (.ofCode m) (.ofCode t)))
  | 9 => typed (ETy.ofCode t).isFI (zeroed b (.vabs (st == 1) d a (.ofCode m) (.ofCode t)))
  | 10 => typed (ETy.ofCode t).isFI (zeroed b (.vneg (st == 1) d a (.ofCode m) (.ofCode t)))
  | 11 => zeroed b (.vmv (st == 1) d a (.ofCode m) (.ofCode t))
  | 12 => typed (ETy.ofCode t).isI (.ok (.vand (st == 1) d a b (.ofCode m) (.ofCode t)))
  | 13 => typed (ETy.ofCode t).isI (.ok (.vor (st == 1) d a b (.ofCode m) (.ofCode t)))
  | 14 => typed (ETy.ofCode t).isI (.ok (.vxor (st == 1) d a b (.ofCode m) (.ofCode t)))
  | 15 => typed (ETy.ofCode t).isI (.ok (.vsll (st == 1) d a b (.ofCode m) (.ofCode t)))
  | 16 => typed (ETy.ofCode t).isI (.ok (.vsrl (st == 1) d a b (.ofCode m) (.ofCode t)))
  | 17 => typed (ETy.ofCode t).isI (.ok (.vsra (st == 1) d a b (.ofCode m) (.ofCode t)))
  | 18 => typed (ETy.ofCode t).isI (.ok (.vadds (st == 1) d a b (.ofCode m) (.ofCode t)))
  | 19 => typed (ETy.ofCode t).isI (.ok (.vsubs (st == 1) d a b (.ofCode m) (.ofCode t)))
  | 20 => typed (ETy.ofCode t).isI (.ok (.vmulh (st == 1) d a b (.ofCode m) (.ofCode t)))
  | 21 => typed (ETy.ofCode t).isI (zeroed b (.vclz (st == 1) d a (.ofCode m) (.ofCode t)))
  | 22 => typed (ETy.ofCode t).isI (zeroed b (.vpopc (st == 1) d a (.ofCode m) (.ofCode t)))
  | 23 => typed (ETy.ofCode t).isI (zeroed b (.vffs (st == 1) d a (.ofCode m) (.ofCode t)))
  | _ => .error .unassigned

/-- Major 0x11 (R86). -/
def decodeVFused (st d a b m t fn : Nat) : DecodeResult :=
  match fn with
  | 0 => typed (ETy.ofCode t).isF (.ok (.vfma (st == 1) d a b (.ofCode m) (.ofCode t)))
  | 1 => typed (ETy.ofCode t).isF (.ok (.vfms (st == 1) d a b (.ofCode m) (.ofCode t)))
  | 2 => typed (ETy.ofCode t).isF (.ok (.vfnma (st == 1) d a b (.ofCode m) (.ofCode t)))
  | 3 => typed (ETy.ofCode t).isF (.ok (.vfnms (st == 1) d a b (.ofCode m) (.ofCode t)))
  | _ => .error .unassigned

/-- Major 0x12 (R86). -/
def decodeVCompare (st d a b m t fn : Nat) : DecodeResult :=
  match fn with
  | 0 => typed (ETy.ofCode t).isFI (.ok (.vceq (st == 1) d a b (.ofCode m) (.ofCode t)))
  | 1 => typed (ETy.ofCode t).isFI (.ok (.vcne (st == 1) d a b (.ofCode m) (.ofCode t)))
  | 2 => typed (ETy.ofCode t).isFI (.ok (.vclt (st == 1) d a b (.ofCode m) (.ofCode t)))
  | 3 => typed (ETy.ofCode t).isFI (.ok (.vcle (st == 1) d a b (.ofCode m) (.ofCode t)))
  | 4 => typed (ETy.ofCode t).isI (.ok (.vcltu (st == 1) d a b (.ofCode m) (.ofCode t)))
  | 5 => typed (ETy.ofCode t).isI (.ok (.vcleu (st == 1) d a b (.ofCode m) (.ofCode t)))
  | 6 => typed (ETy.ofCode t).isF (.ok (.vcun (st == 1) d a b (.ofCode m) (.ofCode t)))
  | 7 => unmasked m (.ok (.vsel (st == 1) d a b (.ofCode t)))
  | _ => .error .unassigned

/-- Major 0x14 (R86). -/
def decodeVPermute (st d a b m t fn : Nat) : DecodeResult :=
  match fn with
  | 0 => unmasked m (zeroed b (.vcompress (st == 1) d a (.ofCode t)))
  | 1 => unmasked m (zeroed b (.vexpand (st == 1) d a (.ofCode t)))
  | 2 => .ok (.vperm (st == 1) d a b (.ofCode m) (.ofCode t))
  | 3 => .ok (.vslideup (st == 1) d a b (.ofCode m) (.ofCode t))
  | 4 => .ok (.vslidedn (st == 1) d a b (.ofCode m) (.ofCode t))
  | 5 => zeroed b (.vbcast (st == 1) d a (.ofCode m) (.ofCode t))
  | 6 => unmasked m (.ok (.vextr (st == 1) d a b (.ofCode t)))
  | 7 => typed (ETy.ofCode t).isI (zeroed (a + b) (.vidx (st == 1) d (.ofCode m) (.ofCode t)))
  | _ => .error .unassigned

/-- Major 0x15 (R86). -/
def decodeVReduce (st d a b m t fn : Nat) : DecodeResult :=
  match fn with
  | 0 => typed (ETy.ofCode t).isFI (zeroed b (.vredsum (st == 1) d a (.ofCode m) (.ofCode t)))
  | 1 => typed (ETy.ofCode t).isFI (zeroed b (.vredmax (st == 1) d a (.ofCode m) (.ofCode t)))
  | 2 => typed (ETy.ofCode t).isFI (zeroed b (.vredmin (st == 1) d a (.ofCode m) (.ofCode t)))
  | 3 => typed (ETy.ofCode t).isI (zeroed b (.vredand (st == 1) d a (.ofCode m) (.ofCode t)))
  | 4 => typed (ETy.ofCode t).isI (zeroed b (.vredor (st == 1) d a (.ofCode m) (.ofCode t)))
  | 5 => typed (ETy.ofCode t).isI (zeroed b (.vredxor (st == 1) d a (.ofCode m) (.ofCode t)))
  | _ => .error .unassigned

/-- Major 0x16 (R86). -/
def decodeVMask (st d a b m t fn : Nat) : DecodeResult :=
  match fn with
  | 0 => unmasked m (.ok (.vmand (st == 1) d a b (.ofCode t)))
  | 1 => unmasked m (.ok (.vmor (st == 1) d a b (.ofCode t)))
  | 2 => unmasked m (.ok (.vmxor (st == 1) d a b (.ofCode t)))
  | 3 => unmasked m (.ok (.vmandn (st == 1) d a b (.ofCode t)))
  | 4 => unmasked m (zeroed b (.vmnot (st == 1) d a (.ofCode t)))
  | 5 => unmasked m (zeroed b (.vmpopc (st == 1) d a (.ofCode t)))
  | 6 => unmasked m (zeroed b (.vmffs (st == 1) d a (.ofCode t)))
  | _ => .error .unassigned

/-- Major 0x13 (R86, R140). -/
def decodeVcvt (st d a b m t fn : Nat) : DecodeResult :=
  if 8 ≤ fn then .error .unassigned
  else if 8 ≤ b then .error .nonzeroField
  else if b = t then .error .equalTypes
  else .ok (.vcvt (st == 1) d a (.ofCode b) (.ofCode m) (.ofCode t) (.ofCode fn))

/-- Majors 0x18 to 0x20 (R75): `b` holds the size in bits 4:2 and the space in bits 1:0. -/
def decodeMem (st maj d a b x : Nat) : DecodeResult :=
  match maj with
  | 24 => (match b / 4 with
    | 0 => .ok (.ldb (st == 1) d a (.ofCode (b % 4)) x)
    | 1 => .ok (.ldh (st == 1) d a (.ofCode (b % 4)) x)
    | 2 => .ok (.ldw (st == 1) d a (.ofCode (b % 4)) x)
    | 3 => .ok (.ldd (st == 1) d a (.ofCode (b % 4)) x)
    | _ => .error .badSize)
  | 25 => (match b / 4 with
    | 0 => .ok (.ldbu (st == 1) d a (.ofCode (b % 4)) x)
    | 1 => .ok (.ldhu (st == 1) d a (.ofCode (b % 4)) x)
    | 2 => .ok (.ldwu (st == 1) d a (.ofCode (b % 4)) x)
    | _ => .error .badSize)
  | 26 => (match b / 4 with
    | 0 => .ok (.stb (st == 1) d a (.ofCode (b % 4)) x)
    | 1 => .ok (.sth (st == 1) d a (.ofCode (b % 4)) x)
    | 2 => .ok (.stw (st == 1) d a (.ofCode (b % 4)) x)
    | 3 => .ok (.std (st == 1) d a (.ofCode (b % 4)) x)
    | _ => .error .badSize)
  | 27 => (match b / 4 with
    | 7 => .ok (.vld (st == 1) d a (.ofCode (b % 4)) x)
    | _ => .error .badSize)
  | 28 => (match b / 4 with
    | 7 => .ok (.vst (st == 1) d a (.ofCode (b % 4)) x)
    | _ => .error .badSize)
  | 29 => if b / 4 ≠ 3 then .error .badSize else if b % 4 ≠ 3 then .error .badSpace else ends st (.ok (.ldf d a x))
  | 30 => if b / 4 ≠ 3 then .error .badSize else if b % 4 ≠ 3 then .error .badSpace else ends st (.ok (.ldfn d a x))
  | 31 => if b / 4 ≠ 3 then .error .badSize else if b % 4 ≠ 3 then .error .badSpace else ends st (.ok (.ste d a x))
  | 32 => if b / 4 ≠ 3 then .error .badSize else if b % 4 ≠ 3 then .error .badSpace else .ok (.stf (st == 1) d a x)
  | _ => .error .reservedMajor

/-- Major 0x21 (R87): `AMO`. -/
def decodeAmo (st d a b lo : Nat) : DecodeResult :=
  if lo % 4 ≠ 0 then .error .nonzeroField else
  inScope (lo / 4 % 8) (match lo / 64 with
    | 0 => ends st (.ok (.amoswap d a b (lo / 32 % 2 == 1) (.ofCode (lo / 4 % 8))))
    | 1 => ends st (.ok (.amocas d a b (lo / 32 % 2 == 1) (.ofCode (lo / 4 % 8))))
    | 2 => ends st (.ok (.amoadd d a b (lo / 32 % 2 == 1) (.ofCode (lo / 4 % 8))))
    | 3 => ends st (.ok (.amoand d a b (lo / 32 % 2 == 1) (.ofCode (lo / 4 % 8))))
    | 4 => ends st (.ok (.amoor d a b (lo / 32 % 2 == 1) (.ofCode (lo / 4 % 8))))
    | 5 => ends st (.ok (.amoxor d a b (lo / 32 % 2 == 1) (.ofCode (lo / 4 % 8))))
    | 6 => ends st (.ok (.amomin d a b (lo / 32 % 2 == 1) (.ofCode (lo / 4 % 8))))
    | 7 => ends st (.ok (.amomax d a b (lo / 32 % 2 == 1) (.ofCode (lo / 4 % 8))))
    | 8 => ends st (.ok (.amominu d a b (lo / 32 % 2 == 1) (.ofCode (lo / 4 % 8))))
    | 9 => ends st (.ok (.amomaxu d a b (lo / 32 % 2 == 1) (.ofCode (lo / 4 % 8))))
    | _ => .error .unassigned)

/-- Major 0x22 (R87): reductions and XA words. -/
def decodeRed (st d a b lo : Nat) : DecodeResult :=
  match lo / 64 with
  | 0 => if lo % 4 ≠ 0 then .error .nonzeroField else inScope (lo / 4 % 8) (zeroed d (.redadd (st == 1) a b (lo / 32 % 2 == 1) (.ofCode (lo / 4 % 8))))
  | 1 => if lo % 4 ≠ 0 then .error .nonzeroField else inScope (lo / 4 % 8) (zeroed d (.redand (st == 1) a b (lo / 32 % 2 == 1) (.ofCode (lo / 4 % 8))))
  | 2 => if lo % 4 ≠ 0 then .error .nonzeroField else inScope (lo / 4 % 8) (zeroed d (.redor (st == 1) a b (lo / 32 % 2 == 1) (.ofCode (lo / 4 % 8))))
  | 3 => if lo % 4 ≠ 0 then .error .nonzeroField else inScope (lo / 4 % 8) (zeroed d (.redxor (st == 1) a b (lo / 32 % 2 == 1) (.ofCode (lo / 4 % 8))))
  | 4 => if lo % 4 ≠ 0 then .error .nonzeroField else inScope (lo / 4 % 8) (zeroed d (.redmin (st == 1) a b (lo / 32 % 2 == 1) (.ofCode (lo / 4 % 8))))
  | 5 => if lo % 4 ≠ 0 then .error .nonzeroField else inScope (lo / 4 % 8) (zeroed d (.redmax (st == 1) a b (lo / 32 % 2 == 1) (.ofCode (lo / 4 % 8))))
  | 6 => if lo % 4 ≠ 0 then .error .nonzeroField else inScope (lo / 4 % 8) (zeroed d (.redminu (st == 1) a b (lo / 32 % 2 == 1) (.ofCode (lo / 4 % 8))))
  | 7 => if lo % 4 ≠ 0 then .error .nonzeroField else inScope (lo / 4 % 8) (zeroed d (.redmaxu (st == 1) a b (lo / 32 % 2 == 1) (.ofCode (lo / 4 % 8))))
  | 8 => if lo % 4 ≠ 0 ∨ lo / 32 % 2 ≠ 0 then .error .nonzeroField else inScope (lo / 4 % 8) (zeroed d (.redfmin (st == 1) a b (.ofCode (lo / 4 % 8))))
  | 9 => if lo % 4 ≠ 0 ∨ lo / 32 % 2 ≠ 0 then .error .nonzeroField else inScope (lo / 4 % 8) (zeroed d (.redfmax (st == 1) a b (.ofCode (lo / 4 % 8))))
  | 10 => if lo / 32 % 2 ≠ 0 then .error .nonzeroField else inScope (lo / 4 % 8) (zeroed d (.xaadd (st == 1) a b (.ofCode (lo / 4 % 8)) (.ofCode (lo % 4))))
  | 11 => if lo % 4 ≠ 0 then .error .nonzeroField else zeroed b (.xard (st == 1) d a (.ofCode (lo / 8 % 8)) (lo / 4 % 2 == 1))
  | _ => .error .unassigned

/-- Major 0x23 (R87, R158). -/
def decodeSync (st d a b lo : Nat) : DecodeResult :=
  match lo / 16 with
  | 0 => if lo % 16 ≠ 0 then .error .nonzeroField else zeroed (d + b) (.lease (st == 1) a)
  | 1 => ends st (if lo % 16 ≠ 0 then .error .nonzeroField else zeroed (d + a + b) (.lrel))
  | 2 => if lo % 2 ≠ 0 then .error .nonzeroField else inScope (lo / 2 % 8) (zeroed (d + a + b) (.fence (st == 1) (.ofCode (lo / 2 % 8))))
  | 3 => if lo % 16 ≠ 0 then .error .nonzeroField else zeroed (d + b) (.barv (st == 1) a)
  | 4 => if lo % 16 ≠ 0 then .error .nonzeroField else zeroed d (.barvx (st == 1) a b)
  | 5 => ends st (if lo % 16 ≠ 0 then .error .nonzeroField else zeroed d (.bwait a b))
  | 6 => ends st (if lo % 16 ≠ 0 then .error .nonzeroField else zeroed d (.tlwait a b))
  | 7 => if lo % 16 ≠ 0 then .error .nonzeroField else zeroed d (.ttdef (st == 1) a b)
  | 8 => ends st (if lo % 16 ≠ 0 then .error .nonzeroField else zeroed (d + b) (.ttwait a))
  | 9 => if lo % 16 ≠ 0 then .error .nonzeroField else zeroed (d + b) (.ttrel (st == 1) a)
  | _ => .error .unassigned

/-- Major 0x28 (R87, R240). -/
def decodeMatrix (st d a b lo : Nat) : DecodeResult :=
  match lo / 16 with
  | 0 => if lo % 16 ≠ 0 then .error .nonzeroField else zeroed b (.mturn (st == 1) d a)
  | 1 => if lo % 16 ≠ 0 then .error .nonzeroField else zeroed (a + b) (.mtend (st == 1) d)
  | 2 => if lo % 16 ≠ 0 then .error .nonzeroField else .ok (.mringcfg (st == 1) d a b)
  | 3 => if lo % 16 ≠ 0 then .error .nonzeroField else .ok (.mringadv (st == 1) d a b)
  | 4 => if lo % 16 ≠ 0 then .error .nonzeroField else zeroed b (.mzero (st == 1) d a)
  | 5 => if lo % 16 ≥ 2 then .error .nonzeroField else .ok (.mma (st == 1) d a b (lo % 2 == 1))
  | 6 => if lo % 16 ≠ 0 then .error .nonzeroField else .ok (.mmax (st == 1) d a b)
  | 7 => if lo % 16 ≠ 0 then .error .nonzeroField else .ok (.mrec (st == 1) d a b)
  | 8 => if lo % 16 ≠ 0 then .error .nonzeroField else zeroed b (.mldprog (st == 1) d a)
  | 9 => if lo % 16 ≥ 2 then .error .nonzeroField else .ok (.maccrd (st == 1) d a b (lo % 2 == 1))
  | 10 => if lo % 16 ≠ 0 then .error .nonzeroField else .ok (.maccwr (st == 1) d a b)
  | 11 => if lo % 16 ≥ 4 then .error .nonzeroField else zeroed b (.mstat (st == 1) d a (lo % 4))
  | _ => .error .unassigned

/-- Major 0x29 (R87, R206). -/
def decodeSluice (st d a b lo : Nat) : DecodeResult :=
  match lo / 16 with
  | 0 => zeroed b (.scopy (st == 1) d a (lo % 16))
  | 1 => zeroed b (.scopy2d (st == 1) d a (lo % 16))
  | 2 => zeroed b (.sfill (st == 1) d a (lo % 16))
  | 3 => zeroed b (.scvt (st == 1) d a (lo % 16))
  | 4 => zeroed b (.shint (st == 1) d a (lo % 16))
  | 5 => zeroed b (.sqcfg (st == 1) d a (lo % 16))
  | 6 => if b = 0 then .ok (.sqstat (st == 1) d a (lo % 16)) else zeroed (lo % 16) (.sqstatNamed (st == 1) d a b)
  | 7 => zeroed (a + b) (.sqrst (st == 1) d (lo % 16))
  | _ => .error .unassigned

/-- Major 0x2A (R87, R265). -/
def decodeComposer (st d a b lo : Nat) : DecodeResult :=
  match lo / 16 with
  | 0 => if lo % 16 ≠ 0 then .error .nonzeroField else zeroed b (.cdef (st == 1) d a)
  | 1 => if lo % 16 ≠ 0 then .error .nonzeroField else zeroed b (.crsz (st == 1) d a)
  | 2 => if lo % 16 ≠ 0 then .error .nonzeroField else .ok (.cflush (st == 1) d a b)
  | 3 => if lo % 16 ≠ 0 then .error .nonzeroField else .ok (.cinval (st == 1) d a b)
  | 4 => if lo % 16 ≥ 4 then .error .nonzeroField else .ok (.cquery (st == 1) d a b (lo % 4))
  | 5 => if lo % 16 ≠ 0 then .error .nonzeroField else .ok (.cplace (st == 1) d a b)
  | 6 => if lo % 16 ≠ 0 then .error .nonzeroField else zeroed b (.cdrop (st == 1) d a)
  | _ => .error .unassigned

/-- Major 0x2B (R87, R292). -/
def decodeMapping (st d a b lo : Nat) : DecodeResult :=
  match lo / 16 with
  | 0 => if lo % 16 ≠ 0 then .error .nonzeroField else zeroed b (.map (st == 1) d a)
  | 1 => if lo % 16 ≠ 0 then .error .nonzeroField else zeroed b (.grant (st == 1) d a)
  | 2 => if lo % 16 ≠ 0 then .error .nonzeroField else .ok (.unmap (st == 1) d a b)
  | 3 => if lo % 16 ≠ 0 then .error .nonzeroField else .ok (.unmapx (st == 1) d a b)
  | 4 => if lo % 16 ≠ 0 then .error .nonzeroField else zeroed b (.send (st == 1) d a)
  | 5 => ends st (if lo % 16 ≥ 2 then .error .nonzeroField else zeroed d (.recv a b (lo % 2 == 1)))
  | 6 => ends st (if lo % 16 ≠ 0 then .error .nonzeroField else zeroed d (.call a b))
  | 7 => if lo % 16 ≠ 0 then .error .nonzeroField else zeroed b (.reply (st == 1) d a)
  | 8 => if lo % 16 ≠ 0 then .error .nonzeroField else zeroed b (.epdrop (st == 1) d a)
  | 9 => if lo % 16 ≠ 0 then .error .nonzeroField else zeroed b (.epinfo (st == 1) d a)
  | 10 => if lo % 16 ≠ 0 then .error .nonzeroField else .ok (.chbind (st == 1) d a b)
  | 11 => if lo % 16 ≥ 4 then .error .nonzeroField else .ok (.mquery (st == 1) d a b (lo % 4))
  | _ => .error .unassigned

/-- Major 0x2C (R87, R322). -/
def decodeWharf (st d a b lo : Nat) : DecodeResult :=
  match lo / 16 with
  | 0 => if lo % 16 ≠ 0 then .error .nonzeroField else zeroed (d + b) (.spawn (st == 1) a)
  | 1 => if lo % 16 ≠ 0 then .error .nonzeroField else zeroed (d + b) (.spawng (st == 1) a)
  | 2 => if lo % 16 ≠ 0 then .error .nonzeroField else zeroed (d + b) (.pdec (st == 1) a)
  | 3 => if lo % 16 ≠ 0 then .error .nonzeroField else zeroed (d + b) (.chpri (st == 1) a)
  | 4 => ends st (if lo % 16 ≠ 0 then .error .nonzeroField else zeroed (d + a + b) (.endOp))
  | 5 => if lo % 16 ≠ 0 then .error .nonzeroField else zeroed b (.ginfo (st == 1) d a)
  | 6 => if lo % 16 ≠ 0 then .error .nonzeroField else zeroed (d + b) (.affin (st == 1) a)
  | 7 => if lo % 16 ≥ 4 then .error .nonzeroField else zeroed b (.wstat (st == 1) d a (lo % 4))
  | _ => .error .unassigned

/-- Major 0x2D (R87, R108, R125, R126, R191, R192). -/
def decodeSystem (st d a b lo : Nat) : DecodeResult :=
  match lo / 16 with
  | 0 => if lo % 16 ≠ 0 then .error .nonzeroField else zeroed b (.setshp (st == 1) d a)
  | 1 => ends st (if lo % 16 ≠ 0 then .error .nonzeroField else zeroed (d + a + b) (.ckpt))
  | 2 => ends st (if lo % 16 ≠ 0 then .error .nonzeroField else zeroed (d + a + b) (.yield))
  | 3 => ends st (zeroed d (.trap a b (lo % 16)))
  | 4 => ends st (if lo % 16 ≠ 0 then .error .nonzeroField else zeroed (d + a + b) (.bkpt))
  | _ => .error .unassigned

/-- The opcode map (R83). -/
def decodeFields (f : Fields) : DecodeResult :=
  match f with
  | ⟨st, maj, d, a, b, lo⟩ =>
    match maj with
    | 0x01 => decodeAlu st d a b lo
    | 2 => .ok (.addi (st == 1) d a (b * 1024 + lo))
    | 3 => .ok (.andi (st == 1) d a (b * 1024 + lo))
    | 4 => .ok (.ori (st == 1) d a (b * 1024 + lo))
    | 5 => .ok (.xori (st == 1) d a (b * 1024 + lo))
    | 6 => .ok (.slti (st == 1) d a (b * 1024 + lo))
    | 7 => .ok (.sltiu (st == 1) d a (b * 1024 + lo))
    | 0x08 => decodeShiftImm st d a (b * 1024 + lo)
    | 0x09 => .ok (.lui (st == 1) d (a * 32768 + b * 1024 + lo))
    | 0x0A => .ok (.addpc (st == 1) d (a * 32768 + b * 1024 + lo))
    | 0x0B => decodeBranch st d (a / 4) (a % 4 * 32768 + b * 1024 + lo)
    | 0x0C => ends st (.ok (.j (d * 1048576 + a * 32768 + b * 1024 + lo)))
    | 0x0D => ends st (.ok (.jl (d * 1048576 + a * 32768 + b * 1024 + lo)))
    | 0x0E => ends st (.ok (.jlr d a (b * 1024 + lo)))
    | 0x0F => decodeSys st d a (b / 4) (b % 4 * 1024 + lo)
    | 16 => decodeVArith st d a b (lo / 256) (lo / 32 % 8) (lo % 32)
    | 17 => decodeVFused st d a b (lo / 256) (lo / 32 % 8) (lo % 32)
    | 18 => decodeVCompare st d a b (lo / 256) (lo / 32 % 8) (lo % 32)
    | 19 => decodeVcvt st d a b (lo / 256) (lo / 32 % 8) (lo % 32)
    | 20 => decodeVPermute st d a b (lo / 256) (lo / 32 % 8) (lo % 32)
    | 21 => decodeVReduce st d a b (lo / 256) (lo / 32 % 8) (lo % 32)
    | 22 => decodeVMask st d a b (lo / 256) (lo / 32 % 8) (lo % 32)
    | 24 => decodeMem st 24 d a b lo
    | 25 => decodeMem st 25 d a b lo
    | 26 => decodeMem st 26 d a b lo
    | 27 => decodeMem st 27 d a b lo
    | 28 => decodeMem st 28 d a b lo
    | 29 => decodeMem st 29 d a b lo
    | 30 => decodeMem st 30 d a b lo
    | 31 => decodeMem st 31 d a b lo
    | 32 => decodeMem st 32 d a b lo
    | 0x21 => decodeAmo st d a b lo
    | 0x22 => decodeRed st d a b lo
    | 35 => decodeSync st d a b lo
    | 40 => decodeMatrix st d a b lo
    | 41 => decodeSluice st d a b lo
    | 42 => decodeComposer st d a b lo
    | 43 => decodeMapping st d a b lo
    | 44 => decodeWharf st d a b lo
    | 45 => decodeSystem st d a b lo
    | 0x3E => ends st (.ok (.rpt d (a / 2) (a % 2 * 8 + b / 4) (b % 4 * 4 + lo / 256) (lo / 16 % 16) (lo % 16)))
    | 0x3F => if st = 0 then .ok (.pfx (d * 1048576 + a * 32768 + b * 1024 + lo)) else .error .prefixStop
    | _ => .error .reservedMajor

/-- The instruction of a 32-bit word. -/
def decode32 (w : Nat) : DecodeResult := decodeFields (Fields.unpack w)

/-- The little-endian value of a list of bytes (R1). -/
def leNat : List Byte → Nat
  | [] => 0
  | x :: xs => x.toNat + 256 * leNat xs

/-- The instruction of the first four bytes of a byte list, with the rest of the list (R67). -/
def decodeBytes : List Byte → Except Illegal (Instr × List Byte)
  | b0 :: b1 :: b2 :: b3 :: rest =>
    match decode32 (leNat [b0, b1, b2, b3]) with
    | .ok i => .ok (i, rest)
    | .error e => .error e
  | _ => .error .tooShort

/-- The four bytes of a word, lowest address first (R67). -/
def wordBytes (w : Nat) : List Byte :=
  [BitVec.ofNat 8 w, BitVec.ofNat 8 (w / 256), BitVec.ofNat 8 (w / 65536), BitVec.ofNat 8 (w / 16777216)]

/-- What this decoder reads from a table word of `nbits` bits: its bytes laid out as the hardware stores them. -/
def decodeTableWord (nbits w : Nat) : Option Instr :=
  if nbits ≤ 32 && w < 2 ^ nbits then
    match decodeBytes (wordBytes w) with
    | .ok (i, _) => some i
    | .error _ => none
  else none

/-- The six fields of an instruction's word; an event has no word, and is given the reserved all-zero fields. -/
def encodeFields : Instr → Fields
  | .add st d a b => ⟨st.toNat, 1, d, a, b, 0⟩
  | .sub st d a b => ⟨st.toNat, 1, d, a, b, 1⟩
  | .and st d a b => ⟨st.toNat, 1, d, a, b, 2⟩
  | .or st d a b => ⟨st.toNat, 1, d, a, b, 3⟩
  | .xor st d a b => ⟨st.toNat, 1, d, a, b, 4⟩
  | .andn st d a b => ⟨st.toNat, 1, d, a, b, 5⟩
  | .orn st d a b => ⟨st.toNat, 1, d, a, b, 6⟩
  | .sll st d a b => ⟨st.toNat, 1, d, a, b, 8⟩
  | .srl st d a b => ⟨st.toNat, 1, d, a, b, 9⟩
  | .sra st d a b => ⟨st.toNat, 1, d, a, b, 10⟩
  | .rol st d a b => ⟨st.toNat, 1, d, a, b, 11⟩
  | .ror st d a b => ⟨st.toNat, 1, d, a, b, 12⟩
  | .slt st d a b => ⟨st.toNat, 1, d, a, b, 16⟩
  | .sltu st d a b => ⟨st.toNat, 1, d, a, b, 17⟩
  | .seq st d a b => ⟨st.toNat, 1, d, a, b, 18⟩
  | .sne st d a b => ⟨st.toNat, 1, d, a, b, 19⟩
  | .min st d a b => ⟨st.toNat, 1, d, a, b, 20⟩
  | .max st d a b => ⟨st.toNat, 1, d, a, b, 21⟩
  | .minu st d a b => ⟨st.toNat, 1, d, a, b, 22⟩
  | .maxu st d a b => ⟨st.toNat, 1, d, a, b, 23⟩
  | .mul st d a b => ⟨st.toNat, 1, d, a, b, 32⟩
  | .mulh st d a b => ⟨st.toNat, 1, d, a, b, 33⟩
  | .mulhu st d a b => ⟨st.toNat, 1, d, a, b, 34⟩
  | .mulhsu st d a b => ⟨st.toNat, 1, d, a, b, 35⟩
  | .div st d a b => ⟨st.toNat, 1, d, a, b, 36⟩
  | .divu st d a b => ⟨st.toNat, 1, d, a, b, 37⟩
  | .rem st d a b => ⟨st.toNat, 1, d, a, b, 38⟩
  | .remu st d a b => ⟨st.toNat, 1, d, a, b, 39⟩
  | .clz st d a => ⟨st.toNat, 1, d, a, 0, 64⟩
  | .ctz st d a => ⟨st.toNat, 1, d, a, 0, 65⟩
  | .popc st d a => ⟨st.toNat, 1, d, a, 0, 66⟩
  | .ffs st d a => ⟨st.toNat, 1, d, a, 0, 67⟩
  | .brev st d a => ⟨st.toNat, 1, d, a, 0, 68⟩
  | .bswap st d a => ⟨st.toNat, 1, d, a, 0, 69⟩
  | .sxb st d a => ⟨st.toNat, 1, d, a, 0, 70⟩
  | .sxh st d a => ⟨st.toNat, 1, d, a, 0, 71⟩
  | .sxw st d a => ⟨st.toNat, 1, d, a, 0, 72⟩
  | .zxb st d a => ⟨st.toNat, 1, d, a, 0, 73⟩
  | .zxh st d a => ⟨st.toNat, 1, d, a, 0, 74⟩
  | .zxw st d a => ⟨st.toNat, 1, d, a, 0, 75⟩
  | .addi st d a i => ⟨st.toNat, 2, d, a, i / 1024, i % 1024⟩
  | .andi st d a i => ⟨st.toNat, 3, d, a, i / 1024, i % 1024⟩
  | .ori st d a i => ⟨st.toNat, 4, d, a, i / 1024, i % 1024⟩
  | .xori st d a i => ⟨st.toNat, 5, d, a, i / 1024, i % 1024⟩
  | .slti st d a i => ⟨st.toNat, 6, d, a, i / 1024, i % 1024⟩
  | .sltiu st d a i => ⟨st.toNat, 7, d, a, i / 1024, i % 1024⟩
  | .slli st d a c => ⟨st.toNat, 8, d, a, 0, c⟩
  | .srli st d a c => ⟨st.toNat, 8, d, a, 0, 64 + c⟩
  | .srai st d a c => ⟨st.toNat, 8, d, a, 0, 128 + c⟩
  | .rori st d a c => ⟨st.toNat, 8, d, a, 0, 192 + c⟩
  | .lui st d i => ⟨st.toNat, 9, d, i / 32768, i / 1024 % 32, i % 1024⟩
  | .addpc st d i => ⟨st.toNat, 10, d, i / 32768, i / 1024 % 32, i % 1024⟩
  | .beqz a x => ⟨1, 11, a, 0 + x / 32768, x / 1024 % 32, x % 1024⟩
  | .bnez a x => ⟨1, 11, a, 4 + x / 32768, x / 1024 % 32, x % 1024⟩
  | .bltz a x => ⟨1, 11, a, 8 + x / 32768, x / 1024 % 32, x % 1024⟩
  | .bgez a x => ⟨1, 11, a, 12 + x / 32768, x / 1024 % 32, x % 1024⟩
  | .bgtz a x => ⟨1, 11, a, 16 + x / 32768, x / 1024 % 32, x % 1024⟩
  | .blez a x => ⟨1, 11, a, 20 + x / 32768, x / 1024 % 32, x % 1024⟩
  | .bodd a x => ⟨1, 11, a, 24 + x / 32768, x / 1024 % 32, x % 1024⟩
  | .j x => ⟨1, 12, x / 1048576, x / 32768 % 32, x / 1024 % 32, x % 1024⟩
  | .jl x => ⟨1, 13, x / 1048576, x / 32768 % 32, x / 1024 % 32, x % 1024⟩
  | .jlr d a i => ⟨1, 14, d, a, i / 1024, i % 1024⟩
  | .srd st d n => ⟨st.toNat, 15, d, 0, n / 1024, n % 1024⟩
  | .swr st a n => ⟨st.toNat, 15, 0, a, 4 + n / 1024, n % 1024⟩
  | .srset st d a n => ⟨st.toNat, 15, d, a, 8 + n / 1024, n % 1024⟩
  | .srclr st d a n => ⟨st.toNat, 15, d, a, 12 + n / 1024, n % 1024⟩
  | .vadd st d a b m t => ⟨st.toNat, 16, d, a, b, m.code * 256 + t.code * 32⟩
  | .vsub st d a b m t => ⟨st.toNat, 16, d, a, b, 1 + m.code * 256 + t.code * 32⟩
  | .vmul st d a b m t => ⟨st.toNat, 16, d, a, b, 2 + m.code * 256 + t.code * 32⟩
  | .vdiv st d a b m t => ⟨st.toNat, 16, d, a, b, 3 + m.code * 256 + t.code * 32⟩
  | .vmin st d a b m t => ⟨st.toNat, 16, d, a, b, 4 + m.code * 256 + t.code * 32⟩
  | .vmax st d a b m t => ⟨st.toNat, 16, d, a, b, 5 + m.code * 256 + t.code * 32⟩
  | .vsqrt st d a m t => ⟨st.toNat, 16, d, a, 0, 6 + m.code * 256 + t.code * 32⟩
  | .vexp2 st d a m t => ⟨st.toNat, 16, d, a, 0, 7 + m.code * 256 + t.code * 32⟩
  | .vlog2 st d a m t => ⟨st.toNat, 16, d, a, 0, 8 + m.code * 256 + t.code * 32⟩
  | .vabs st d a m t => ⟨st.toNat, 16, d, a, 0, 9 + m.code * 256 + t.code * 32⟩
  | .vneg st d a m t => ⟨st.toNat, 16, d, a, 0, 10 + m.code * 256 + t.code * 32⟩
  | .vmv st d a m t => ⟨st.toNat, 16, d, a, 0, 11 + m.code * 256 + t.code * 32⟩
  | .vand st d a b m t => ⟨st.toNat, 16, d, a, b, 12 + m.code * 256 + t.code * 32⟩
  | .vor st d a b m t => ⟨st.toNat, 16, d, a, b, 13 + m.code * 256 + t.code * 32⟩
  | .vxor st d a b m t => ⟨st.toNat, 16, d, a, b, 14 + m.code * 256 + t.code * 32⟩
  | .vsll st d a b m t => ⟨st.toNat, 16, d, a, b, 15 + m.code * 256 + t.code * 32⟩
  | .vsrl st d a b m t => ⟨st.toNat, 16, d, a, b, 16 + m.code * 256 + t.code * 32⟩
  | .vsra st d a b m t => ⟨st.toNat, 16, d, a, b, 17 + m.code * 256 + t.code * 32⟩
  | .vadds st d a b m t => ⟨st.toNat, 16, d, a, b, 18 + m.code * 256 + t.code * 32⟩
  | .vsubs st d a b m t => ⟨st.toNat, 16, d, a, b, 19 + m.code * 256 + t.code * 32⟩
  | .vmulh st d a b m t => ⟨st.toNat, 16, d, a, b, 20 + m.code * 256 + t.code * 32⟩
  | .vclz st d a m t => ⟨st.toNat, 16, d, a, 0, 21 + m.code * 256 + t.code * 32⟩
  | .vpopc st d a m t => ⟨st.toNat, 16, d, a, 0, 22 + m.code * 256 + t.code * 32⟩
  | .vffs st d a m t => ⟨st.toNat, 16, d, a, 0, 23 + m.code * 256 + t.code * 32⟩
  | .vfma st d a b m t => ⟨st.toNat, 17, d, a, b, m.code * 256 + t.code * 32⟩
  | .vfms st d a b m t => ⟨st.toNat, 17, d, a, b, 1 + m.code * 256 + t.code * 32⟩
  | .vfnma st d a b m t => ⟨st.toNat, 17, d, a, b, 2 + m.code * 256 + t.code * 32⟩
  | .vfnms st d a b m t => ⟨st.toNat, 17, d, a, b, 3 + m.code * 256 + t.code * 32⟩
  | .vceq st d a b m t => ⟨st.toNat, 18, d, a, b, m.code * 256 + t.code * 32⟩
  | .vcne st d a b m t => ⟨st.toNat, 18, d, a, b, 1 + m.code * 256 + t.code * 32⟩
  | .vclt st d a b m t => ⟨st.toNat, 18, d, a, b, 2 + m.code * 256 + t.code * 32⟩
  | .vcle st d a b m t => ⟨st.toNat, 18, d, a, b, 3 + m.code * 256 + t.code * 32⟩
  | .vcltu st d a b m t => ⟨st.toNat, 18, d, a, b, 4 + m.code * 256 + t.code * 32⟩
  | .vcleu st d a b m t => ⟨st.toNat, 18, d, a, b, 5 + m.code * 256 + t.code * 32⟩
  | .vcun st d a b m t => ⟨st.toNat, 18, d, a, b, 6 + m.code * 256 + t.code * 32⟩
  | .vsel st d a b t => ⟨st.toNat, 18, d, a, b, 7 + t.code * 32⟩
  | .vcvt st d a u m t r => ⟨st.toNat, 19, d, a, u.code, m.code * 256 + t.code * 32 + r.code⟩
  | .vcompress st d a t => ⟨st.toNat, 20, d, a, 0, t.code * 32⟩
  | .vexpand st d a t => ⟨st.toNat, 20, d, a, 0, 1 + t.code * 32⟩
  | .vperm st d a b m t => ⟨st.toNat, 20, d, a, b, 2 + m.code * 256 + t.code * 32⟩
  | .vslideup st d a b m t => ⟨st.toNat, 20, d, a, b, 3 + m.code * 256 + t.code * 32⟩
  | .vslidedn st d a b m t => ⟨st.toNat, 20, d, a, b, 4 + m.code * 256 + t.code * 32⟩
  | .vbcast st d a m t => ⟨st.toNat, 20, d, a, 0, 5 + m.code * 256 + t.code * 32⟩
  | .vextr st d a b t => ⟨st.toNat, 20, d, a, b, 6 + t.code * 32⟩
  | .vidx st d m t => ⟨st.toNat, 20, d, 0, 0, 7 + m.code * 256 + t.code * 32⟩
  | .vredsum st d a m t => ⟨st.toNat, 21, d, a, 0, m.code * 256 + t.code * 32⟩
  | .vredmax st d a m t => ⟨st.toNat, 21, d, a, 0, 1 + m.code * 256 + t.code * 32⟩
  | .vredmin st d a m t => ⟨st.toNat, 21, d, a, 0, 2 + m.code * 256 + t.code * 32⟩
  | .vredand st d a m t => ⟨st.toNat, 21, d, a, 0, 3 + m.code * 256 + t.code * 32⟩
  | .vredor st d a m t => ⟨st.toNat, 21, d, a, 0, 4 + m.code * 256 + t.code * 32⟩
  | .vredxor st d a m t => ⟨st.toNat, 21, d, a, 0, 5 + m.code * 256 + t.code * 32⟩
  | .vmand st d a b t => ⟨st.toNat, 22, d, a, b, t.code * 32⟩
  | .vmor st d a b t => ⟨st.toNat, 22, d, a, b, 1 + t.code * 32⟩
  | .vmxor st d a b t => ⟨st.toNat, 22, d, a, b, 2 + t.code * 32⟩
  | .vmandn st d a b t => ⟨st.toNat, 22, d, a, b, 3 + t.code * 32⟩
  | .vmnot st d a t => ⟨st.toNat, 22, d, a, 0, 4 + t.code * 32⟩
  | .vmpopc st d a t => ⟨st.toNat, 22, d, a, 0, 5 + t.code * 32⟩
  | .vmffs st d a t => ⟨st.toNat, 22, d, a, 0, 6 + t.code * 32⟩
  | .ldb st d b spc x => ⟨st.toNat, 24, d, b, 0 + spc.code, x⟩
  | .ldh st d b spc x => ⟨st.toNat, 24, d, b, 4 + spc.code, x⟩
  | .ldw st d b spc x => ⟨st.toNat, 24, d, b, 8 + spc.code, x⟩
  | .ldd st d b spc x => ⟨st.toNat, 24, d, b, 12 + spc.code, x⟩
  | .ldbu st d b spc x => ⟨st.toNat, 25, d, b, 0 + spc.code, x⟩
  | .ldhu st d b spc x => ⟨st.toNat, 25, d, b, 4 + spc.code, x⟩
  | .ldwu st d b spc x => ⟨st.toNat, 25, d, b, 8 + spc.code, x⟩
  | .stb st d b spc x => ⟨st.toNat, 26, d, b, 0 + spc.code, x⟩
  | .sth st d b spc x => ⟨st.toNat, 26, d, b, 4 + spc.code, x⟩
  | .stw st d b spc x => ⟨st.toNat, 26, d, b, 8 + spc.code, x⟩
  | .std st d b spc x => ⟨st.toNat, 26, d, b, 12 + spc.code, x⟩
  | .vld st d b spc x => ⟨st.toNat, 27, d, b, 28 + spc.code, x⟩
  | .vst st d b spc x => ⟨st.toNat, 28, d, b, 28 + spc.code, x⟩
  | .ldf d b x => ⟨1, 29, d, b, 15, x⟩
  | .ldfn d b x => ⟨1, 30, d, b, 15, x⟩
  | .ste d b x => ⟨1, 31, d, b, 15, x⟩
  | .stf st d b x => ⟨st.toNat, 32, d, b, 15, x⟩
  | .amoswap d a b z sc => ⟨1, 33, d, a, b, z.toNat * 32 + sc.code * 4⟩
  | .amocas d a b z sc => ⟨1, 33, d, a, b, 64 + z.toNat * 32 + sc.code * 4⟩
  | .amoadd d a b z sc => ⟨1, 33, d, a, b, 128 + z.toNat * 32 + sc.code * 4⟩
  | .amoand d a b z sc => ⟨1, 33, d, a, b, 192 + z.toNat * 32 + sc.code * 4⟩
  | .amoor d a b z sc => ⟨1, 33, d, a, b, 256 + z.toNat * 32 + sc.code * 4⟩
  | .amoxor d a b z sc => ⟨1, 33, d, a, b, 320 + z.toNat * 32 + sc.code * 4⟩
  | .amomin d a b z sc => ⟨1, 33, d, a, b, 384 + z.toNat * 32 + sc.code * 4⟩
  | .amomax d a b z sc => ⟨1, 33, d, a, b, 448 + z.toNat * 32 + sc.code * 4⟩
  | .amominu d a b z sc => ⟨1, 33, d, a, b, 512 + z.toNat * 32 + sc.code * 4⟩
  | .amomaxu d a b z sc => ⟨1, 33, d, a, b, 576 + z.toNat * 32 + sc.code * 4⟩
  | .redadd st a b z sc => ⟨st.toNat, 34, 0, a, b, z.toNat * 32 + sc.code * 4⟩
  | .redand st a b z sc => ⟨st.toNat, 34, 0, a, b, 64 + z.toNat * 32 + sc.code * 4⟩
  | .redor st a b z sc => ⟨st.toNat, 34, 0, a, b, 128 + z.toNat * 32 + sc.code * 4⟩
  | .redxor st a b z sc => ⟨st.toNat, 34, 0, a, b, 192 + z.toNat * 32 + sc.code * 4⟩
  | .redmin st a b z sc => ⟨st.toNat, 34, 0, a, b, 256 + z.toNat * 32 + sc.code * 4⟩
  | .redmax st a b z sc => ⟨st.toNat, 34, 0, a, b, 320 + z.toNat * 32 + sc.code * 4⟩
  | .redminu st a b z sc => ⟨st.toNat, 34, 0, a, b, 384 + z.toNat * 32 + sc.code * 4⟩
  | .redmaxu st a b z sc => ⟨st.toNat, 34, 0, a, b, 448 + z.toNat * 32 + sc.code * 4⟩
  | .redfmin st a b sc => ⟨st.toNat, 34, 0, a, b, 512 + sc.code * 4⟩
  | .redfmax st a b sc => ⟨st.toNat, 34, 0, a, b, 576 + sc.code * 4⟩
  | .xaadd st a b sc t => ⟨st.toNat, 34, 0, a, b, 640 + sc.code * 4 + t.code⟩
  | .xard st d a r f => ⟨st.toNat, 34, d, a, 0, 704 + r.code * 8 + f.toNat * 4⟩
  | .lease st a => ⟨st.toNat, 35, 0, a, 0, 0⟩
  | .lrel => ⟨1, 35, 0, 0, 0, 16⟩
  | .fence st sc => ⟨st.toNat, 35, 0, 0, 0, 32 + sc.code * 2⟩
  | .barv st a => ⟨st.toNat, 35, 0, a, 0, 48⟩
  | .barvx st a b => ⟨st.toNat, 35, 0, a, b, 64⟩
  | .bwait a b => ⟨1, 35, 0, a, b, 80⟩
  | .tlwait a b => ⟨1, 35, 0, a, b, 96⟩
  | .ttdef st a b => ⟨st.toNat, 35, 0, a, b, 112⟩
  | .ttwait a => ⟨1, 35, 0, a, 0, 128⟩
  | .ttrel st a => ⟨st.toNat, 35, 0, a, 0, 144⟩
  | .mturn st d a => ⟨st.toNat, 40, d, a, 0, 0⟩
  | .mtend st d => ⟨st.toNat, 40, d, 0, 0, 16⟩
  | .mringcfg st d a b => ⟨st.toNat, 40, d, a, b, 32⟩
  | .mringadv st d a b => ⟨st.toNat, 40, d, a, b, 48⟩
  | .mzero st d a => ⟨st.toNat, 40, d, a, 0, 64⟩
  | .mma st d a b o => ⟨st.toNat, 40, d, a, b, 80 + o.toNat⟩
  | .mmax st d a b => ⟨st.toNat, 40, d, a, b, 96⟩
  | .mrec st d a b => ⟨st.toNat, 40, d, a, b, 112⟩
  | .mldprog st d a => ⟨st.toNat, 40, d, a, 0, 128⟩
  | .maccrd st d a b i => ⟨st.toNat, 40, d, a, b, 144 + i.toNat⟩
  | .maccwr st d a b => ⟨st.toNat, 40, d, a, b, 160⟩
  | .mstat st d a l => ⟨st.toNat, 40, d, a, 0, 176 + l⟩
  | .scopy st d a q => ⟨st.toNat, 41, d, a, 0, q⟩
  | .scopy2d st d a q => ⟨st.toNat, 41, d, a, 0, 16 + q⟩
  | .sfill st d a q => ⟨st.toNat, 41, d, a, 0, 32 + q⟩
  | .scvt st d a q => ⟨st.toNat, 41, d, a, 0, 48 + q⟩
  | .shint st d a q => ⟨st.toNat, 41, d, a, 0, 64 + q⟩
  | .sqcfg st d a q => ⟨st.toNat, 41, d, a, 0, 80 + q⟩
  | .sqstat st d a q => ⟨st.toNat, 41, d, a, 0, 96 + q⟩
  | .sqstatNamed st d a b => ⟨st.toNat, 41, d, a, b, 96⟩
  | .sqrst st d q => ⟨st.toNat, 41, d, 0, 0, 112 + q⟩
  | .cdef st d a => ⟨st.toNat, 42, d, a, 0, 0⟩
  | .crsz st d a => ⟨st.toNat, 42, d, a, 0, 16⟩
  | .cflush st d a b => ⟨st.toNat, 42, d, a, b, 32⟩
  | .cinval st d a b => ⟨st.toNat, 42, d, a, b, 48⟩
  | .cquery st d a b l => ⟨st.toNat, 42, d, a, b, 64 + l⟩
  | .cplace st d a b => ⟨st.toNat, 42, d, a, b, 80⟩
  | .cdrop st d a => ⟨st.toNat, 42, d, a, 0, 96⟩
  | .map st d a => ⟨st.toNat, 43, d, a, 0, 0⟩
  | .grant st d a => ⟨st.toNat, 43, d, a, 0, 16⟩
  | .unmap st d a b => ⟨st.toNat, 43, d, a, b, 32⟩
  | .unmapx st d a b => ⟨st.toNat, 43, d, a, b, 48⟩
  | .send st d a => ⟨st.toNat, 43, d, a, 0, 64⟩
  | .recv a b p => ⟨1, 43, 0, a, b, 80 + p.toNat⟩
  | .call a b => ⟨1, 43, 0, a, b, 96⟩
  | .reply st d a => ⟨st.toNat, 43, d, a, 0, 112⟩
  | .epdrop st d a => ⟨st.toNat, 43, d, a, 0, 128⟩
  | .epinfo st d a => ⟨st.toNat, 43, d, a, 0, 144⟩
  | .chbind st d a b => ⟨st.toNat, 43, d, a, b, 160⟩
  | .mquery st d a b l => ⟨st.toNat, 43, d, a, b, 176 + l⟩
  | .spawn st a => ⟨st.toNat, 44, 0, a, 0, 0⟩
  | .spawng st a => ⟨st.toNat, 44, 0, a, 0, 16⟩
  | .pdec st a => ⟨st.toNat, 44, 0, a, 0, 32⟩
  | .chpri st a => ⟨st.toNat, 44, 0, a, 0, 48⟩
  | .endOp => ⟨1, 44, 0, 0, 0, 64⟩
  | .ginfo st d a => ⟨st.toNat, 44, d, a, 0, 80⟩
  | .affin st a => ⟨st.toNat, 44, 0, a, 0, 96⟩
  | .wstat st d a l => ⟨st.toNat, 44, d, a, 0, 112 + l⟩
  | .setshp st d a => ⟨st.toNat, 45, d, a, 0, 0⟩
  | .ckpt => ⟨1, 45, 0, 0, 0, 16⟩
  | .yield => ⟨1, 45, 0, 0, 0, 32⟩
  | .trap a b c => ⟨1, 45, 0, a, b, 48 + c⟩
  | .bkpt => ⟨1, 45, 0, 0, 0, 64⟩
  | .rpt c l x y z e => ⟨1, 62, c, l * 2 + x / 8, x % 8 * 4 + y / 4, y % 4 * 256 + z * 16 + e⟩
  | .pfx p => ⟨0, 63, p / 1048576, p / 32768 % 32, p / 1024 % 32, p % 1024⟩
  | .leasemaxWrite _ _ => ⟨0, 0, 0, 0, 0, 0⟩
  | .tleaseWrite _ _ => ⟨0, 0, 0, 0, 0, 0⟩
  | .slotcfgWrite _ _ => ⟨0, 0, 0, 0, 0, 0⟩
  | .fpflagsWrite _ _ => ⟨0, 0, 0, 0, 0, 0⟩
  | .sysregWrite _ _ _ => ⟨0, 0, 0, 0, 0, 0⟩
  | .feHeldPerform _ => ⟨0, 0, 0, 0, 0, 0⟩
  | .matrixCommandBegin _ => ⟨0, 0, 0, 0, 0, 0⟩
  | .matrixCommandComplete _ => ⟨0, 0, 0, 0, 0, 0⟩
  | .turnRelease _ => ⟨0, 0, 0, 0, 0, 0⟩
  | .sluiceCommandBegin _ _ => ⟨0, 0, 0, 0, 0, 0⟩
  | .sluiceCommandComplete _ _ _ => ⟨0, 0, 0, 0, 0, 0⟩
  | .sluiceTimeout _ _ _ => ⟨0, 0, 0, 0, 0, 0⟩
  | .composerCommandComplete _ => ⟨0, 0, 0, 0, 0, 0⟩
  | .resizeLineMove _ => ⟨0, 0, 0, 0, 0, 0⟩
  | .bankShareFault _ _ => ⟨0, 0, 0, 0, 0, 0⟩
  | .mappingCommandBegin _ => ⟨0, 0, 0, 0, 0, 0⟩
  | .mappingCommandComplete _ => ⟨0, 0, 0, 0, 0, 0⟩
  | .contextFree _ => ⟨0, 0, 0, 0, 0, 0⟩
  | .heldFaultQueue _ => ⟨0, 0, 0, 0, 0, 0⟩
  | .leaseExpiry _ => ⟨0, 0, 0, 0, 0, 0⟩
  | .preemption _ => ⟨0, 0, 0, 0, 0, 0⟩
  | .shootdown _ => ⟨0, 0, 0, 0, 0, 0⟩
  | .shootdownAck _ => ⟨0, 0, 0, 0, 0, 0⟩
  | .backInvalidate _ _ _ => ⟨0, 0, 0, 0, 0, 0⟩
  | .translationWalk _ _ _ => ⟨0, 0, 0, 0, 0, 0⟩
  | .translationLeaseExpiry _ _ => ⟨0, 0, 0, 0, 0, 0⟩
  | .slotDispatch _ => ⟨0, 0, 0, 0, 0, 0⟩
  | .weirPeriod _ => ⟨0, 0, 0, 0, 0, 0⟩
  | .flightJoin _ => ⟨0, 0, 0, 0, 0, 0⟩
  | .slotBoundary => ⟨0, 0, 0, 0, 0, 0⟩
  | .notifyWrite _ _ _ _ => ⟨0, 0, 0, 0, 0, 0⟩
  | .dispatch _ _ => ⟨0, 0, 0, 0, 0, 0⟩
  | .dispatchg _ _ => ⟨0, 0, 0, 0, 0, 0⟩
  | .order _ _ => ⟨0, 0, 0, 0, 0, 0⟩
  | .maint _ _ => ⟨0, 0, 0, 0, 0, 0⟩
  | .packetCompletion _ _ _ => ⟨0, 0, 0, 0, 0, 0⟩
  | .ctxcreate _ _ => ⟨0, 0, 0, 0, 0, 0⟩
  | .ctxdestroy _ _ => ⟨0, 0, 0, 0, 0, 0⟩
  | .bindq _ _ => ⟨0, 0, 0, 0, 0, 0⟩
  | .resetq _ _ => ⟨0, 0, 0, 0, 0, 0⟩
  | .unbindq _ _ => ⟨0, 0, 0, 0, 0, 0⟩
  | .setlimit _ _ => ⟨0, 0, 0, 0, 0, 0⟩
  | .tenant _ _ => ⟨0, 0, 0, 0, 0, 0⟩
  | .slotset _ _ => ⟨0, 0, 0, 0, 0, 0⟩
  | .epset _ _ => ⟨0, 0, 0, 0, 0, 0⟩
  | .chown _ _ => ⟨0, 0, 0, 0, 0, 0⟩
  | .unisolate _ _ => ⟨0, 0, 0, 0, 0, 0⟩
  | .bias _ _ => ⟨0, 0, 0, 0, 0, 0⟩
  | .intrset _ _ => ⟨0, 0, 0, 0, 0, 0⟩
  | .evring _ _ => ⟨0, 0, 0, 0, 0, 0⟩
  | .inject _ _ => ⟨0, 0, 0, 0, 0, 0⟩
  | .peerset _ _ => ⟨0, 0, 0, 0, 0, 0⟩
  | .exportOp _ _ => ⟨0, 0, 0, 0, 0, 0⟩
  | .hostAccessTimeout _ => ⟨0, 0, 0, 0, 0, 0⟩
  | .hostMemoryAccess _ _ _ _ => ⟨0, 0, 0, 0, 0, 0⟩
  | .atsInvalidation _ _ _ => ⟨0, 0, 0, 0, 0, 0⟩
  | .expanderHotAdd _ _ => ⟨0, 0, 0, 0, 0, 0⟩
  | .imageWrite _ => ⟨0, 0, 0, 0, 0, 0⟩
  | .getVersion _ _ => ⟨0, 0, 0, 0, 0, 0⟩
  | .getCapabilities _ _ => ⟨0, 0, 0, 0, 0, 0⟩
  | .negotiateAlgorithms _ _ => ⟨0, 0, 0, 0, 0, 0⟩
  | .getDigests _ _ => ⟨0, 0, 0, 0, 0, 0⟩
  | .getCertificate _ _ => ⟨0, 0, 0, 0, 0, 0⟩
  | .challenge _ _ => ⟨0, 0, 0, 0, 0, 0⟩
  | .getMeasurements _ _ => ⟨0, 0, 0, 0, 0, 0⟩
  | .keyExchange _ _ => ⟨0, 0, 0, 0, 0, 0⟩
  | .finish _ _ => ⟨0, 0, 0, 0, 0, 0⟩
  | .endSession _ _ => ⟨0, 0, 0, 0, 0, 0⟩
  | .configLocked _ _ => ⟨0, 0, 0, 0, 0, 0⟩
  | .run _ _ => ⟨0, 0, 0, 0, 0, 0⟩
  | .error _ _ => ⟨0, 0, 0, 0, 0, 0⟩
  | .ideIntegrityFailure _ _ => ⟨0, 0, 0, 0, 0, 0⟩
  | .counterWindow => ⟨0, 0, 0, 0, 0, 0⟩
  | .coldStart => ⟨0, 0, 0, 0, 0, 0⟩
  | .warmStart => ⟨0, 0, 0, 0, 0, 0⟩
  | .powerLimit _ => ⟨0, 0, 0, 0, 0, 0⟩
  | .throttle _ => ⟨0, 0, 0, 0, 0, 0⟩
  | .trip _ => ⟨0, 0, 0, 0, 0, 0⟩
  | .linkFlitReceive _ _ _ => ⟨0, 0, 0, 0, 0, 0⟩
  | .linkRequest _ _ _ _ _ _ _ => ⟨0, 0, 0, 0, 0, 0⟩
  | .linkResponse _ _ _ _ _ => ⟨0, 0, 0, 0, 0, 0⟩
  | .linkDown _ _ => ⟨0, 0, 0, 0, 0, 0⟩
  | .peerTimeout _ _ => ⟨0, 0, 0, 0, 0, 0⟩
  | .viewAppliesWrite _ _ => ⟨0, 0, 0, 0, 0, 0⟩
  | .injectionTakesEffect _ => ⟨0, 0, 0, 0, 0, 0⟩
  | .configUnlocked _ _ => ⟨0, 0, 0, 0, 0, 0⟩

/-- The word of a well-formed instruction. -/
def encode (i : Instr) : Nat := (encodeFields i).pack

/-- The bytes of a well-formed instruction, lowest address first. -/
def encodeBytes (i : Instr) : List Byte := wordBytes (encode i)

end Sys2Proof
end

