-- ==== Sys2Proof/Machine/State.lean ====
section
/-! DEFINITION. The state of a Falnan A4 module as plain data: every piece of state that spec/ gives a core, a barge,
a sluice, a matrix array, a composer, the mapping engine, the wharf, the host edge, the security core and the module
links, then the model's own few fields, and the state after a start (21_host R365). Tables are sparse: a `Tab` lists,
in strictly rising order of key, only what differs from its default. -/

namespace Sys2Proof.Machine

/-- A sparse table. -/
abbrev Tab (α : Type) := List (Nat × α)

/-- Global memory: bytes by physical address, the default 0 unlisted. -/
abbrev Memory := List Host.Cell

/-! ## Barges -/

/-- STATE of a barge record (R98). -/
inductive BState | created | ready | resident | waiting | parked | ended
  deriving DecidableEq, Repr

/-- STATE of a tile entry (R104). -/
inductive TState | empty | filling | ready | draining
  deriving DecidableEq, Repr

/-- A tile-table entry (R104); `fills` and `filled` count the fill commands of R211 accepted and completed. -/
structure Tile where
  st : TState := .empty
  ty : Nat := 0
  cols : Nat := 0
  rows : Nat := 0
  base : Nat := 0
  fills : Nat := 0
  filled : Nat := 0
  deriving DecidableEq, Repr

/-- The commands of the engines (R12): what a region buffers and an engine performs. -/
inductive Op
  | scopy | scopy2d | sfill | scvt | shint | sqcfg | sqrst
  | mturn | mtend | mringcfg | mringadv | mzero | mma (s : Bool) | mmax | mrec | mldprog | maccrd (i : Bool) | maccwr
  | cdef | crsz | cflush | cinval | cplace | cdrop
  | map | grant | unmap | unmapx | send | reply | epdrop | chbind
  | spawn | spawng | pdec | chpri | affin
  deriving DecidableEq, Repr

/-- A command with the operand values it read at issue: s[a], s[b], and a descriptor, record or message words. -/
structure Cmd where
  op : Op
  barge : Nat
  ctx : Nat
  core : Nat
  a : Word := 0
  b : Word := 0
  args : List Word := []
  /-- the model's own: its place among the sluice commands of its barge, set when it is accepted (notes/assumptions/26.md) -/
  ord : Nat := 0
  deriving DecidableEq, Repr

/-- A piece of a store within one page: its physical address and 1 + the virtual cache that serves the page, 0 for its
memory home (R264). -/
structure SPiece where
  pa : Nat
  vc : Nat
  bytes : List Byte
  deriving DecidableEq, Repr

/-- The effects a region buffers (R12). Global addresses are physical, as translated at issue, and `vc` is as in
`SPiece`. -/
inductive Effect
  | store (spc : Space) (ps : List SPiece)
  | spad (bid off : Nat) (bytes : List Byte)
  | stf (bid off : Nat) (w : Word)
  | red (op : Nat) (wide : Bool) (sc : Scope) (pa vc : Nat) (x : Word)
  | xa (t : XTy) (sc : Scope) (pa vc : Nat) (x : Word)
  | fence (sc : Scope)
  | arrive (bid off : Nat) (add : Nat)
  | tileDef (t : Nat) (e : Tile)
  | tileRel (t : Nat)
  | cmd (tl n : Nat) (c : Cmd)
  deriving DecidableEq, Repr

/-- What a run has produced so far, in program order; registers change only when the run ends (R69). -/
inductive Item
  | sreg (d : Nat) (v : Word)
  | vreg (d : Nat) (v : VReg)
  | sys (n : Nat) (v : Word)
  | shape (g : Nat)
  | eff (e : Effect)
  | cmd (d tl : Nat) (c : Cmd)
  deriving DecidableEq, Repr

/-- A fetched word: its address, the instruction, and what the `i` step of a frame adds to its immediate (R81). -/
structure FWord where
  pc : Nat
  instr : Instr
  inc : Nat := 0
  deriving DecidableEq, Repr

/-- A run in progress (R68, R69). -/
structure Run where
  /-- the words not yet issued -/
  words : List FWord := []
  /-- the word being issued -/
  here : FWord
  items : List Item := []
  /-- flags raised by the run, in the layout of R44 bits 4:0 -/
  raised : Nat := 0
  /-- address of the first word that raised a flag whose enable was set -/
  firstFx : Option Nat := none
  /-- payload and address of a prefix that waits for its word (R79) -/
  pfx : Option (Nat × Nat) := none
  /-- the system registers as they stood when the run began (R69), those that are not zero -/
  sys : Tab Word := []
  /-- the granules that the word waits for: it has not issued (R163) -/
  stall : List Nat := []
  /-- the word waits for what its core has released and a lease holds back (R159, R163) -/
  waits : Bool := false
  deriving DecidableEq, Repr

/-- A repeat frame in progress (R81): iteration `i` of `n`, word `j` of `len`. -/
structure Frame where
  rpt : Nat
  n : Nat
  len : Nat
  dstep : Nat
  astep : Nat
  bstep : Nat
  en : Nat
  i : Nat := 0
  j : Nat := 0
  deriving DecidableEq, Repr

/-- A held operation of a suspension point, or an atomic's own effect (R13 step 3, R151). -/
inductive HeldOp
  | ldf (d bid off ea : Nat)
  | ldfn (d bid off ea : Nat)
  | ste (bid off : Nat) (w : Word)
  | bwait (bid off p : Nat)
  | tlwait (tl n : Nat)
  | ttwait (t : Nat)
  | recv (chan : Option Nat) (bid off : Nat) (poll : Bool)
  | call (handle : Word) (bid off : Nat) (words : List Word) (token : Option Nat)
  | amo (op : Nat) (wide : Bool) (sc : Scope) (d ea pa vc : Nat) (x c : Word)
  deriving DecidableEq, Repr

/-- A held operation: the address that its word is reported at, the place of its request in the order in which requests
reached the windows (R150), the place of its suspension, from which the wait counts (R337), and the core and slot that issued the
word (R186). -/
structure Held where
  pc : Nat
  op : HeldOp
  since : Nat := 0
  waited : Nat := 0
  site : Nat × Nat := (0, 0)
  deriving DecidableEq, Repr

/-- An enabled FP exception that waits for its run's commit point (R190). -/
structure Fpx where
  raised : Nat
  enables : Nat
  pc : Nat
  /-- the core and slot that issued the word (R186) -/
  site : Nat × Nat := (0, 0)
  deriving DecidableEq, Repr

/-- An exception: the class of R184, the fields of the message of R186, and the FP exception reported with it. -/
structure Exc where
  cls : Nat
  detail : Nat := 0
  pc : Nat
  s3 : Word := 0
  s5 : Word := 0
  s6 : Word := 0
  after : Bool := false
  fpx : Option Fpx := none
  /-- the core and slot that issued the reported word, where the barge stands there no longer -/
  site : Option (Nat × Nat) := none
  deriving DecidableEq, Repr

/-- What follows steps 1 and 2 of a commit (R13): the barge goes on, perhaps with an exception (R188, R190); it holds an operation,
with the address, site and FP exception of its word; it returns to the wharf (R126); it ends (R328). -/
inductive Follow
  | goOn (x : Option Exc)
  | hold (pc : Nat) (op : HeldOp) (fpx : Option Fpx) (site : Nat × Nat)
  | yield (fpx : Option Fpx)
  | end_
  deriving DecidableEq, Repr

/-- A commit in progress (R13): the resume address that step 2 records, what follows, and whether step 2 is done. -/
structure Committing where
  resume : Nat
  follow : Follow
  recorded : Bool := false
  deriving DecidableEq, Repr

/-- A lease (R161): the physical granule and the cycle at which it expires (R165). -/
structure Lease where
  granule : Nat
  until_ : Nat
  deriving DecidableEq, Repr

/-- A barge: the wharf's copy of its record (R98), its pool entry (R319), its window and tiles (R101 to R104), its
placement, and its core state while resident (R89, R97). -/
structure Barge where
  -- the record
  recVa : Nat := 0
  recPa : Nat := 0
  recCtx : Nat := 0
  gmem : Nat := 0
  gsize : Nat := 0
  resume : Nat := 0
  vl32 : Nat := 32
  tcode : Nat := 0
  tiles : Nat := 0
  spf : Nat := 0
  fpen : Nat := 0
  fpfl : Nat := 0
  st : BState := .created
  pri : Nat := 0
  chan : Nat := 0
  ctx : Nat := 0
  /-- s1 to s6 as recorded -/
  carry : List Word := [0, 0, 0, 0, 0, 0]
  -- the pool entry
  gang : Nat := 0
  pred : Nat := 0
  bound : Bool := false
  claimed : Bool := false
  succ : List Nat := []
  aff : Word := 0
  packet : Option (Nat × Nat) := none
  faulted : Bool := false
  readySeq : Nat := 0
  /-- it has ended, and its record has not reached memory: the rest of its end waits (R163, R328) -/
  owes : Bool := false
  /-- the model's own: sluice commands that its regions have released -/
  ncmd : Nat := 0
  /-- the model's own: the calls and the fault messages that it has sent, by which their tokens are numbered
  (notes/assumptions/43.md) -/
  calls : Nat := 0
  faults : Nat := 0
  /-- effects of its committed regions that step 1 has not released yet: the first orders before it what a lease holds back (R163,
  R178, R180), or is a spawn whose record no die serves -/
  late : List Effect := []
  /-- the commit in progress, from its step 1 until nothing of its region is left in `late` (R13) -/
  commit : Option Committing := none
  -- the window
  window : Tab Byte := []
  full : Tab Bool := []
  spPoison : Tab Bool := []
  tileTab : Tab Tile := []
  /-- arrivals queued for the next phase, by barrier offset (R167) -/
  arrivals : Tab (List Nat) := []
  -- placement
  /-- the model's own: it has been resident, on the core and in the slot that follow -/
  ran : Bool := false
  core : Nat := 0
  slot : Nat := 0
  /-- it is READY in a gang of which another member is resident, and its slot is kept for it (R126, R336) -/
  kept : Bool := false
  -- core state
  pc : Nat := 0
  sreg : Tab Word := []
  vreg : Tab VReg := []
  /-- BARGE.FPFLAGS of the region: enables, then flags (R44) -/
  rfpen : Nat := 0
  rfpfl : Nat := 0
  /-- BARGE.SHAPE of the region: VL32 and tile code (R93) -/
  rvl32 : Nat := 32
  rtcode : Nat := 0
  run : Option Run := none
  frame : Option Frame := none
  eff : List Effect := []
  /-- mapping nodes the region's translations used (R197) -/
  used : List Nat := []
  leases : List Lease := []
  held : Option Held := none
  fpx : Option Fpx := none
  /-- a pre-emption has been requested (R195) -/
  preempt : Bool := false
  /-- a target that has not answered this barge's access, and the cycle of the access (R357) -/
  unanswered : Option (Nat × Nat) := none
  /-- the model's own: that target has answered, and the word that waited issues (R357, notes/assumptions/14.md) -/
  heard : Bool := false
  /-- the token of the fault message of a parked barge (R188) -/
  faultToken : Nat := 0
  deriving DecidableEq, Repr

/-! ## Cores and memory -/

/-- State of a granule in an L1 data cache (R161, R174). -/
inductive L1St | s | e | m
  deriving DecidableEq, Repr

/-- STATE of a mapping record (R288). -/
inductive NState | live | withdrawing
  deriving DecidableEq, Repr

/-- A node of the mapping tree (R288). -/
structure Node where
  vgn : Nat
  ctx : Nat
  vcid : Option Nat := none
  r : Bool := true
  w : Bool := true
  x : Bool := true
  root : Bool := false
  st : NState := .live
  pgn : Nat
  parent : Nat := 0
  count : Nat
  stamp : Nat := 0
  deriving DecidableEq, Repr

/-- A translation held in the translation cache of a core or an engine: the record's index, the record as it was granted, and
the cycle at which its lease ends (R284, R310). -/
structure TEntry where
  key : Nat
  node : Node
  ends : Nat
  deriving DecidableEq, Repr

/-- A request for one granule that waits behind a lease (R163): a word or a held atomic of a barge, or a command of an engine
under a key of its own; an invalidation or recall; a host write or a host read; a write by the wharf or a host edge (of barge
`bid`'s record, 0 for another); a store that barge `bid` has released and its core sees already, of the `k` writes from `id` on; or an
effect that its core does not see: what a store writes of a granule that another barge of the core keeps, a reduction, an XA add;
a migration probe for a virtual cache's line (R275). -/
inductive LeaseReq
  | wait (bid granule : Nat)
  | inval (core granule : Nat) (drop : Bool)
  | hostWrite (port pa : Nat) (bytes : List Byte)
  | hostRead (port pa len : Nat)
  | ownWrite (bid vc pa : Nat) (bytes : List Byte)
  | store (bid core id k : Nat) (spc : Space) (vc pa n : Nat)
  | effect (bid core : Nat) (e : Effect)
  | probe (vcid granule : Nat)
  deriving DecidableEq, Repr

/-- A released write that not every view holds yet (R173, R175, R177). `core` issued it, 640 for a host; `home` is the die
of its home; before a view of the issuer's die holds it, it is seen in the issuer's core, flight or span (`reach` 0, 1, 2);
`also` are the other cores on which a barge that saw it goes on;
`views` are the dies whose views hold it. `clock` names, by id, the writes on their way that the issuer's die's view held when
this one was released: what R177 counts of the others is in every view. -/
structure Write where
  id : Nat
  core : Nat
  home : Nat
  reach : Nat := 0
  also : List Nat := []
  views : List Nat := []
  clock : List Nat := []
  /-- of a word of a write that covers its granule whole, which takes the granule's poison away (R149): the id of that write's first
  word; 0 where there is none -/
  whole : Nat := 0
  pa : Nat
  bytes : List Byte
  deriving DecidableEq, Repr

/-- Global memory as the four dies see it (R175, R177), poison (R149), and the caches of the cores. -/
structure MemSt where
  view0 : Memory := []
  view1 : Memory := []
  view2 : Memory := []
  view3 : Memory := []
  /-- the id of the next write -/
  nextW : Nat := 1
  /-- released writes that have no place in the coherence order yet, seen by their own core, oldest first -/
  out : List Write := []
  /-- placed writes that not every view holds, in an order that agrees with the coherence order of every location (R174) -/
  flight : List Write := []
  /-- poison by granule: bit d says that the view of die d holds it poisoned (R149) -/
  poison : Tab (BitVec 4) := []
  /-- L1 data caches: granule states by core × 2^46 + granule -/
  l1 : Tab L1St := []
  /-- the cycle in which an L1 line was last used, by core × 2^45 + line -/
  l1use : Tab Nat := []
  /-- L1 instruction caches: granules by core, the last used first -/
  icache : Tab (List Nat) := []
  /-- translation caches: of cores by number, of sluices by 640 + flight, of composers by 800 + die, of
  the dies' walkers by 850 + die, of the link agent by 900 + peer (R310) -/
  tcache : Tab (List TEntry) := []
  leaseQ : List LeaseReq := []
  deriving DecidableEq, Repr

/-- The end of a number: its status, and for a sluice command PGRAN and DONE (R212). -/
structure Ended where
  n : Nat
  code : Nat
  pgran : Nat := 0
  done : Nat := 0
  deriving DecidableEq, Repr

/-- A timeline (R15, R16): the counters, the finished numbers above `completed`, the 256 most recently finished
statuses, newest first, and the latest number that each context reserved. -/
structure Timeline where
  issued : Nat := 0
  completed : Nat := 0
  ahead : List Nat := []
  ends : List Ended := []
  latest : Tab Nat := []
  deriving DecidableEq, Repr

/-! ## Sluices -/

/-- An accepted sluice command; `tout` is the time-out exponent in force at acceptance (R218). -/
structure SCmd where
  q : Nat
  n : Nat
  cmd : Cmd
  tout : Nat := 10
  begun : Bool := false
  start : Nat := 0
  /-- refused at acceptance (R211) -/
  refused : Bool := false
  /-- counted against tile entry TILE (R211) -/
  counted : Bool := false
  /-- the status that its begin decided, 0 where none (R215, R370) -/
  verdict : Nat := 0
  /-- the peer whose response it waits for (R370), and that response: bytes read, each with its poison, and status -/
  peer : Option Nat := none
  /-- a link command has sent its requests -/
  sent : Bool := false
  /-- the cycle in which it sent them (R370) -/
  sentAt : Nat := 0
  resp : Option (List (Byte × Bool) × Nat) := none
  deriving DecidableEq, Repr

structure SqCfg where
  tout : Nat := 10
  weight : Nat := 1
  deriving DecidableEq, Repr

structure SluiceSt where
  /-- by flight -/
  cmds : Tab (List SCmd) := []
  /-- by flight × 16 + queue -/
  cfg : Tab SqCfg := []
  /-- the queue last served, by flight, and the credit it has left -/
  last : Tab Nat := []
  credit : Tab Nat := []
  /-- isolated targets (R219): 0 to 15 expanders, 0x100 + p host ports, 0x200 + j peers -/
  isolated : Tab Bool := []
  /-- discard count of each isolated target (R357) -/
  discards : Tab Nat := []
  deriving DecidableEq, Repr

/-! ## Matrix arrays -/

/-- A ring of a turn (R234). DESIGN CHOICE: HEAD and TAIL, 64-bit counters for which no wrap is given, count on past 2^64 bytes, offsets
are taken from them whole, and a query shows their low 64 bits (notes/assumptions/19.md). -/
structure Ring where
  base : Nat
  size : Nat
  head : Nat := 0
  tail : Nat := 0
  deriving DecidableEq, Repr

/-- A turn (R229, R242). -/
structure Turn where
  holder : Nat
  tiles : Nat
  wbase : Nat
  wsize : Nat
  rings : Tab Ring := []
  prog : Option (List Word) := none
  /-- the number of the `MTEND` that is ending it, 0 for an end by other means (R232) -/
  ending : Option Nat := none
  deriving DecidableEq, Repr

/-- An accepted matrix command. `bad` marks one whose acceptance already refuses it (R245). -/
structure MCmd where
  n : Nat
  cmd : Cmd
  bad : Bool := false
  deriving DecidableEq, Repr

/-- The command that occupies an array (R253), with the status decided at its begin, and the record that an `MLDPROG` read
then (R248). -/
structure MRun where
  core : Nat
  m : MCmd
  status : Nat
  prog : List Word := []
  deriving DecidableEq, Repr

structure ArraySt where
  /-- accumulator elements, by flight × 2^17 + tile × 12,288 + row × 96 + column -/
  acc : Tab (BitVec 32) := []
  /-- ring bytes, by flight × 2^21 + offset -/
  ring : Tab Byte := []
  /-- poisoned ring granules, by flight × 2^15 + granule -/
  rpoison : Tab Bool := []
  /-- by core -/
  turn : Tab Turn := []
  queue : Tab (List MCmd) := []
  /-- by flight -/
  running : Tab MRun := []
  last : Tab Nat := []
  deriving DecidableEq, Repr

/-! ## Cache composers -/

/-- A line of a non-direct virtual cache (R261, R263); `rank` is the stamp of its last use, `low` says that it stands at the
lowest replacement rank, below every line that does not, `moved` that it stands under the new index function of a resize
(R274), `way` is its way in its set. -/
structure Line where
  dirty : Bool := false
  rank : Nat := 0
  low : Bool := false
  moved : Bool := false
  way : Nat := 0
  deriving DecidableEq, Repr

/-- A virtual cache (R259, R273). `state`: 1 defined, 2 resizing, 3 dropping. -/
structure VCache where
  defw : Word
  place : Word := 0
  owner : Nat := 0
  shares : List Nat := []
  state : Nat := 1
  faults : Nat := 0
  /-- the number that the `CDEF` of this definition received (R266) -/
  cdefN : Nat := 0
  /-- the share list before a resize in progress -/
  old : List Nat := []
  /-- the number of the `CRSZ` in progress, 0 for none (R274) -/
  crszN : Nat := 0
  deriving DecidableEq, Repr

structure ComposerSt where
  vc : Tab VCache := []
  /-- shares not free, by die × 8,192 + share: 1 + VCID of the holder, or 2,000 when withdrawn -/
  share : Tab Nat := []
  /-- by partition × 4 + die; partition 0 starts at 6,360 (R258) -/
  limit : Tab Nat := []
  used : Tab Nat := []
  /-- accepted commands, by VCID -/
  queue : Tab (List (Nat × Cmd)) := []
  /-- by VCID × 2^46 + line address / 64 -/
  lines : Tab Line := []
  failed : List Nat := []
  deriving DecidableEq, Repr

/-! ## The mapping engine -/

/-- STATE of a context record (R282). -/
inductive CState | free | live | dying
  deriving DecidableEq, Repr

structure Ctx where
  partition : Nat := 0
  scope : Nat := 0
  measured : Bool := false
  st : CState := .free
  flights : Nat := 0
  pager : Word := 0
  super : Option Nat := none
  scopecnt : Nat := 0
  deriving DecidableEq, Repr

/-- An endpoint slot (R285). -/
structure Endpoint where
  chan : Nat := 0
  tctx : Nat := 0
  s : Bool := false
  m : Bool := false
  g : Bool := false
  gen : Nat := 0
  valid : Bool := false
  badge : Word := 0
  deriving DecidableEq, Repr

/-- A message (R291, R299). KIND: 0 SEND, 1 CALL, 2 FAULT, 3 MAP, 4 GRANT. -/
structure Msg where
  words : List Word
  badge : Word := 0
  kind : Nat := 0
  token : Nat := 0
  deriving DecidableEq, Repr

/-- A fault message held beside its parked barge for room in its channel (R187): the pager handle that it went through, 0
for the supervisor binding; `lost` says that an event has made it undeliverable. -/
structure HeldFault where
  bid : Nat
  msg : Msg
  pager : Word := 0
  lost : Bool := false
  deriving DecidableEq, Repr

/-- A channel (R286). `waiters` are the barges that wait to receive, in order (R298, R326); `heldFaults` the fault
messages held for room, in the order in which they were raised. -/
structure Channel where
  owner : Option Nat := none
  queue : List Msg := []
  waiters : List Nat := []
  heldFaults : List HeldFault := []
  deriving DecidableEq, Repr

/-- A reply token (R299, R301): the barge that waits for the answer, whether it is of a FAULT, the context whose
barge has received the message, and the target context of a call. -/
structure Token where
  barge : Nat
  isFault : Bool
  afterCommit : Bool := false
  receiver : Option Nat := none
  target : Nat := 0
  deriving DecidableEq, Repr

/-- A withdrawal or move that waits for the conditions of R310: the nodes to free, the ranges of physical granules
that parties must give up, the parties that have not acknowledged, the deadline of the leases, and what completes. -/
structure Pending where
  ctx : Nat
  /-- the number to complete; 0 for a dying context -/
  n : Nat
  free : List Nat
  nodes : List Nat
  parties : List Nat
  deadline : Nat
  /-- granules of a confidential context to be written zero (R362): first and count -/
  zero : List (Nat × Nat) := []
  deriving DecidableEq, Repr

structure MapSt where
  ctxs : Tab Ctx
  eps : Tab Endpoint := []
  chans : Tab Channel := []
  nodes : Tab Node
  tokens : Tab Token := []
  /-- every token that has been given out: each is used once (R301) -/
  spent : List Nat := []
  seq : Nat := 0
  tlease : Nat := 4096
  /-- accepted commands, by context -/
  queue : Tab (List (Nat × Cmd)) := []
  pending : List Pending := []
  deriving DecidableEq, Repr

/-! ## The wharf -/

/-- A tenant record (R338). -/
structure Tenant where
  target : Nat := 0
  min : Nat := 0
  max : Nat := 0
  primax : Nat := 0
  dies : Nat := 0
  deriving DecidableEq, Repr

/-- A flight on its way from one tenant's cut to another's (R340). -/
structure Move where
  flight : Nat
  src : Option Nat
  dst : Nat
  deriving DecidableEq, Repr

structure WharfSt where
  /-- by die × 8 + priority -/
  ptr : Tab Nat := []
  tenants : Tab Tenant := []
  /-- by flight: 1 + tenant -/
  cut : Tab Nat := []
  /-- by tenant × 4 + die; `e` is stored as e + 16 × 256, in units of 1/256 flight -/
  err : Tab Nat := []
  served : Tab Nat := []
  lastServed : Tab Nat := []
  moves : List Move := []
  /-- by die -/
  nextWeir : Tab Nat := []
  slots : Tab (BitVec 256) := []
  slotEn : Bool := false
  slotLen : Nat := 1000
  curSlot : Nat := 0
  /-- wharf error count, by context -/
  errs : Tab Nat := []
  readySeq : Nat := 1
  deriving DecidableEq, Repr

/-! ## The host edge, the security core and the links -/

/-- TDISP state of a queue interface (R361). -/
inductive Tdi | unlocked | locked | run | error
  deriving DecidableEq, Repr

/-- A queue interface with its copy of the QCB (R350, R351). -/
structure HQueue where
  bound : Bool := false
  revoked : Bool := false
  qcb : Nat := 0
  ring : Nat := 0
  logsize : Nat := 4
  cpl : Nat := 0
  intr : Nat := 0
  intrEn : Bool := false
  pasid : Nat := 0
  ctx : Nat := 0
  prio : Nat := 0
  head : Nat := 0
  tail : Nat := 0
  /-- unread entries that a TAIL written since has run round the ring over, and that are read before those up to it (R351) -/
  lapped : Nat := 0
  tdi : Tdi := .unlocked
  deriving DecidableEq, Repr

/-- A consumed packet that has not completed. `passed`: it has passed to the wharf. -/
structure Packet where
  qi : Nat
  n : Nat
  words : List Word
  passed : Bool := false
  /-- the status it completes with, where it does no work of its own -/
  status : Nat := 0
  faulted : Bool := false
  extra : Nat := 0
  /-- commands that its barges' committed regions released: timeline and number -/
  cmds : List (Nat × Nat) := []
  deriving DecidableEq, Repr

structure Remap where
  vector : Nat := 0
  pasid : Nat := 0
  en : Bool := false
  deriving DecidableEq, Repr

/-- An event ring (R356). -/
structure EvRing where
  base : Nat
  entries : Nat
  prod : Nat := 0
  lost : Nat := 0
  /-- CONS as the port last read it -/
  cons : Nat := 0
  deriving DecidableEq, Repr

/-- An injection (R359). KIND 1 uncorrectable error, 2 stall. -/
structure Injection where
  target : Nat
  addr : Nat
  kind : Nat
  due : Nat
  deriving DecidableEq, Repr

/-- The two host edges. -/
structure HostSt where
  /-- by port × 64 + queue -/
  queues : Tab HQueue := []
  packets : List Packet := []
  /-- consumed packets with INTR set whose interrupt has not been sent: queue interface and number -/
  irqs : List (Nat × Nat) := []
  /-- one more than the queue last read, by port × 8 + priority (R352) -/
  lastRead : Tab Nat := []
  remap : Tab Remap := []
  events : Tab EvRing := []
  /-- interrupts sent: port and vector, oldest first -/
  interrupts : List (Nat × Nat) := []
  /-- data returned to host reads: port and bytes, oldest first -/
  reads : List (Nat × List Byte) := []
  injections : List Injection := []
  /-- stalls in effect: target and address -/
  stalls : List (Nat × Nat) := []
  /-- 64 KiB blocks in host bias (R358) -/
  bias : Tab Bool := []
  /-- ATS translations that a host edge has cached: the page behind (port × 2^20 + PASID) × 2^33 + page (R353) -/
  ats : Tab Nat := []
  /-- the ATS invalidations so far: port, base, length -/
  atsInv : List (Nat × Nat × Nat) := []
  /-- expander e is enumerated, and the port it is reached through -/
  expanders : Tab Nat := []
  /-- coarsened counters (R364), by tenant × 8 + counter, and the exact ones behind them -/
  coarse : Tab Nat := []
  exact : Tab Nat := []
  /-- T at which the counter window ends (R364) -/
  nextWindow : Nat := 100000000
  /-- clock reduction in 100 MHz steps, thermal level of each die, dies that have tripped (R366) -/
  clockDown : Nat := 0
  thermal : Tab Nat := []
  tripped : List Nat := []
  deriving DecidableEq, Repr

/-- The security core (R360 to R363). -/
structure TrustSt where
  image : List Byte := []
  /-- a verified image is held: the module has left start step 2 -/
  verified : Bool := false
  failed : Bool := false
  session : Bool := false
  negotiated : Bool := false
  /-- replies in the DOE mailbox: port and bytes, oldest first -/
  mailbox : List (Nat × List Byte) := []
  /-- the key of each context that has one (R362), as the draw of `Config.freeKey` that made it: equal data is an equal key -/
  keys : Tab Nat := []
  /-- measurement of each context (R363) -/
  measures : Tab (List Byte) := []
  deriving DecidableEq, Repr

/-- A peer table entry (R368). -/
structure Peer where
  mid : Nat := 0
  mask : Nat := 0
  en : Bool := false
  deriving DecidableEq, Repr

/-- The export for a peer (R369). -/
structure Export where
  ctx : Nat
  base : Nat
  size : Nat
  r : Bool
  w : Bool
  nchan : Nat
  badge : Word
  deriving DecidableEq, Repr

/-- A notification that waits for room in its channel (R370). -/
structure Notice where
  peer : Nat
  tag : Nat
  chan : Nat
  msg : Msg
  /-- the cycle from which it waits -/
  since : Nat := 0
  deriving DecidableEq, Repr

/-- A request sent to a peer (R370): for command `n` of queue `key`, a read of `len` bytes at a window offset, or a write
of bytes, the poisoned ones named by position; the words of the notification that follows the writes. -/
structure LinkReq where
  peer : Nat
  key : Nat
  n : Nat
  off : Nat
  len : Nat
  bytes : List Byte := []
  bad : List Nat := []
  note : Option (List Word) := none
  deriving DecidableEq, Repr

/-- A request that a peer's module has sent (R369): `data` holds the bytes of a write, each with its poison, `note` the words of
the notification after its writes. -/
structure LinkIn where
  peer : Nat
  tag : Nat
  wr : Bool
  off : Nat
  len : Nat
  data : List (Byte × Bool)
  note : Option (List Word) := none
  deriving DecidableEq, Repr

/-- The module links (R367 to R371). -/
structure LinkSt where
  mid : Nat := 0
  peers : Tab Peer := []
  exports : Tab Export := []
  /-- links out of service -/
  down : List Nat := []
  /-- next expected SEQ, and failures of one flit in a row, by link -/
  expect : Tab Nat := []
  replays : Tab Nat := []
  /-- requests performed for peers, with the answers given: peer × 2^34 + tag -/
  answered : Tab (List (Byte × Bool) × Nat) := []
  /-- responses sent: peer, tag, bytes with their poison, status -/
  sent : List (Nat × Nat × List (Byte × Bool) × Nat) := []
  notices : List Notice := []
  /-- the status that the last write of a peer at a window offset ended with, where it is not 0: by peer × 2^40 + offset (R370) -/
  wrote : Tab Nat := []
  /-- requests received and not yet performed, oldest first -/
  inq : List LinkIn := []
  /-- requests sent to peers, oldest first -/
  out : List LinkReq := []
  deriving DecidableEq, Repr

/-! ## The module -/

structure State where
  /-- core clock cycles since the last start (R91) -/
  cycle : Nat := 0
  /-- added to the cycle count's nanoseconds to give T (R341) -/
  epoch : Nat := 0
  barges : Tab Barge := []
  nextBid : Nat := 1
  /-- CORE.LEASEMAX by core (R92), default 256 -/
  leasemax : Tab Nat := []
  /-- the slot that last issued, by core (R97), default 7 -/
  lastSlot : Tab Nat := []
  mem : MemSt := {}
  /-- by KIND × 2^16 + INDEX (R169); KIND 4 holds the host queue interfaces -/
  tls : Tab Timeline := []
  slu : SluiceSt := {}
  arr : ArraySt := {}
  com : ComposerSt
  map : MapSt
  whf : WharfSt := {}
  hst : HostSt := {}
  tru : TrustSt := {}
  lnk : LinkSt := {}
  /-- the model's own: events from outside, each with the cycle from which it is due (notes/assumptions/2.md) -/
  inputs : List (Nat × Instr) := []
  /-- the model's own: the counter that free values are drawn with (notes/assumptions/14.md) -/
  fresh : Nat := 0
  /-- the model's own: the barge whose word is being issued; 0 when none -/
  cur : Nat := 0
  deriving DecidableEq, Repr

/-- Why the machine stops. -/
inductive Fault
  /-- A word was given to `exec` while no resident barge is issuing one: no core is there to perform it. Raised by the
  meaning of every instruction word; never by `step`, which issues words only for a resident barge. Safe: the machine
  stops where there is nothing that the hardware does. -/
  | noBarge
  deriving DecidableEq, Repr

/-- Why an instruction has no meaning. -/
inductive Refusal
  /-- Raised by an arm of `exec` for an instruction the model does not reach. Safe: the machine stops. -/
  | notModelled (mnemonic : String)
  deriving DecidableEq, Repr

/-- A root node of context 0 (R281): the window at its own physical address, modulo 2^48. DEDUCED: R281 gives every root node R, W
and X, R349 the nodes 10, 11, 12 + e and 28 + j R and W; those have `x` false (notes/assumptions/44.md). -/
def rootNode (pgn count : Nat) (x : Bool := true) : Node :=
  { vgn := pgn % 68719476736, ctx := 0, root := true, pgn := pgn, count := count, x := x }

/-- The machine right after a cold start (R365) that found no expander: HBM zeroed, every queue unbound, root nodes 1
to 8 over the stacks (H7 stopping below the mapping store), 9 over the direct windows (R281), 10 and 11 over the host
ports (R349), context 0 live, with a key (R362). Values the spec does not give are those of notes/assumptions/13.md. -/
def State.reset : State :=
  { tru := { verified := true, keys := [(0, 0)] }
    fresh := 1
    com := { limit := [(0, 6360), (1, 6360), (2, 6360), (3, 6360)] }
    map :=
      { ctxs := [(0, { st := .live, scope := 5, flights := 2 ^ 160 - 1 })]
        nodes :=
          [(1, rootNode 0 25165824), (2, rootNode 25165824 25165824), (3, rootNode 50331648 25165824),
           (4, rootNode 75497472 25165824), (5, rootNode 100663296 25165824), (6, rootNode 125829120 25165824),
           (7, rootNode 150994944 25165824), (8, rootNode 176160768 24903680),
           (9, rootNode 1082331758592 1073741824),
           (10, rootNode 34359738368 8589934592 false), (11, rootNode 42949672960 8589934592 false)] } }

end Sys2Proof.Machine
end

