-- ==== Sys2Proof/Machine/Flags.lean ====
section
/-! DEFINITION. Number formats, rounding and the exception flags (02_numbers R20 to R45, R373). A finite value is a
sign, a natural significand and a binary exponent, always exact; a rounding also takes a sticky bit that says the
magnitude lies strictly between the significand and its successor. Flag sets use the layout of R44 bits 4:0. -/

namespace Sys2Proof.Machine

/-! ## Flags (R43, R44) -/

def flNV : Nat := 16
def flDZ : Nat := 8
def flOF : Nat := 4
def flUF : Nat := 2
def flNX : Nat := 1

/-- A delivered code and the flags it raises. -/
structure Res where
  code : Nat
  fl : Nat := 0
  deriving DecidableEq, Repr

/-! ## Values -/

/-- The value of a code (R20): NaN, an infinity, or (−1)^neg × m × 2^e. -/
inductive FVal
  | nan
  | inf (neg : Bool)
  | fin (neg : Bool) (m : Nat) (e : Int)
  deriving DecidableEq, Repr

/-- A binary floating-point format: exponent bits, fraction bits, bias, and what its top exponent holds. -/
structure Fmt where
  eb : Nat
  mb : Nat
  bias : Nat
  /-- the largest finite magnitude code -/
  maxc : Nat
  hasInf : Bool
  hasNan : Bool
  /-- the canonical NaN (R23) -/
  cnan : Nat
  deriving DecidableEq, Repr

def fmtF32 : Fmt := ⟨8, 23, 127, 0x7F7FFFFF, true, true, 0x7FC00000⟩
def fmtBF16 : Fmt := ⟨8, 7, 127, 0x7F7F, true, true, 0x7FC0⟩
def fmtE4M3 : Fmt := ⟨4, 3, 7, 0x7E, false, true, 0x7F⟩
def fmtE5M2 : Fmt := ⟨5, 2, 15, 0x7B, true, true, 0x7E⟩
def fmtE2M1 : Fmt := ⟨2, 1, 1, 7, false, false, 0⟩

/-- The format of a class F type; the other classes have none and read as FP32. -/
def etyFmt : ETy → Fmt
  | .bf16 => fmtBF16 | .e4m3 => fmtE4M3 | .e5m2 => fmtE5M2 | _ => fmtF32

def xtyFmt : XTy → Fmt
  | .f32 => fmtF32 | .bf16 => fmtBF16 | .e4m3 => fmtE4M3 | .e5m2 => fmtE5M2

def Fmt.width (f : Fmt) : Nat := f.eb + f.mb + 1
def Fmt.sign (f : Fmt) (c : Nat) : Bool := c.testBit (f.eb + f.mb)
def Fmt.mag (f : Fmt) (c : Nat) : Nat := c % 2 ^ (f.eb + f.mb)
def Fmt.signBit (f : Fmt) (neg : Bool) : Nat := if neg then 2 ^ (f.eb + f.mb) else 0
/-- The code of an infinity, where the format has one (R20). -/
def Fmt.infc (f : Fmt) : Nat := (2 ^ f.eb - 1) * 2 ^ f.mb
/-- The exponent of the last place of a subnormal. -/
def Fmt.emin (f : Fmt) : Int := 1 - (f.bias : Int) - (f.mb : Int)

/-- Is the code a NaN (R22 to R25)? -/
def Fmt.isNan (f : Fmt) (c : Nat) : Bool :=
  f.hasNan && (if f.hasInf then decide (f.infc < f.mag c) else decide (f.maxc < f.mag c))

/-- Is it a signalling NaN? Only FP32 and BF16 have them (R22). -/
def Fmt.isSNan (f : Fmt) (c : Nat) : Bool := f.isNan c && (f.eb == 8) && !c.testBit (f.mb - 1)

/-- The code with its quiet bit set, where the format has one (R23). -/
def Fmt.quiet (f : Fmt) (c : Nat) : Nat := if f.eb == 8 then c ||| 2 ^ (f.mb - 1) else c

/-- The value of a code. -/
def Fmt.val (f : Fmt) (c : Nat) : FVal :=
  if f.isNan c then .nan
  else if f.hasInf && (f.mag c == f.infc) then .inf (f.sign c)
  else
    let e := f.mag c / 2 ^ f.mb
    let m := f.mag c % 2 ^ f.mb
    if e = 0 then .fin (f.sign c) m f.emin
    else .fin (f.sign c) (m + 2 ^ f.mb) (f.emin + (e : Int) - 1)

/-- Number of bits of a natural number. -/
def bitLen (n : Nat) : Nat := if n = 0 then 0 else n.log2 + 1

/-! ## Rounding (R33) -/

/-- Does a rounding step away from zero? `r` of `2^sh` was cut off, `st` says more than `r` was, `odd` is bit 0 of
what is kept. -/
def roundsUp (rm : RMode) (neg : Bool) (r sh : Nat) (st odd : Bool) : Bool :=
  match rm with
  | .rtz => false
  | .rup => !neg && (r != 0 || st)
  | .rdn => neg && (r != 0 || st)
  | .rne =>
    if sh = 0 then false
    else if r = 2 ^ (sh - 1) then st || odd
    else decide (2 ^ (sh - 1) < r)

/-- A magnitude `m × 2^e` (and a little more with `st`) as a multiple of `2^q`, and whether that is exact. -/
def roundAt (rm : RMode) (neg : Bool) (m : Nat) (e : Int) (st : Bool) (q : Int) : Nat × Bool :=
  if q ≤ e then (m * 2 ^ (e - q).toNat + (if st && rm == .rup && !neg || st && rm == .rdn && neg then 1 else 0), !st)
  else
    let sh := (q - e).toNat
    let k := m / 2 ^ sh
    let r := m % 2 ^ sh
    (k + (roundsUp rm neg r sh st (k % 2 == 1)).toNat, r == 0 && !st)

/-- What a non-saturating overflow delivers (R34): infinity, or the largest finite value. -/
def overflowInf (rm : RMode) (neg : Bool) : Bool :=
  match rm with | .rne => true | .rtz => false | .rup => !neg | .rdn => neg

/-- `round` into a binary format with the flags of R43 and R373: a nonzero magnitude `m × 2^e`. -/
def Fmt.roundMag (f : Fmt) (r : Rnd) (neg : Bool) (m : Nat) (e : Int) (st : Bool) : Res :=
  let top : Int := e + bitLen m - 1
  let q := max (top - f.mb) f.emin
  let (k, exact) := roundAt r.mode neg m e st q
  let c := ((q - f.emin).toNat) * 2 ^ f.mb + k
  if f.maxc < c then
    let mag :=
      if r.sat || !overflowInf r.mode neg then f.maxc
      else if f.hasInf then f.infc
      else if f.hasNan then f.cnan else f.maxc
    ⟨mag + f.signBit neg, flOF + flNX⟩
  else
    let (ku, _) := roundAt r.mode neg m e st (top - f.mb)
    let tiny := decide (top < 1 - (f.bias : Int)) && !(decide (top = -(f.bias : Int)) && ku == 2 ^ (f.mb + 1))
    ⟨c + f.signBit neg, if exact then 0 else if tiny then flUF + flNX else flNX⟩

/-- `round` of an exact or sticky finite value; a zero keeps the sign given. -/
def Fmt.round (f : Fmt) (r : Rnd) (neg : Bool) (m : Nat) (e : Int) (st : Bool := false) : Res :=
  if m = 0 && !st then ⟨f.signBit neg, 0⟩ else f.roundMag r neg m e st

def rneN : Rnd := ⟨.rne, false⟩

/-! ## RL formats (R27 to R30) -/

/-- Number of leading ones among the low `n` bits of `m`. -/
def leadOnes (m : Nat) : Nat → Nat
  | 0 => 0
  | n + 1 => if m.testBit n then leadOnes m n + 1 else 0

/-- Significand and exponent of a nonzero RL magnitude code of `n` bits with `ne` exponent bits (R27). -/
def rlMag (n ne m : Nat) : Nat × Int :=
  let k := leadOnes m n
  let rest := n - k - (if k < n then 1 else 0)
  let eb := min ne rest
  let nf := rest - eb
  let e := (m / 2 ^ nf % 2 ^ eb) * 2 ^ (ne - eb)
  let f := m % 2 ^ nf
  -- 2 − (f + 1) × 2^−nf, as an integer over 2^nf
  (2 * 2 ^ nf - (f + 1), -((2 ^ ne * k + e : Nat) : Int) - (nf : Int))

/-- The value of an RL code of width `n + 1`. -/
def rlVal (n ne c : Nat) : FVal :=
  let m := c % 2 ^ n
  if m = 0 then (if c.testBit n then .nan else .fin false 0 0)
  else let (k, e) := rlMag n ne m; .fin (c.testBit n) k e

/-- Compare two magnitudes `m × 2^e`. -/
def magLe (m1 : Nat) (e1 : Int) (m2 : Nat) (e2 : Int) : Bool :=
  let e := min e1 e2
  decide (m1 * 2 ^ (e1 - e).toNat ≤ m2 * 2 ^ (e2 - e).toNat)

/-- The greatest code `c` from `lo` with value at least the magnitude, by `n` halvings (codes fall in value). -/
def rlFind (n ne m : Nat) (e : Int) : Nat → Nat → Nat
  | 0, lo => lo
  | k + 1, lo =>
    let mid := lo + 2 ^ k
    if mid < 2 ^ n && (let v := rlMag n ne mid; magLe m e v.1 v.2) then rlFind n ne m e k mid
    else rlFind n ne m e k lo

/-- Encode a nonzero finite magnitude into an RL format (R30, R33, R34, R43). -/
def rlRound (n ne : Nat) (r : Rnd) (neg : Bool) (m : Nat) (e : Int) : Res :=
  let top := rlMag n ne 1
  if !magLe m e top.1 top.2 then ⟨1 + (if neg then 2 ^ n else 0), flOF + flNX⟩
  else
    let hi := rlFind n ne m e n 0
    let vh := rlMag n ne hi
    if magLe vh.1 vh.2 m e then ⟨hi + (if neg then 2 ^ n else 0), 0⟩
    else
      let last := 2 ^ n - 1
      let lo := if hi = last then 0 else hi + 1
      let vl := if hi = last then (0, vh.2) else rlMag n ne lo
      -- the three magnitudes and the middle, over one exponent
      let q := min (min vh.2 vl.2) e - 1
      let H := vh.1 * 2 ^ (vh.2 - q).toNat
      let L := vl.1 * 2 ^ (vl.2 - q).toNat
      let X := m * 2 ^ (e - q).toNat
      let up := match r.mode with
        | .rtz => false
        | .rup => !neg
        | .rdn => neg
        | .rne => if 2 * X = H + L then hi % 2 == 0 else decide (H + L < 2 * X)
      let c := if up then hi else lo
      ⟨if c = 0 then 0 else c + (if neg then 2 ^ n else 0), if c = 0 then flUF + flNX else flNX⟩

/-! ## Element types in the TYPE codes of R104 -/

/-- Width in bits of a TYPE code 0 to 9. DESIGN CHOICE: a reserved code, whose command is refused, counts as 8 wide
(notes/assumptions/26.md). -/
def tyWidth (t : Nat) : Nat :=
  if t = 0 ∨ t = 5 then 32 else if t = 1 ∨ t = 6 then 16 else if t = 8 then 4 else if t = 9 then 6 else 8

/-- A two's-complement reading of the low `w` bits (R31). -/
def sintOf (w c : Nat) : Int := let x := c % 2 ^ w; if 2 ^ (w - 1) ≤ x then (x : Int) - 2 ^ w else x

/-- The `w`-bit pattern of an integer modulo `2^w`. -/
def ofSint (w : Nat) (i : Int) : Nat := (i % (2 ^ w : Int)).toNat

def tyFmt (t : Nat) : Fmt :=
  if t = 1 then fmtBF16 else if t = 2 then fmtE4M3 else if t = 3 then fmtE5M2 else if t = 8 then fmtE2M1 else fmtF32

def tyIsF (t : Nat) : Bool := t < 4 || t == 8
def tyIsI (t : Nat) : Bool := t == 5 || t == 6 || t == 7
def tyIsL (t : Nat) : Bool := t == 4 || t == 9

/-- The value of an element code. -/
def tyVal (t c : Nat) : FVal :=
  if t = 4 then rlVal 7 2 c else if t = 9 then rlVal 5 1 c
  else if tyIsI t then (let i := sintOf (tyWidth t) c; .fin (decide (i < 0)) i.natAbs 0)
  else (tyFmt t).val c

/-! ## Conversions (R34, R373) -/

/-- The NaN that a conversion delivers for a NaN source (R34). -/
def convNan (src c dst : Nat) : Nat :=
  if tyIsL dst then (if dst = 4 then 0x80 else 0x20)
  else
    let f := tyFmt dst
    let neg := !tyIsL src && (tyFmt src).sign c
    if src = dst then (tyFmt dst).quiet c
    else if (src = 0 ∧ dst = 1) then ((c / 65536) ||| 0x40)
    else if (src = 1 ∧ dst = 0) then (c * 65536) ||| 0x400000
    else f.cnan + f.signBit neg

/-- Round a finite value to an integer (R33): the integer and whether it is exact. DEDUCED: a conversion to INT tests the range of
this integer and not of the value (notes/assumptions/40.md). -/
def roundInt (rm : RMode) (neg : Bool) (m : Nat) (e : Int) : Int × Bool :=
  let (k, ex) := roundAt rm neg m e false 0
  (if neg then -(k : Int) else k, ex)

/-- `convert(x, dst, rm)`: R33, R34, R373. `src` and `dst` are TYPE codes; E2M1 (8) takes finite values only. DEDUCED: a finite value
outside the range of an INT type that rounds back into it is in range: it is rounded, with NX, where R33's test of |x| and
R373's "out of range" can be read as overflow with NV (notes/assumptions/40.md). -/
def convert (src c dst : Nat) (r : Rnd) : Res :=
  match tyVal src c with
  | .nan =>
    if tyIsI dst then ⟨if r.sat then 0 else 2 ^ (tyWidth dst - 1), flNV⟩
    else ⟨convNan src c dst, if tyIsF src && (tyFmt src).isSNan c then flNV else 0⟩
  | .inf neg =>
    if tyIsI dst then
      ⟨if r.sat && !neg then 2 ^ (tyWidth dst - 1) - 1 else 2 ^ (tyWidth dst - 1), flNV⟩
    else if tyIsL dst then
      ⟨1 + (if neg then 2 ^ (tyWidth dst - 1) else 0), flNX⟩
    else
      let f := tyFmt dst
      if r.sat || !f.hasNan then ⟨f.maxc + f.signBit neg, flNX⟩
      else if f.hasInf then ⟨f.infc + f.signBit neg, 0⟩
      else ⟨f.cnan + f.signBit neg, flNV⟩
  | .fin neg m e =>
    if tyIsI dst then
      let w := tyWidth dst
      let (i, ex) := roundInt r.mode neg m e
      if i < -(2 ^ (w - 1) : Int) ∨ (2 ^ (w - 1) : Int) ≤ i then
        ⟨if r.sat && !neg then 2 ^ (w - 1) - 1 else 2 ^ (w - 1), flNV⟩
      else ⟨ofSint w i, if ex then 0 else flNX⟩
    else if tyIsL dst then
      if m = 0 then ⟨0, 0⟩ else if dst = 4 then rlRound 7 2 r neg m e else rlRound 5 1 r neg m e
    else (tyFmt dst).round r (neg && !(tyIsI src && m == 0)) m e

/-! ## Arithmetic on one format (R23, R130 to R138) -/

/-- The first NaN of the operands, quieted, and whether any is signalling (R23). -/
def nanOf (f : Fmt) (l : List Nat) : Option Nat := (l.find? f.isNan).map f.quiet
def snanFlag (f : Fmt) (l : List Nat) : Nat := if l.any f.isSNan then flNV else 0

/-- Signed exact sum of two finite values. -/
def sumFin (n1 : Bool) (m1 : Nat) (e1 : Int) (n2 : Bool) (m2 : Nat) (e2 : Int) : Int × Int :=
  let e := min e1 e2
  let a : Int := m1 * 2 ^ (e1 - e).toNat
  let b : Int := m2 * 2 ^ (e2 - e).toNat
  ((if n1 then -a else a) + (if n2 then -b else b), e)

/-- Deliver an exact sum (R130, R33): a zero sum of equal signs keeps the sign, of opposite signs is +0 (−0 under
`.rdn`). -/
def Fmt.deliverSum (f : Fmt) (r : Rnd) (n1 n2 : Bool) (s : Int × Int) : Res :=
  if s.1 = 0 then ⟨f.signBit (if n1 == n2 then n1 else r.mode == .rdn), 0⟩
  else f.round r (decide (s.1 < 0)) s.1.natAbs s.2

/-- Addition of two values, NaNs excluded by the caller; infinities of both signs are invalid. -/
def Fmt.addVal (f : Fmt) (r : Rnd) (x y : FVal) : Res :=
  match x, y with
  | .inf a, .inf b => if a == b then ⟨f.infc + f.signBit a, 0⟩ else ⟨f.cnan, flNV⟩
  | .inf a, _ => ⟨f.infc + f.signBit a, 0⟩
  | _, .inf b => ⟨f.infc + f.signBit b, 0⟩
  | .fin n1 m1 e1, .fin n2 m2 e2 => f.deliverSum r n1 n2 (sumFin n1 m1 e1 n2 m2 e2)
  | _, _ => ⟨f.cnan, flNV⟩

/-- The exact product of two values; 0 × ∞ is `nan`. -/
def mulVal (x y : FVal) : FVal :=
  match x, y with
  | .inf a, .inf b => .inf (a != b)
  | .inf a, .fin n m _ => if m = 0 then .nan else .inf (a != n)
  | .fin n m _, .inf b => if m = 0 then .nan else .inf (n != b)
  | .fin n1 m1 e1, .fin n2 m2 e2 => .fin (n1 != n2) (m1 * m2) (e1 + e2)
  | _, _ => .nan

def negVal : FVal → FVal
  | .nan => .nan
  | .inf a => .inf (!a)
  | .fin n m e => .fin (!n) m e

/-- `VADD` and, with the second value negated, `VSUB` (R131). -/
def fpAdd (f : Fmt) (a b : Nat) (sub : Bool := false) : Res :=
  match nanOf f [a, b] with
  | some c => ⟨c, snanFlag f [a, b]⟩
  | none => f.addVal rneN (f.val a) (if sub then negVal (f.val b) else f.val b)

/-- A product value delivered by rounding; an infinity of a format without one is its NaN (not reached: such a format
has no infinite operand). -/
def Fmt.deliver (f : Fmt) (r : Rnd) : FVal → Res
  | .nan => ⟨f.cnan, flNV⟩
  | .inf n => ⟨(if f.hasInf then f.infc else f.cnan) + f.signBit n, 0⟩
  | .fin n m e => f.round r n m e

def fpMul (f : Fmt) (a b : Nat) : Res :=
  match nanOf f [a, b] with
  | some c => ⟨c, snanFlag f [a, b]⟩
  | none => f.deliver rneN (mulVal (f.val a) (f.val b))

/-- `VDIV` (R131): 0/0 and ∞/∞ are invalid; a finite nonzero value by ±0 gives ±∞ with DZ, the E4M3 NaN of its sign
where the format has no infinity (R130). -/
def fpDiv (f : Fmt) (a b : Nat) : Res :=
  match nanOf f [a, b] with
  | some c => ⟨c, snanFlag f [a, b]⟩
  | none =>
    match f.val a, f.val b with
    | .inf x, .fin n _ _ => ⟨f.infc + f.signBit (x != n), 0⟩
    | .fin n _ _, .inf y => ⟨f.signBit (n != y), 0⟩
    | .fin n1 m1 e1, .fin n2 m2 e2 =>
      if m2 = 0 then
        if m1 = 0 then ⟨f.cnan, flNV⟩
        else ⟨(if f.hasInf then f.infc else f.cnan) + f.signBit (n1 != n2), flDZ⟩
      else if m1 = 0 then ⟨f.signBit (n1 != n2), 0⟩
      else
        let num := m1 * 2 ^ 80
        f.round rneN (n1 != n2) (num / m2) (e1 - 80 - e2) (num % m2 != 0)
    | _, _ => ⟨f.cnan, flNV⟩

/-- Order of two codes that are no NaNs, −0 below +0: a key that rises with the value. -/
def Fmt.key (f : Fmt) (c : Nat) : Int :=
  if f.sign c then -(f.mag c : Int) - 1 else f.mag c

/-- `VMIN` and `VMAX` for class F (R131). -/
def fpMinMax (f : Fmt) (mx : Bool) (a b : Nat) : Res :=
  match nanOf f [a, b] with
  | some c => ⟨c, snanFlag f [a, b]⟩
  | none =>
    if mx then ⟨if f.key b ≤ f.key a then a else b, 0⟩ else ⟨if f.key a ≤ f.key b then a else b, 0⟩

/-- The fused words (R137): ±(a × b) ± c, rounded once. NaN order va, vb, vd; 0 × ∞ raises NV even beside a NaN c. -/
def fpFma (f : Fmt) (negP negC : Bool) (a b c : Nat) : Res :=
  let p := mulVal (f.val a) (f.val b)
  match nanOf f [a, b] with
  | some x => ⟨x, snanFlag f [a, b, c]⟩
  | none =>
    let inv := p == .nan
    match nanOf f [c] with
    | some x => ⟨x, if inv then flNV else snanFlag f [c]⟩
    | none =>
      if inv then ⟨f.cnan, flNV⟩
      else f.addVal rneN (if negP then negVal p else p) (if negC then negVal (f.val c) else f.val c)

/-- Integer square root, `n` bits of result. -/
def isqrt (m : Nat) : Nat → Nat → Nat
  | 0, acc => acc
  | n + 1, acc =>
    let t := acc + 2 ^ n
    if t * t ≤ m then isqrt m n t else isqrt m n acc

/-- `VSQRT` (R132). -/
def fpSqrt (f : Fmt) (a : Nat) : Res :=
  match nanOf f [a] with
  | some c => ⟨c, snanFlag f [a]⟩
  | none =>
    match f.val a with
    | .inf n => if n then ⟨f.cnan, flNV⟩ else ⟨a, 0⟩
    | .fin n m e =>
      if m = 0 then ⟨a, 0⟩
      else if n then ⟨f.cnan, flNV⟩
      else
        -- an even exponent, and 128 further bits
        let odd := e % 2 != 0
        let m' := m * 2 ^ (128 + odd.toNat)
        let e' := (e - odd.toNat) / 2 - 64
        let s := isqrt m' 90 0
        f.round rneN false s e' (s * s != m')
    | .nan => ⟨f.cnan, flNV⟩

/-! ## Powers and logarithms of two, to 160 fraction bits (notes/assumptions/10.md) -/

/-- floor(ln 2 × 2^160) -/
def ln2P : Nat := 1013035739299659071135698605846798551586536899366

/-- Σ y^k / k! in fixed point, `n` more terms. -/
def expSeries (y : Nat) : Nat → Nat → Nat → Nat → Nat
  | 0, _, _, acc => acc
  | n + 1, k, t, acc => let t' := t * y / 2 ^ 160 / k; expSeries y n (k + 1) t' (acc + t')

/-- floor(2^f × 2^160), nearly, for f = x / 2^160 in [0, 1). -/
def exp2P (x : Nat) : Nat := expSeries (x * ln2P / 2 ^ 160) 48 1 (2 ^ 160) (2 ^ 160)

/-- Σ z^(2k+1) / (2k+1) in fixed point, `n` more terms; `zz` is z². -/
def atanhSeries (zz : Nat) : Nat → Nat → Nat → Nat → Nat
  | 0, _, _, acc => acc
  | n + 1, k, t, acc => atanhSeries zz n (k + 2) (t * zz / 2 ^ 160) (acc + t / k)

/-- log2 of y = m / 2^(bitLen m − 1) in [1, 2), in fixed point. -/
def log2P (m : Nat) : Nat :=
  let one := 2 ^ (bitLen m - 1)
  let z := (m - one) * 2 ^ 160 / (m + one)
  2 * atanhSeries (z * z / 2 ^ 160) 56 1 z 0 * 2 ^ 160 / ln2P

/-- `VEXP2` (R132). -/
def fpExp2 (f : Fmt) (a : Nat) : Res :=
  match nanOf f [a] with
  | some c => ⟨c, snanFlag f [a]⟩
  | none =>
    match f.val a with
    | .inf n => if n then ⟨0, 0⟩ else ⟨a, 0⟩
    | .nan => ⟨f.cnan, flNV⟩
    | .fin n m e =>
      if m = 0 then f.round rneN false 1 0
      else
        let top := e + bitLen m - 1
        if 12 ≤ top then
          -- beyond every format's range: 2^±4096 and a little more or less
          f.round rneN false 1 (if n then -4096 else 4096) true
        else if top < -60 then
          -- 1 ± a magnitude below 2^−60
          (if n then f.round rneN false (2 ^ 64 - 1) (-64) true else f.round rneN false (2 ^ 64) (-64) true)
        else
          -- |a| × 2^160 is an integer
          let x : Int := (if n then -1 else 1) * (m * 2 ^ (e + 160).toNat : Nat)
          let ip := x / (2 ^ 160 : Int)
          let fp := (x % (2 ^ 160 : Int)).toNat
          if fp = 0 then f.round rneN false 1 ip else f.round rneN false (exp2P fp) (ip - 160) true

/-- `VLOG2` (R132). -/
def fpLog2 (f : Fmt) (a : Nat) : Res :=
  match nanOf f [a] with
  | some c => ⟨c, snanFlag f [a]⟩
  | none =>
    match f.val a with
    | .inf n => if n then ⟨f.cnan, flNV⟩ else ⟨a, 0⟩
    | .nan => ⟨f.cnan, flNV⟩
    | .fin n m e =>
      if m = 0 then ⟨(if f.hasInf then f.infc else f.cnan) + f.signBit true, flDZ⟩
      else if n then ⟨f.cnan, flNV⟩
      else
        let k : Int := e + bitLen m - 1
        if m = 2 ^ (bitLen m - 1) then f.round rneN (decide (k < 0)) k.natAbs 0
        else
          let v : Int := k * (2 ^ 160 : Int) + log2P m
          if v < 0 then f.round rneN true (v.natAbs - 1) (-160) true
          else f.round rneN false v.natAbs (-160) true

/-- Numerical comparison of codes that are no NaNs: −1, 0 or 1; −0 equals +0 (R138). -/
def fpCmp (f : Fmt) (a b : Nat) : Int :=
  let k (c : Nat) : Int := if f.sign c then -(f.mag c : Int) else f.mag c
  if k a < k b then -1 else if k a = k b then 0 else 1

/-! ## The exact accumulator (R36, R37, R39) -/

def xaNan : Nat := 2 ^ 511
def xaPinf : Nat := 2 ^ 511 - 1
def xaNinf : Nat := 2 ^ 511 + 1

/-- `xa_add`, as the pseudocode of R37 has it. DEDUCED (notes/assumptions/41): a zero added to a finite cell of 2^448 or more in
magnitude, which only a store can leave, gives the infinity code, where the sentence after the pseudocode leaves the cell
unchanged; and finite adds that reach an infinity code before an infinite add of the other sign give NaN, where the first case
of R38 would make the order not matter. -/
def xaAdd (c : Nat) (x : FVal) : Nat :=
  match x with
  | .nan => xaNan
  | .inf n =>
    if c = xaNan then xaNan
    else if (n && c == xaPinf) || (!n && c == xaNinf) then xaNan
    else if n then xaNinf else xaPinf
  | .fin n m e =>
    if c = xaNan then xaNan
    else if c = xaPinf ∨ c = xaNinf then c
    else
      let v : Int := m * 2 ^ (e + 256).toNat
      let t := sintOf 512 c + (if n then -v else v)
      if (2 ^ 448 : Int) ≤ t then xaPinf
      else if t ≤ -(2 ^ 448 : Int) then xaNinf
      else ofSint 512 t

/-- `xa_read` (R39), with its flags. -/
def xaRead (c : Nat) (f : Fmt) (r : Rnd) : Res :=
  if c = xaNan then ⟨f.cnan, 0⟩
  else if c = xaPinf ∨ c = xaNinf then
    let n := decide (c = xaNinf)
    if r.sat then ⟨f.maxc + f.signBit n, flNX⟩ else ⟨f.infc + f.signBit n, 0⟩
  else
    let i := sintOf 512 c
    if i = 0 then ⟨0, 0⟩ else f.round r (decide (i < 0)) i.natAbs (-256)

/-! ## Block scales (R25, R35) -/

/-- An element value times the factor of an E8M0 scale; 0xFF makes it NaN. -/
def scaleVal (v : FVal) (sc : Nat) : FVal :=
  if sc = 255 then .nan
  else match v with
    | .fin n m e => .fin n m (e + (sc : Int) - 127)
    | v => v

/-- `block_scale` (R35) of a block of values for destination type 8 (E2M1), 4 (RL8) or 9 (RL6). -/
def blockScale (vs : List FVal) (dst : Nat) : Nat :=
  if vs.any (fun v => match v with | .fin _ _ _ => false | _ => true) then 255
  else
    -- the largest magnitude
    let amax := vs.foldl (fun (acc : Nat × Int) v =>
      match v with | .fin _ m e => if magLe m e acc.1 acc.2 then acc else (m, e) | _ => acc) (0, 0)
    if amax.1 = 0 then 0
    else
      let top : Int := amax.2 + bitLen amax.1 - 1
      let s : Int :=
        if dst = 8 then top - 2
        else
          -- least s with amax ≤ maxval × 2^s, maxval 1.875 or 1.75
          let mv : Nat × Int := if dst = 4 then (15, -3) else (7, -2)
          if magLe amax.1 amax.2 mv.1 (mv.2 + top) then top else top + 1
      (max (-127) (min s 127) + 127).toNat

/-- Encode a value into element type `dst` (R34, R35), for a conversion with no flag. DEDUCED (notes/assumptions/41): the NaN of an
E2M1 element under block scale 0xFF (R25) is delivered positive, since R34 names the sources E4M3, E5M2 and RL only. -/
def encodeVal (v : FVal) (dst : Nat) (r : Rnd) : Nat :=
  match v with
  | .fin n m e =>
    if dst = 4 then (if m = 0 then 0 else (rlRound 7 2 r n m e).code)
    else if dst = 9 then (if m = 0 then 0 else (rlRound 5 1 r n m e).code)
    else if dst = 8 then ((fmtE2M1.round r n m e)).code
    else if tyIsI dst then
      let w := tyWidth dst
      let i := (roundInt r.mode n m e).1
      if i < -(2 ^ (w - 1) : Int) ∨ (2 ^ (w - 1) : Int) ≤ i then
        (if r.sat && !n then 2 ^ (w - 1) - 1 else 2 ^ (w - 1))
      else ofSint w i
    else ((tyFmt dst).round r n m e).code
  | .inf n =>
    if tyIsI dst then (if r.sat && !n then 2 ^ (tyWidth dst - 1) - 1 else 2 ^ (tyWidth dst - 1))
    else if tyIsL dst then 1 + (if n then 2 ^ (tyWidth dst - 1) else 0)
    else
      let f := tyFmt dst
      if r.sat || !f.hasNan then f.maxc + f.signBit n
      else if f.hasInf then f.infc + f.signBit n else f.cnan + f.signBit n
  | .nan =>
    if tyIsI dst then (if r.sat then 0 else 2 ^ (tyWidth dst - 1))
    else if tyIsL dst then (if dst = 4 then 0x80 else 0x20)
    else (tyFmt dst).cnan

end Sys2Proof.Machine
end

