-- ==== Sys2Proof/Machine/Tables.lean ====
section
/-! DEFINITION. Sparse tables in one canonical form (keys strictly rising, no entry equal to the default), and the
accessors of the state's tables. -/

namespace Sys2Proof.Machine

variable {α : Type}

/-- The entry at a key. -/
def tget : Tab α → Nat → Option α
  | [], _ => none
  | (j, v) :: r, k => if k = j then some v else if k < j then none else tget r k

/-- The entry at a key, or the default. -/
def tgetD (d : α) (t : Tab α) (k : Nat) : α := (tget t k).getD d

/-- Set an entry. -/
def tset : Tab α → Nat → α → Tab α
  | [], k, v => [(k, v)]
  | (j, w) :: r, k, v => if k < j then (k, v) :: (j, w) :: r else if k = j then (k, v) :: r else (j, w) :: tset r k v

/-- Remove an entry. -/
def tdel : Tab α → Nat → Tab α
  | [], _ => []
  | (j, w) :: r, k => if k < j then (j, w) :: r else if k = j then r else (j, w) :: tdel r k

/-- Write an entry of a table with a default: writing the default removes the entry. -/
def tput [DecidableEq α] (d : α) (t : Tab α) (k : Nat) (v : α) : Tab α := if v = d then tdel t k else tset t k v

/-- Change an entry of a table with a default. -/
def tupd [DecidableEq α] (d : α) (t : Tab α) (k : Nat) (f : α → α) : Tab α := tput d t k (f (tgetD d t k))

/-- Are the keys of a table strictly rising and above `lo`? -/
def tsorted : Tab α → Nat → Bool
  | [], _ => true
  | (j, _) :: r, lo => decide (lo ≤ j) && tsorted r (j + 1)

/-- The canonical form of a table with a default. -/
def twf [DecidableEq α] (d : α) (t : Tab α) : Bool := tsorted t 0 && t.all (fun e => decide (e.2 ≠ d))

/-- The canonical form of memory: addresses strictly rising, no entry 0 (notes/assumptions/5.md). -/
def Memory.wf (m : Memory) : Bool := twf (0 : Byte) m

/-! ## Bytes and words (R1) -/

/-- The number of little-endian bytes. -/
def leNum : List Byte → Nat
  | [] => 0
  | b :: r => b.toNat + 256 * leNum r

/-- `n` little-endian bytes of a number. -/
def leBytes : Nat → Nat → List Byte
  | 0, _ => []
  | n + 1, v => BitVec.ofNat 8 v :: leBytes n (v / 256)

/-- Bits `lo` up to `lo + w` of a number. -/
def bits (x lo w : Nat) : Nat := x / 2 ^ lo % 2 ^ w

/-- Sign extension of the low `w` bits to a word (R109). -/
def sextW (w x : Nat) : Word := BitVec.ofInt 64 (sintW w x)
  where sintW (w x : Nat) : Int := let y := x % 2 ^ w; if 2 ^ (w - 1) ≤ y then (y : Int) - 2 ^ w else y

/-- The bytes of a range of a table. -/
def readTab (t : Tab Byte) (a : Nat) : Nat → List Byte
  | 0 => []
  | n + 1 => tgetD 0 t a :: readTab t (a + 1) n

/-- Write bytes from an address. -/
def writeTab : Tab Byte → Nat → List Byte → Tab Byte
  | t, _, [] => t
  | t, a, b :: r => writeTab (tput 0 t a b) (a + 1) r

/-- Write the same value at every key of a range. -/
def fillTab [DecidableEq α] (d : α) : Tab α → Nat → Nat → α → Tab α
  | t, _, 0, _ => t
  | t, a, n + 1, v => fillTab d (tput d t a v) (a + 1) n v

/-- Drop every entry whose key lies in a range. -/
def clearRange (t : Tab α) (a n : Nat) : Tab α := t.filter (fun e => !(decide (a ≤ e.1) && decide (e.1 < a + n)))

/-! ## The state's tables -/

/-- The barge of an id. -/
def State.barge? (s : State) (bid : Nat) : Option Barge := tget s.barges bid
def State.barge (s : State) (bid : Nat) : Barge := tgetD {} s.barges bid
/-- Replace a barge. -/
def State.setB (s : State) (bid : Nat) (b : Barge) : State := { s with barges := tset s.barges bid b }
/-- Change a barge that exists. -/
def State.updB (s : State) (bid : Nat) (f : Barge → Barge) : State :=
  match tget s.barges bid with
  | none => s
  | some b => s.setB bid (f b)

def State.ctx (s : State) (c : Nat) : Ctx := tgetD {} s.map.ctxs c
def State.updCtx (s : State) (c : Nat) (f : Ctx → Ctx) : State :=
  { s with map := { s.map with ctxs := tupd {} s.map.ctxs c f } }
def State.chan (s : State) (c : Nat) : Channel := tgetD {} s.map.chans c
def State.updChan (s : State) (c : Nat) (f : Channel → Channel) : State :=
  { s with map := { s.map with chans := tupd {} s.map.chans c f } }
def State.leaseMaxOf (s : State) (core : Nat) : Nat := tgetD 256 s.leasemax core

/-- Geometry (R4, R11): flight, span and die of a core. -/
def flightOf (core : Nat) : Nat := core / 4
def spanOf (core : Nat) : Nat := core / 80
def dieOf (core : Nat) : Nat := core / 160

/-- Add one to a context's wharf error count, saturating at 48 bits (R327, R333). -/
def State.wharfError (s : State) (ctx : Nat) : State :=
  { s with whf := { s.whf with errs := tupd 0 s.whf.errs ctx (fun n => min (n + 1) (2 ^ 48 - 1)) } }

/-- Two half-open ranges of numbers overlap. -/
def overlaps (a n b m : Nat) : Bool := decide (a < b + m) && decide (b < a + n) && decide (0 < n) && decide (0 < m)

/-- The scratchpad window of a barge in bytes (R98, R101). -/
def Barge.footprint (b : Barge) : Nat := b.spf * 4096

/-- The barge that is member `m` of the gang of barge `bid`; a barge outside a gang is its own member 0 (R101). -/
def State.member (s : State) (bid : Nat) (m : Nat) : Option Nat :=
  match s.barge? bid with
  | none => none
  | some b =>
    if b.gang = 0 then (if m = 0 then some bid else none)
    else (s.barges.find? (fun e => e.2.gang == b.gang && e.2.gmem == m)).map (·.1)

end Sys2Proof.Machine
end

