-- ==== Sys2Proof/Machine/Counters.lean ====
section
/-! DEFINITION. Timelines (01_engines R15 to R17, 08_core_memory R169): reserving a number, finishing it with its
status, and what a status query reports. -/

namespace Sys2Proof.Machine

/-- The key of a timeline: KIND and INDEX (R169); kind 4 holds the host queue interfaces. -/
def tlKey (kind index : Nat) : Nat := kind * 65536 + index

def State.tl (s : State) (k : Nat) : Timeline := tgetD {} s.tls k
def State.setTl (s : State) (k : Nat) (t : Timeline) : State := { s with tls := tset s.tls k t }

/-- Reserve the next number for a context (R16). -/
def State.reserve (s : State) (k ctx : Nat) : Nat × State :=
  let t := s.tl k
  let n := t.issued + 1
  (n, s.setTl k { t with issued := n, latest := tset t.latest ctx n })

/-- Raise `completed` over the numbers that have finished, `f` at most. -/
def advance : Nat → Nat → List Nat → Nat × List Nat
  | 0, c, l => (c, l)
  | f + 1, c, l => if l.contains (c + 1) then advance f (c + 1) (l.erase (c + 1)) else (c, l)

/-- A number finishes with its status (R16): `completed` becomes the greatest n with 1 to n finished, and the 256 most
recently finished statuses are kept. -/
def Timeline.finish (t : Timeline) (e : Ended) : Timeline :=
  let l := e.n :: t.ahead
  let (c, l') := advance l.length t.completed l
  { t with completed := c, ahead := l', ends := (e :: t.ends).take 256 }

def State.finish (s : State) (k n code : Nat) (pgran done : Nat := 0) : State :=
  if n = 0 then s else s.setTl k ((s.tl k).finish ⟨n, code, pgran, done⟩)

/-- Has a number finished? -/
def Timeline.finished (t : Timeline) (n : Nat) : Bool := decide (n ≤ t.completed) || t.ahead.contains n

/-- What a status query reports of a number (R16): its code once it has finished, 14 while it is issued, 15 when it is
0, not issued or no longer kept. DESIGN CHOICE: PGRAN and DONE are 0 with 14 and 15, for which R212 gives them no value
(notes/assumptions/26.md). -/
def Timeline.status (t : Timeline) (n : Nat) : Ended :=
  if n = 0 ∨ t.issued < n then ⟨n, 15, 0, 0⟩
  else match t.ends.find? (fun e => e.n == n) with
    | some e => e
    | none => if t.finished n then ⟨n, 15, 0, 0⟩ else ⟨n, 14, 0, 0⟩

/-- The latest number a context reserved on a timeline. -/
def Timeline.latestOf (t : Timeline) (ctx : Nat) : Nat := tgetD 0 t.latest ctx

/-- The status word of R251, R273, R304: STATUS in bits 47:44. -/
def statusWord (e : Ended) : Word := BitVec.ofNat 64 (e.code * 2 ^ 44)

end Sys2Proof.Machine
end

