-- ==== Sys2Proof/Machine/Views.lean ====
section
/-! DEFINITION. Global memory: the homes of granules and the dies' views (09_core_ordering R175 to R177, 16_composer
R261 to R264), poison (R149), the L1 states behind leases and bank-share faults (R161, R163, R277), isolated targets
(R219, R357). -/

namespace Sys2Proof.Machine

/-! ## Windows of the physical address space -/

/-- The target behind a physical address (R349, R359): expander e is e, host port p is 0x100 + p, peer j is 0x200 + j;
none for HBM and direct windows. -/
def targetOf (pa : Nat) : Option Nat :=
  if 0x400000000000 ≤ pa ∧ pa < 0x500000000000 then some ((pa - 0x400000000000) / 2 ^ 40)
  else if 0x500000000000 ≤ pa ∧ pa < 0x600000000000 then some (0x200 + (pa - 0x500000000000) / 2 ^ 40)
  else if 0x800000000000 ≤ pa ∧ pa < 0xA00000000000 then some 0x100
  else if 0xA00000000000 ≤ pa ∧ pa < 0xC00000000000 then some 0x101
  else none

/-- The peer whose window holds a physical address (R349). -/
def peerOf (pa : Nat) : Option Nat :=
  match targetOf pa with
  | some t => if 0x200 ≤ t then some (t - 0x200) else none
  | none => none

/-- The direct-window region (R262). -/
def directBase : Nat := 0xFC00000000000
def inDirect (pa : Nat) : Bool := decide (directBase ≤ pa) && decide (pa < 0x10000000000000)

/-- The definition fields of a virtual cache (R259). -/
def VCache.die (v : VCache) : Nat := bits v.defw.toNat 10 2
def VCache.line (v : VCache) : Nat := 64 * 2 ^ bits v.defw.toNat 12 2
def VCache.ways (v : VCache) : Nat := 2 ^ bits v.defw.toNat 14 3
def VCache.policy (v : VCache) : Nat := bits v.defw.toNat 17 3
def VCache.hash (v : VCache) : Nat := bits v.defw.toNat 20 2

/-- Check 4 of R147: every byte in the direct-window region lies within the capacity of a defined direct virtual cache
(R262). -/
def State.directOk (s : State) (pa : Nat) : Bool :=
  if inDirect pa then
    match tget s.com.vc ((pa - directBase) / 2 ^ 32) with
    | some v => v.policy == 4 && v.state != 3 && decide ((pa - directBase) % 2 ^ 32 < v.shares.length * 16384)
    | none => false
  else true

/-- The die of the memory home of a physical address (R264). -/
def memHomeDie (s : State) (pa : Nat) : Nat :=
  if inDirect pa then
    match tget s.com.vc ((pa - directBase) / 2 ^ 32) with | some v => v.die | none => 0
  else
    match targetOf pa with
    | none => min 3 (pa / (96 * 2 ^ 30) / 2)
    | some t => if t < 16 then (if tgetD 0 s.hst.expanders t = 1 then 2 else 0) else if t = 0x101 then 2 else 0

/-- The die at whose home a write of the page is applied: the die of the virtual cache that serves it, or of its memory
home. `vc` is 1 + VCID, 0 for the memory home. -/
def State.homeDie (s : State) (vc pa : Nat) : Nat :=
  if vc = 0 then memHomeDie s pa
  else match tget s.com.vc (vc - 1) with | some v => v.die | none => memHomeDie s pa

/-! ## Views -/

def MemSt.view (m : MemSt) (d : Nat) : Memory :=
  match d with | 0 => m.view0 | 1 => m.view1 | 2 => m.view2 | _ => m.view3

def MemSt.setView (m : MemSt) (d : Nat) (v : Memory) : MemSt :=
  match d with
  | 0 => { m with view0 := v } | 1 => { m with view1 := v } | 2 => { m with view2 := v } | _ => { m with view3 := v }

/-- One byte in a die's view. -/
def State.byteAt (s : State) (d pa : Nat) : Byte := tgetD 0 (s.mem.view d) pa

/-- Bytes in a die's view. -/
def State.bytesAt (s : State) (d pa n : Nat) : List Byte := readTab (s.mem.view d) pa n

/-- Bytes at an address with a write of other bytes laid over them. -/
def patch (a : Nat) (cur : List Byte) (p : Nat) (bs : List Byte) : List Byte :=
  cur.zipIdx.map (fun e => if p ≤ a + e.2 ∧ a + e.2 < p + bs.length then bs.getD (a + e.2 - p) e.1 else e.1)

/-- Does a write change a byte of a range? -/
def Write.meets (w : Write) (pa n : Nat) : Bool := overlaps w.pa w.bytes.length pa n

/-- Is a write seen on a core before the view of its issuer's die holds it: in the issuer's core, its flight or its span
(R173, R175), or where a barge that saw it goes on? -/
def Write.seenBy (w : Write) (core : Nat) : Bool :=
  w.core == core || w.also.contains core || (decide (1 ≤ w.reach) && flightOf w.core == flightOf core) ||
    (decide (2 ≤ w.reach) && spanOf w.core == spanOf core)

/-- Bytes as a `.l1` load on a core sees them (R175): its die's view, with the writes that it sees before the view holds them. -/
def MemSt.seen (m : MemSt) (core pa n : Nat) : List Byte :=
  let lay (cur : List Byte) (w : Write) : List Byte := patch pa cur w.pa w.bytes
  let cur := (m.flight.filter (fun w => w.seenBy core && !w.views.contains (dieOf core))).foldl lay
    (readTab (m.view (dieOf core)) pa n)
  (m.out.filter (fun w => w.core == core)).foldl lay cur

def State.seenAt (s : State) (core pa n : Nat) : List Byte := s.mem.seen core pa n

/-- The writes of a list that `p` picks, with those that must come before one of them. -/
def needed (before : Write → Write → Bool) (p : Write → Bool) (l : List Write) : List Write :=
  l.foldr (fun w acc => if p w || acc.any (before w) then w :: acc else acc) []

/-- Writes of one core to one location enter the coherence order in the order of their release (R174, R176). -/
def Write.beforeOut (w v : Write) : Bool := w.core == v.core && w.meets v.pa v.bytes.length

/-- A view that holds `v` holds `w`: a write of the same location with an earlier place (R174), or one that the clock of
`v` counts (R177). -/
def Write.beforeIn (w v : Write) : Bool := w.meets v.pa v.bytes.length || v.clock.contains w.id

/-- Does a store wait behind a lease with the write of this id (R163)? -/
def MemSt.holds (m : MemSt) (id : Nat) : Bool :=
  m.leaseQ.any (fun r => match r with | .store _ _ i k _ _ _ _ => decide (i ≤ id) && decide (id < i + k) | _ => false)

/-- Released writes take their places in the coherence order (R174): those that `p` picks, and what must come before. -/
def MemSt.placeAny (m : MemSt) (p : Write → Bool) : MemSt :=
  let l := needed Write.beforeOut p m.out
  { m with out := m.out.filter (fun w => !l.any (fun v => v.id == w.id)), flight := m.flight ++ l }

/-- The same, but for those that wait behind a lease. -/
def MemSt.place (m : MemSt) (p : Write → Bool) : MemSt := m.placeAny (fun w => p w && !m.holds w.id)

/-- Change the placed write of an id; one that every view holds is on its way no longer. -/
def MemSt.setWrite (m : MemSt) (id : Nat) (f : Write → Write) : MemSt :=
  { m with flight := (m.flight.map (fun w => if w.id = id then f w else w)).filter (fun w => decide (w.views.length < 4)) }

/-- The granules of a range. -/
def granules (a n : Nat) : List Nat := (List.range ((a + n - 1) / 64 + 1 - a / 64)).map (· + a / 64)

/-- A write applied at a home: the copies that L1 instruction caches have of its granules go (R192). -/
def MemSt.dropCode (m : MemSt) (pa n : Nat) : MemSt :=
  { m with icache := m.icache.map (fun e => (e.1, e.2.filter (fun g => !(granules pa n).contains g))) }

/-- Does a die's view hold the granule of an address poisoned (R149)? -/
def MemSt.poisonedAt (m : MemSt) (d pa : Nat) : Bool := (tgetD 0 m.poison (pa / 64)).getLsbD (d % 4)

/-- The views of `ds` hold a granule poisoned no longer. -/
def MemSt.clean (m : MemSt) (ds : List Nat) (g : Nat) : MemSt :=
  { m with poison := ds.foldl (fun t d => tupd 0 t g (fun v => v &&& ~~~(1#4 <<< (d % 4)))) m.poison }

/-- The words on their way of the write of a whole granule that `w` is a word of. -/
def MemSt.wholeOf (m : MemSt) (w : Write) : List Write := (m.out ++ m.flight).filter (fun x => w.whole != 0 && x.whole == w.whole)

/-- A placed write enters the views of `ds`. The last word of a write that covers its granule whole takes the granule's poison away
there (R149). -/
def MemSt.enter (m : MemSt) (ds : List Nat) (w : Write) : MemSt :=
  let new := ds.filter (fun d => !w.views.contains d)
  let m := if new.contains w.home then m.dropCode w.pa w.bytes.length else m
  let m := if w.whole = 0 then m
    else m.clean (new.filter (fun d => (m.wholeOf w).all (fun x => x.id == w.id || x.views.contains d))) (w.pa / 64)
  (new.foldl (fun m d => m.setView d (writeTab (m.view d) w.pa w.bytes)) m).setWrite w.id (fun x => { x with views := x.views ++ new })

/-- The placed writes that `p` picks, and what must come before them, enter the views of their homes' dies and those of
`ds` (R175). -/
def MemSt.bring (m : MemSt) (ds : List Nat) (p : Write → Bool) : MemSt :=
  let l := needed Write.beforeIn p m.flight
  let all := (ds ++ l.map (·.home)).eraseDups
  l.foldl (fun m w => m.enter all w) m

def allDies : List Nat := [0, 1, 2, 3]

/-- Every view holds every write that has been released: performed at .M (R175). DESIGN CHOICE: of every core, wherever an engine
orders what one barge has released and seen; R8 leaves open when the others' writes are seen (R180, R222,
notes/assumptions/6.md). -/
def MemSt.drain (m : MemSt) : MemSt := (m.place (fun _ => true)).bring allDies (fun _ => true)
def State.drainAll (s : State) : State := { s with mem := s.mem.drain }

/-- The writes that a core has released or sees, performed toward the dies `ds` (R175, R179: what it has read of others
included). -/
def MemSt.bringSeen (m : MemSt) (core : Nat) (ds : List Nat) : MemSt :=
  (m.place (fun w => w.core == core)).bring ds (fun w => w.seenBy core)

/-- The same, performed in the core's flight (`reach` 1) or span (2). -/
def MemSt.spread (m : MemSt) (core reach : Nat) : MemSt :=
  let m := m.place (fun w => w.core == core)
  { m with flight := m.flight.map (fun w => if w.seenBy core then { w with reach := max w.reach reach } else w) }

/-- A read at its home by a core (R175): what the core sees of the range is at the home first, and what it reads there its
own die's view holds too, so that no later load is older (R174, R179). -/
def MemSt.atHome (m : MemSt) (core home pa n : Nat) : MemSt :=
  (m.place (fun w => w.core == core && w.meets pa n)).bring [home, dieOf core]
    (fun w => w.meets pa n && (w.seenBy core || w.views.contains home))

/-- What a core sees, and what the view of its die holds, another core sees too (R174, R179: a barge that goes on there); what
the barge performs at a scope there takes what it saw on the old core along (R159, R178). -/
def MemSt.follow (m : MemSt) (old new : Nat) : MemSt :=
  if old = new then m
  else
    let m := (m.place (fun w => w.core == old)).bring [dieOf new] (fun w => w.seenBy old || w.views.contains (dieOf old))
    { m with flight := m.flight.map (fun w => if w.seenBy old then { w with also := w.also ++ [new] } else w) }

/-- The last place in the coherence order of a range: the views of `ds` hold every write placed so far. -/
def MemSt.atLast (m : MemSt) (core : Nat) (ds : List Nat) (pa n : Nat) : MemSt :=
  (m.place (fun w => w.core == core && w.meets pa n)).bring ds (fun w => w.meets pa n)

/-- The clock of a write that a die releases now (R177). -/
def MemSt.clock (m : MemSt) (d : Nat) : List Nat := (m.flight.filter (fun w => w.views.contains d)).map (·.id)

/-- A core releases a write. -/
def MemSt.release (m : MemSt) (core home pa : Nat) (bytes : List Byte) (whole : Nat := 0) : MemSt :=
  { m with
    nextW := m.nextW + 1
    out := m.out ++
      [{ id := m.nextW, core := core, home := home, clock := m.clock (dieOf core), whole := whole, pa := pa, bytes := bytes }] }

/-- A write that is performed at its home now, as the last of its locations: of an atomic or a merge of a core, or of a host
through die `via`. -/
def MemSt.merge (m : MemSt) (core via home pa : Nat) (bytes : List Byte) (whole : Nat := 0) : MemSt :=
  let m := m.atLast core [home] pa bytes.length
  let w : Write := { id := m.nextW, core := core, home := home, clock := m.clock via, whole := whole, pa := pa, bytes := bytes }
  { m with nextW := m.nextW + 1, flight := m.flight ++ [w] }.bring [] (fun x => x.id == w.id)

/-- Every write of a range that has been released enters the views of `ds`. -/
def MemSt.settle (m : MemSt) (ds : List Nat) (pa n : Nat) : MemSt :=
  (m.place (fun w => w.meets pa n)).bring ds (fun w => w.meets pa n)

/-- A write of an engine, performed at .M: every view holds it (R180). -/
def MemSt.put (m : MemSt) (pa : Nat) (bytes : List Byte) : MemSt :=
  allDies.foldl (fun m d => m.setView d (writeTab (m.view d) pa bytes)) ((m.settle allDies pa bytes.length).dropCode pa bytes.length)

/-- May the view of a die apply a placed write (R175, R177): its home's view is first, and what must come before is in? -/
def MemSt.may (m : MemSt) (d : Nat) (w : Write) : Bool :=
  (d == w.home || w.views.contains w.home) &&
    (m.flight.takeWhile (fun x => x.id != w.id)).all (fun x => x.views.contains d || !x.beforeIn w)

/-- The writes that the view of a die does not hold yet. -/
def MemSt.waiting (m : MemSt) (d : Nat) : List Write := m.out ++ m.flight.filter (fun w => !w.views.contains d)

/-- Can a write that a die's view does not hold go a stage further toward it? -/
def MemSt.canMove (m : MemSt) (d : Nat) (w : Write) : Bool :=
  if m.out.any (fun x => x.id == w.id) then
    (m.out.takeWhile (fun x => x.id != w.id)).all (fun x => !x.beforeOut w) && !m.holds w.id
  else m.may d w || (!w.views.contains w.home && decide (w.reach < 2) && decide (w.core < 640))

/-- The `k`-th of them goes a stage further (VIEW_APPLIES_WRITE): it takes its place in the coherence order, enters the
view, or is seen in the next wider unit of its issuer. -/
def MemSt.move (m : MemSt) (d k : Nat) : MemSt :=
  match (m.waiting d)[k]? with
  | none => m
  | some w =>
    if !m.canMove d w then m
    else if m.out.any (fun x => x.id == w.id) then m.place (fun x => x.id == w.id)
    else if m.may d w then m.enter [d] w
    else m.setWrite w.id (fun x => { x with reach := x.reach + 1 })

/-! ## Poison (R149, R217) -/

def State.setL1 (s : State) (t : Tab L1St) : State := { s with mem := { s.mem with l1 := t } }
def State.setLines (s : State) (t : Tab Line) : State := { s with com := { s.com with lines := t } }
def State.setPoison (s : State) (t : Tab (BitVec 4)) : State := { s with mem := { s.mem with poison := t } }
def State.setMem (s : State) (m : MemSt) : State := { s with mem := m }

/-- Does a die's view hold the granule of an address poisoned? -/
def State.poisonedAt (s : State) (d pa : Nat) : Bool := s.mem.poisonedAt d pa

/-- Does a die's view hold a granule of a range poisoned? -/
def MemSt.poisonedIn (m : MemSt) (d pa n : Nat) : Bool := (granules pa n).any (fun g => m.poisonedAt d (64 * g))
def State.poisonedIn (s : State) (d pa n : Nat) : Bool := s.mem.poisonedIn d pa n

/-- Is a write on its way one that a core sees, or that the view of its die holds? -/
def MemSt.sees (m : MemSt) (core : Nat) (w : Write) : Bool :=
  w.views.contains (dieOf core) || (if m.out.any (fun x => x.id == w.id) then w.core == core else w.seenBy core)

/-- Does a `.l1` load on a core meet poison: a granule that its die's view holds poisoned, and of which it sees no write of the whole
granule whole (R149, R175)? -/
def MemSt.seenPoison (m : MemSt) (core pa n : Nat) : Bool :=
  (granules pa n).any (fun g => m.poisonedAt (dieOf core) (64 * g) &&
    !(m.out ++ m.flight).any (fun w => w.whole != 0 && w.pa / 64 == g && (m.wholeOf w).all (m.sees core)))

/-- The granules that a range covers whole. -/
def wholeGranules (pa n : Nat) : List Nat :=
  let lo := (pa + 63) / 64
  (List.range ((pa + n) / 64 - lo)).map (· + lo)

/-- One write clears the poison of every granule it covers whole. -/
def clearPoison {α : Type} (t : Tab α) (pa n : Nat) : Tab α := (wholeGranules pa n).foldl (fun t g => tdel t g) t

/-- Every granule of a range becomes poisoned, in every view. DEDUCED: after the writes of it that have been released, which every view
holds first, so that no write of a whole granule stands across the poison (R149; notes/assumptions/37.md). -/
def State.poisonRange (s : State) (pa n : Nat) : State :=
  if n = 0 then s
  else
    let gs := granules pa n
    let m := s.mem.settle allDies (64 * (pa / 64)) (64 * gs.length)
    s.setMem { m with poison := gs.foldl (fun t g => tset t g (BitVec.allOnes 4)) m.poison }

/-! ## Host addresses (R349, R353) and what serves a page -/

/-- The physical address of a host address behind a port (R349). -/
def hostPa (port a : Nat) : Nat := 0x800000000000 + port * 0x200000000000 + a

/-- The port whose window holds a physical address. -/
def hostPort (pa : Nat) : Option Nat :=
  match targetOf pa with | some t => if t = 0x100 ∨ t = 0x101 then some (t - 0x100) else none | none => none

/-- The key of an ATS translation: a page of a PASID behind a port. -/
def atsKey (port pasid a : Nat) : Nat := (port * 2 ^ 20 + pasid) * 2 ^ 33 + a / 4096

/-- The host's own address for an address of a PASID (R353): what the host edge has cached, else what the host answers, which
stands until an invalidation covers the page (notes/assumptions/31.md). -/
def State.ats (s : State) (port pasid a : Nat) : Nat :=
  let k := (s.hst.atsInv.filter (fun e => e.1 == port && overlaps e.2.1 e.2.2 (a / 4096 * 4096) 4096)).length
  (tget s.hst.ats (atsKey port pasid a)).getD (Config.hostFrame port pasid (a / 4096) k % 2 ^ 33) * 4096 + a % 4096

/-- The host edge caches a translation that it has used. -/
def State.atsUse (s : State) (port pasid a : Nat) : State :=
  { s with hst := { s.hst with ats := tset s.hst.ats (atsKey port pasid a) (s.ats port pasid a / 4096) } }

/-- The PASID under which a context reaches the host behind a port: that of the queue bound to it there, of the lowest where there
are several. DESIGN CHOICE: the spec gives a context two queues and says which PASID is "the queue's" for none; one without a
queue at the port reaches it untranslated (notes/assumptions/31.md). -/
def State.pasidOf (s : State) (ctx port : Nat) : Option Nat :=
  (s.hst.queues.find? (fun e => e.1 / 64 == port && e.2.bound && !e.2.revoked && e.2.ctx == ctx)).map (·.2.pasid)

/-- The physical address that an access of a context reaches: one in a host window goes through ATS (R349, R353). -/
def State.hostVia (s : State) (ctx pa : Nat) : Nat :=
  match hostPort pa with
  | none => pa
  | some p =>
    match s.pasidOf ctx p with
    | none => pa
    | some q => hostPa p (s.ats p q (pa - hostPa p 0))

/-- The pages of a node, counted from its first, by which its context reaches a physical page. -/
def State.reaches (s : State) (n : Node) (pg : Nat) : List Nat :=
  if (hostPort (4096 * n.pgn)).any (fun p => hostPort (4096 * pg) == some p && (s.pasidOf n.ctx p).isSome) then
    (List.range n.count).filter (fun i => s.hostVia n.ctx (4096 * (n.pgn + i)) / 4096 == pg)
  else if n.pgn ≤ pg ∧ pg < n.pgn + n.count then [pg - n.pgn] else []

/-- Which virtual cache serves a page of a context that names a VCID (R290, R262, R264): 1 + VCID, or 0 for its memory home. -/
def State.servedBy (s : State) (ctx : Nat) (vcid : Option Nat) (pa : Nat) : Nat :=
  if inDirect pa then (pa - directBase) / 2 ^ 32 + 1
  else
    match vcid with
    | none => 0
    | some v =>
      match tget s.com.vc v with
      | some c =>
        if c.state != 3 && c.owner == (tgetD {} s.map.ctxs ctx).partition && c.policy != 4 && (peerOf pa).isNone then v + 1 else 0
      | none => 0

/-- 1 + the virtual cache that serves a granule for an access by physical address: the cache that a live mapping of it names
and that serves that page, 0 for the memory home (R264, R358). -/
def State.vcAt (s : State) (pa : Nat) : Nat :=
  if inDirect pa then s.servedBy 0 none pa
  else
    (s.map.nodes.findSome? (fun e =>
      let n := e.2
      match s.servedBy n.ctx n.vcid pa with
      | 0 => none
      | k => if n.st == .live && !(s.reaches n (pa / 4096)).isEmpty then some k else none)).getD 0

/-! ## L1 caches and lines -/

def l1Key (core g : Nat) : Nat := core * 2 ^ 46 + g

/-- Invalidate every L1 copy of a granule but one core's. -/
def l1Drop (t : Tab L1St) (g : Nat) (keep : Option Nat) : Tab L1St :=
  t.filter (fun e => !(e.1 % 2 ^ 46 == g && some (e.1 / 2 ^ 46) != keep))

/-- A `.l1` load leaves the granule shared, exclusive when no other core holds it; a holder in E or M gives it up to S. -/
def l1Load (t : Tab L1St) (core g : Nat) : Tab L1St :=
  match tget t (l1Key core g) with
  | some _ => t
  | none =>
    if t.any (fun e => e.1 % 2 ^ 46 == g) then
      tset (t.map (fun e => if e.1 % 2 ^ 46 = g then (e.1, L1St.s) else e)) (l1Key core g) .s
    else tset t (l1Key core g) .e

/-- A `.l1` store, or a lease: the granule is held by the one core alone. -/
def l1Own (t : Tab L1St) (core g : Nat) (st : L1St) : Tab L1St := tset (l1Drop t g (some core)) (l1Key core g) st

/-- Holders of a granule in M write it back and keep it in E. -/
def l1Clean (t : Tab L1St) (g : Nat) : Tab L1St :=
  t.map (fun e => if e.1 % 2 ^ 46 = g && e.2 == .m then (e.1, L1St.e) else e)

/-- The key of an L1 line of 128 bytes, that of its set being the line modulo 512 (R4, notes/assumptions/7.md). -/
def l1LineKey (core g : Nat) : Nat := core * 2 ^ 45 + g / 2

/-- Does a barge hold a granule of an L1 line of its core leased? -/
def State.lineLeased (s : State) (key : Nat) : Bool :=
  s.barges.any (fun e => e.2.leases.any (fun l => l1LineKey e.2.core l.granule == key))

/-- The other lines in the set of a line of an L1, of which there are at most 12 (R4). -/
def State.l1Peers (s : State) (key : Nat) : List (Nat × Nat) :=
  s.mem.l1use.filter (fun e => e.1 / 2 ^ 45 == key / 2 ^ 45 && e.1 % 512 == key % 512 && e.1 != key)

/-- Is a granule's line absent from a set all of whose 12 ways hold a line with a leased granule? -/
def State.l1Full (s : State) (core g : Nat) : Bool :=
  let key := l1LineKey core g
  (tget s.mem.l1use key).isNone && decide (12 ≤ ((s.l1Peers key).filter (fun e => s.lineLeased e.1)).length)

/-- A core fetches from a granule: its instruction cache of 64 KiB holds the 1,024 it used last (R4). -/
def State.useIcache (s : State) (core g : Nat) : State :=
  let l := tgetD [] s.mem.icache core
  { s with mem := { s.mem with icache := tset s.mem.icache core ((g :: l.filter (fun x => x != g)).take 1024) } }

/-- Index of a line (R261): its set, for `n` shares. -/
def VCache.setOf (v : VCache) (n pa : Nat) : Nat :=
  let x := pa / v.line
  let h := if v.hash = 1 then x ^^^ (x / 2 ^ 13) ^^^ (x / 2 ^ 26) else x
  h % (n * 16384 / (v.line * v.ways))

def lineKey (v : VCache) (vcid pa : Nat) : Nat := vcid * 2 ^ 46 + pa / v.line * v.line / 64
def lineAddr (key : Nat) : Nat := key % 2 ^ 46 * 64

/-- The lines of a virtual cache. -/
def State.linesOf (s : State) (vcid : Nat) : List (Nat × Line) := s.com.lines.filter (fun e => e.1 / 2 ^ 46 == vcid)

/-- The lines of a cache that stand in a set of the present index function. -/
def State.inSet (s : State) (vcid : Nat) (v : VCache) (set : Nat) : List (Nat × Line) :=
  (s.linesOf vcid).filter (fun e => (v.state != 2 || e.2.moved) && v.setOf v.shares.length (lineAddr e.1) == set)

/-- Does a line leave its set before another (R263): one at the lowest rank, else the least recently used? -/
def Line.older (x y : Line) : Bool := if x.low == y.low then decide (x.rank < y.rank) else x.low

/-- Room in a set of the present index function: the lines with one less where the set is full, the least recently used
(R263), and the least way that is free. -/
def State.roomIn (s : State) (vcid : Nat) (v : VCache) (set : Nat) : Tab Line × Nat :=
  let peers := s.inSet vcid v set
  if peers.length < v.ways then
    (s.com.lines, ((List.range v.ways).find? (fun w => !peers.any (fun e => e.2.way == w))).getD 0)
  else
    match peers.foldl (fun (b : Option (Nat × Line)) e =>
        match b with | none => some e | some x => if e.2.older x.2 then some e else b) none with
    | some x => (tdel s.com.lines x.1, x.2.way)
    | none => (s.com.lines, 0)

/-- Does a barge hold a granule leased (R161)? -/
def State.granLeased (s : State) (g : Nat) : Bool := s.barges.any (fun e => e.2.leases.any (fun l => l.granule == g))

/-- The granules of a line. -/
def lineGrans (v : VCache) (key : Nat) : List Nat := (List.range (v.line / 64)).map (· + key % 2 ^ 46)

/-- Is a granule of a line leased: the line cannot move until the lease ends (R163, R275)? -/
def State.linePinned (s : State) (v : VCache) (key : Nat) : Bool := (lineGrans v key).any s.granLeased

/-- A line takes its place in a set of the present index function; a cache that has no share left keeps none. -/
def State.seatLine (s : State) (vcid : Nat) (v : VCache) (key : Nat) (l : Line) : State :=
  if v.shares.isEmpty then s.setLines (tdel s.com.lines key)
  else
    let r := s.roomIn vcid v (v.setOf v.shares.length (lineAddr key))
    s.setLines (tset r.1 key { l with moved := true, way := r.2 })

/-- An access to a line at its home (R263, R274 step 2): a hit under the old index function of a resize moves the line into
its new set, unless a granule of it is leased; a miss allocates it where the policy and the access do, or `force` says so (R210).
A write leaves the line dirty but where it goes to memory too. Residence only: no byte changes. -/
def State.touchLine (s : State) (vcid pa : Nat) (wr strm : Bool) (force : Bool := false) : State :=
  match tget s.com.vc vcid with
  | none => s
  | some v =>
    if v.policy = 4 then s
    else
      let key := lineKey v vcid pa
      let dirty := wr && v.policy != 1
      match tget s.com.lines key with
      | some l =>
        let l := { l with dirty := l.dirty || dirty, rank := s.cycle, low := v.policy == 3 && wr }
        if v.state = 2 ∧ !l.moved ∧ !s.linePinned v key then s.seatLine vcid v key l
        else s.setLines (tset s.com.lines key l)
      | none =>
        let alloc := !v.shares.isEmpty &&
          (force || (!strm && (v.policy == 0 || v.policy == 3 || (v.policy == 1 && !wr))))
        if !alloc then s else s.seatLine vcid v key { dirty := dirty, rank := s.cycle, low := v.policy == 3 }

/-- The copies in M of the granules that `p` picks, by L1 key, are written back: a write at the home of each, which allocates there
as one does (R263). -/
def State.giveBack (s : State) (p : Nat → Bool) : State :=
  (s.mem.l1.filter (fun e => e.2 == .m && p e.1)).foldl (fun s e =>
    match s.vcAt (64 * (e.1 % 2 ^ 46)) with
    | 0 => s
    | k + 1 => s.touchLine k (64 * (e.1 % 2 ^ 46)) true false) s

/-- A core uses a granule that its L1 holds: of 12 ways the line used longest ago, none of whose granules is leased, leaves for
one that is new (R4); where there is none, the granule is not kept. -/
def State.useL1 (s : State) (core g : Nat) : State :=
  let key := l1LineKey core g
  let t := s.mem.l1use
  let peers := s.l1Peers key
  let m := s.mem
  if s.l1Full core g then { s with mem := { m with l1 := tdel m.l1 (l1Key core g) } }
  else if (tget t key).isSome || decide (peers.length < 12) then { s with mem := { m with l1use := tset t key s.cycle } }
  else
    match (peers.filter (fun e => !s.lineLeased e.1)).foldl (fun (b : Option (Nat × Nat)) e =>
        match b with | none => some e | some x => if e.2 < x.2 then some e else b) none with
    | none => s
    | some x =>
      let leaves (k : Nat) : Bool := l1LineKey (k / 2 ^ 46) (k % 2 ^ 46) == x.1
      let s := s.giveBack leaves
      { s with mem := { s.mem with l1use := tset (tdel t x.1) key s.cycle, l1 := m.l1.filter (fun e => !leaves e.1) } }

/-- Does a `.l1` store leave the granule modified in L1: the write policies that keep a write back until later (R263,
notes/assumptions/7.md)? -/
def State.writesBack (s : State) (vc : Nat) : Bool :=
  if vc = 0 then false
  else match tget s.com.vc (vc - 1) with | some v => v.policy == 0 || v.policy == 3 || v.policy == 4 | none => false

/-- Is a granule leased by a barge of a core (`mine`) or of another? -/
def State.leasedOn (s : State) (core g : Nat) (mine : Bool) : Bool :=
  s.barges.any (fun e => (e.2.core == core) == mine && e.2.leases.any (fun l => l.granule == g))

/-- A read at a home by an engine, a host or an instruction fetch: the line is touched. -/
def State.touchRead (s : State) (vc pa n : Nat) : State :=
  if vc = 0 then s else (granules pa n).foldl (fun s g => s.touchLine (vc - 1) (64 * g) false false) s

/-- A load of a granule by a core, as `spc` performs it (R76). One that its own core holds leased it keeps (R163). -/
def State.touchLoad (s : State) (core vc pa : Nat) (spc : Space) : State :=
  let g := pa / 64
  match spc with
  | .l1 =>
    if (tget s.mem.l1 (l1Key core g)).isSome then s.useL1 core g
    else
      let s := s.giveBack (fun k => k % 2 ^ 46 == g)
      let s := if vc = 0 then s else s.touchLine (vc - 1) pa false false
      (s.setL1 (l1Load s.mem.l1 core g)).useL1 core g
  | .sp => s
  | _ =>
    let s := if s.leasedOn core g true then s
      else
        let s := s.giveBack (fun k => k % 2 ^ 46 == g)
        s.setL1 (l1Clean (tdel s.mem.l1 (l1Key core g)) g)
    if vc = 0 then s else s.touchLine (vc - 1) pa false (spc == .strm)

/-- A write applied at a home: every L1 copy of its granules goes, one in M written back first; the line is touched. -/
def State.touchWrite (s : State) (vc pa n : Nat) (strm : Bool := false) : State :=
  let gs := granules pa n
  let s := s.giveBack (fun k => gs.contains (k % 2 ^ 46))
  let s := s.setL1 (gs.foldl (fun t g => l1Drop t g none) s.mem.l1)
  if vc = 0 then s else gs.foldl (fun s g => s.touchLine (vc - 1) (64 * g) true strm) s

/-- A store of a core as its space performs it (R76, R149): at the home, or in L1, where the core then holds the granule
alone. -/
def State.touchStore (s : State) (core vc pa n : Nat) (spc : Space) : State :=
  match spc with
  | .l1 =>
    let st := if s.writesBack vc then L1St.m else L1St.e
    (granules pa n).foldl (fun s g =>
      let s := (s.setL1 (l1Own s.mem.l1 core g st)).useL1 core g
      if vc = 0 then s else s.touchLine (vc - 1) (64 * g) true false) s
  | _ => s.touchWrite vc pa n (spc == .strm)

/-! ## Writes -/

def State.isIsolated (s : State) (pa : Nat) : Bool :=
  match targetOf pa with | some t => tgetD false s.slu.isolated t | none => false

/-- Isolate a target (R219, R357, R371). -/
def State.isolate (s : State) (t : Nat) : State := { s with slu := { s.slu with isolated := tput false s.slu.isolated t true } }

/-- One write of an engine clears the poison of the granules it covers whole (R149). -/
def State.unpoisoned (s : State) (pa n : Nat) : State := s.setPoison (clearPoison s.mem.poison pa n)

/-- Bytes that an engine writes enter every view, and whole granules lose their poison. -/
def State.putMem (s : State) (pa : Nat) (bytes : List Byte) : State := (s.setMem (s.mem.put pa bytes)).unpoisoned pa bytes.length

/-- Has a die failed, which then serves no access (R277), or tripped, which stops it (R366)? -/
def State.dieStopped (s : State) (die : Nat) : Bool := s.com.failed.contains die || s.hst.tripped.contains die

/-- Does the home of an address, at the virtual cache `vc` - 1 or in memory, serve no access? The memory home of an address behind a
host port or an expander stands on no core die (R10): R264 gives it one for the views only. -/
def State.homeStopped (s : State) (vc pa : Nat) : Bool := !(vc == 0 && (targetOf pa).isSome) && s.dieStopped (s.homeDie vc pa)

/-- The target that leaves a read of a range within a page unanswered: one with an injected stall (R359), or a die that has failed and
serves no access (R277) or has tripped (R366), written 0x300 + die. -/
def State.stalled (s : State) (vc pa n : Nat) : Option Nat :=
  if s.homeStopped vc pa then some (0x300 + s.homeDie vc pa)
  else
    match targetOf pa with
    | some t => if s.hst.stalls.any (fun e => e.1 == t && decide (e.2 < pa + n)) then some t else none
    | none => none

/-- An engine's write of bytes to global memory, performed at .M; a die that serves no access takes none. -/
def State.writeMem (s : State) (vc pa : Nat) (bytes : List Byte) : State :=
  if bytes.isEmpty || s.homeStopped vc pa then s
  else (s.touchWrite vc pa bytes.length).putMem pa bytes

/-- Count a write that an isolated target discards (R357). -/
def State.discard (s : State) (pa : Nat) : State :=
  match targetOf pa with
  | some t => { s with slu := { s.slu with discards := tupd 0 s.slu.discards t (· + 1) } }
  | none => s

/-- Bytes at an address cut at multiples of `z`. -/
def cutAt (z : Nat) : Nat → Nat → List Byte → List (Nat × List Byte)
  | 0, _, _ => []
  | f + 1, pa, bs =>
    if bs.isEmpty then [] else let k := z - pa % z; (pa, bs.take k) :: cutAt z f (pa + k) (bs.drop k)

/-- The bytes of a store cut at 8-byte boundaries: what is single-copy atomic of it (R174). -/
def cutWords (pa : Nat) (bs : List Byte) : List (Nat × List Byte) := cutAt 8 (bs.length + 1) pa bs

/-- Bytes cut at granules: what is requested, leased and served apart (R163, R182). -/
def cutGrans (pa : Nat) (bs : List Byte) : List (Nat × List Byte) := cutAt 64 (bs.length + 1) pa bs

/-- A merge or atomic write by a core, performed at its home (R153 to R155); discarded where its target is isolated. -/
def State.mergeMem (s : State) (core vc pa : Nat) (bytes : List Byte) : State :=
  if s.isIsolated pa then s.discard pa
  else if s.homeStopped vc pa then s
  else
    let s := s.touchWrite vc pa bytes.length
    s.setMem (s.mem.merge core (dieOf core) (s.homeDie vc pa) pa bytes)

/-! ## Reductions (R154, R155) -/

/-- `REDFMIN` and `REDFMAX`: the canonical NaN where a value is NaN, −0 below +0. -/
def redFloat (mx : Bool) (m x : Nat) : Nat :=
  if fmtF32.isNan m || fmtF32.isNan x then 0x7FC00000
  else if mx then (if fmtF32.key m ≤ fmtF32.key x then x else m) else (if fmtF32.key m ≤ fmtF32.key x then m else x)

/-- The merge of a word of `w` bits with an operand, by the op code of R87. -/
def redMerge (op w m x : Nat) : Nat :=
  match op with
  | 0 => (m + x) % 2 ^ w
  | 1 => m &&& x
  | 2 => m ||| x
  | 3 => m ^^^ x
  | 4 => if sintOf w m ≤ sintOf w x then m else x
  | 5 => if sintOf w m ≤ sintOf w x then x else m
  | 6 => min m x
  | 7 => max m x
  | 8 => redFloat false m x
  | _ => redFloat true m x

/-- The value of a range at its home, as a merge or an atomic of a core finds it: the last in coherence order (R153 to R155). -/
def State.lastAt (s : State) (core vc pa n : Nat) : State × List Byte :=
  let home := s.homeDie vc pa
  let s := s.setMem (s.mem.atLast core [home, dieOf core] pa n)
  (s, s.bytesAt home pa n)

/-- A reduction or an XA add of a core is merged at its home. Neither takes the poison of a granule away (R149). -/
def State.mergeNow (s : State) (core : Nat) (e : Effect) : State :=
  match e with
  | .red op wide _ pa vc x =>
    let n := if wide then 8 else 4
    let r := s.lastAt core vc pa n
    r.1.mergeMem core vc pa (leBytes n (redMerge op (8 * n) (leNum r.2) (x.toNat % 2 ^ (8 * n))))
  | .xa t _ pa vc x =>
    let r := s.lastAt core vc pa 64
    let f := xtyFmt t
    r.1.mergeMem core vc pa (leBytes 64 (xaAdd (leNum r.2) (f.val (x.toNat % 2 ^ f.width))))
  | _ => s

/-! ## Leases (R161 to R165) -/

/-- The granule of global memory that an effect on one granule reaches. -/
def Effect.gran : Effect → Nat
  | .store _ (p :: _) => p.pa / 64
  | .red _ _ _ pa _ _ => pa / 64
  | .xa _ _ pa _ _ => pa / 64
  | _ => 0

/-- The granule that a request asks for. -/
def LeaseReq.gran : LeaseReq → Nat
  | .wait _ g => g
  | .inval _ g _ => g
  | .hostWrite _ pa _ => pa / 64
  | .hostRead _ pa _ => pa / 64
  | .ownWrite _ _ pa _ => pa / 64
  | .store _ _ _ _ _ _ pa _ => pa / 64
  | .effect _ _ e => e.gran
  | .probe _ g => g

/-- Is a request that waits one of a barge, or of an engine's command under a key of its own? -/
def LeaseReq.of (r : LeaseReq) (bid : Nat) : Bool := match r with | .wait b _ => b == bid | _ => false

/-- Is a request the wait of a word, of a held atomic or of an engine's command? -/
def LeaseReq.isWait : LeaseReq → Bool | .wait _ _ => true | _ => false

/-- Is a request an effect that a core has released? -/
def LeaseReq.byCore (r : LeaseReq) (core : Nat) : Bool :=
  match r with | .store _ c _ _ _ _ _ _ => c == core | .effect _ c _ => c == core | _ => false

/-- Is a request one that a barge of a core has released or sees released: what it orders behind that waits for it (R159, R173)? -/
def LeaseReq.bounds (r : LeaseReq) (bid core : Nat) : Bool :=
  match r with | .store _ c _ _ _ _ _ _ => c == core | .effect b _ _ => b == bid | _ => false

/-- The port by whose edge a request writes the port's host memory. Such writes keep their order (R354, R356). -/
def LeaseReq.edge (r : LeaseReq) : Option Nat :=
  match r with
  | .ownWrite 0 _ pa _ => (targetOf pa).bind (fun t => if t = 0x100 ∨ t = 0x101 then some (t - 0x100) else none)
  | _ => none

/-- Does an effect that a barge has released, or that it sees on its core, wait behind a lease? What it orders behind that waits too. -/
def State.coreWaits (s : State) (bid core : Nat) : Bool := s.mem.leaseQ.any (fun r => r.bounds bid core)

/-- Does an effect of a barge wait for a granule that its core does not see yet? -/
def State.ownUnseen (s : State) (bid g : Nat) : Bool :=
  s.mem.leaseQ.any (fun r => match r with | .effect b _ e => b == bid && e.gran == g | _ => false)

/-- Is a granule leased by a barge other than `bid`? -/
def State.leasedFrom (s : State) (bid g : Nat) : Bool :=
  s.barges.any (fun e => e.1 != bid && e.2.leases.any (fun l => l.granule == g))

/-- Does a barge hold a granule leased? -/
def State.hasLeased (s : State) (bid g : Nat) : Bool := (s.barge bid).leases.any (fun l => l.granule == g)

/-- The requests for a granule that arrived before the barge's own wait for it. -/
def State.earlier (s : State) (bid g : Nat) : List LeaseReq :=
  (s.mem.leaseQ.takeWhile (fun r => !(r.of bid && r.gran == g))).filter (fun r => r.gran == g)

/-- May a barge not take a granule now: another barge has leased it, or an earlier request waits for it (R163)? The requests for
a granule that it holds leased are served after its own accesses (R164). -/
def State.blockedAt (s : State) (bid g : Nat) : Bool :=
  s.leasedFrom bid g || (!s.hasLeased bid g && !(s.earlier bid g).isEmpty)

/-- Does a load of a core wait for a granule: another core's barge holds it leased, an effect of the barge itself waits for it that a
load would not see (R174), or an earlier request waits for it? One that a barge of the core holds leased is read as committed (R163). -/
def State.loadBlocked (s : State) (core bid g : Nat) : Bool :=
  s.leasedOn core g false || s.ownUnseen bid g || (!s.leasedOn core g true && !(s.earlier bid g).isEmpty)

/-- The granules that are leased or asked for. -/
def State.busyGrans (s : State) : List Nat :=
  (s.barges.flatMap (fun e => e.2.leases.map (·.granule)) ++ s.mem.leaseQ.map LeaseReq.gran).eraseDups

/-- The granules of a range that are, and that `p` picks. -/
def State.busyIn (s : State) (pa n : Nat) (p : Nat → Bool) : List Nat :=
  s.busyGrans.filter (fun g => decide (0 < n) && decide (pa / 64 ≤ g) && decide (g ≤ (pa + n - 1) / 64) && p g)

/-- The granules of a range that a barge, or an engine's command, waits for. -/
def State.blockedIn (s : State) (bid pa n : Nat) : List Nat := s.busyIn pa n (s.blockedAt bid)

/-- Does it wait for one? -/
def State.blocked (s : State) (bid pa n : Nat) : Bool := !(s.blockedIn bid pa n).isEmpty

/-- The granules of a range that a load waits for. -/
def State.loadStops (s : State) (core bid pa n : Nat) : List Nat := s.busyIn pa n (s.loadBlocked core bid)

/-- Is a request the wait of a barge of a core? -/
def State.mateWait (s : State) (core : Nat) (r : LeaseReq) : Bool :=
  match r with | .wait b _ => (s.barge? b).any (fun k => k.core == core) | _ => false

/-- Is a store of a granule that a barge releases now, and that waits, one that its core does not see: another barge of the core holds
the granule leased or has asked for it before (R163), or it stands behind an effect that the core does not see (R174)? -/
def State.unseenAt (s : State) (bid core g : Nat) : Bool :=
  s.barges.any (fun e => e.1 != bid && e.2.core == core && e.2.leases.any (fun l => l.granule == g)) ||
    (s.earlier bid g).any (fun r => s.mateWait core r || (match r with | .effect _ c _ => c == core | _ => false))

/-- Are the granules that a key has queued for others than these? -/
def State.requeues (s : State) (key : Nat) (l : List Nat) : Bool :=
  l.any (fun g => !s.mem.leaseQ.contains (.wait key g)) || s.mem.leaseQ.any (fun r => r.of key && !l.contains r.gran)

/-- A barge, or an engine's command, waits for no granule any more. -/
def State.unqueue (s : State) (bid : Nat) : State :=
  if s.mem.leaseQ.any (fun r => r.of bid) then s.setMem { s.mem with leaseQ := s.mem.leaseQ.filter (fun r => !r.of bid) } else s

/-! ## Released stores -/

/-- The words of what a store writes of one granule are on their way from a core. -/
def State.sendWords (s : State) (core vc pa : Nat) (bytes : List Byte) : State :=
  s.setMem ((cutWords pa bytes).foldl (fun m e =>
    m.release core (s.homeDie vc pa) e.1 e.2 (if bytes.length = 64 then s.mem.nextW else 0)) s.mem)

/-- A request stands last among those that wait. -/
def State.lastInLine (s : State) (r : LeaseReq) : State := s.setMem { s.mem with leaseQ := s.mem.leaseQ ++ [r] }

/-- What a store writes of one granule is released by a core: its words are on their way. Behind a lease, or requests that came
before, they go no further (R163), and behind a lease of its own core's, whose loads are of the committed contents, they are not
seen there. -/
def State.releasePart (s : State) (bid core : Nat) (spc : Space) (vc pa : Nat) (bytes : List Byte) : State :=
  if !s.blockedAt bid (pa / 64) then (s.touchStore core vc pa bytes.length spc).sendWords core vc pa bytes
  else if s.unseenAt bid core (pa / 64) then s.lastInLine (.effect bid core (.store spc [⟨pa, vc, bytes⟩]))
  else (s.sendWords core vc pa bytes).lastInLine (.store bid core s.mem.nextW (cutWords pa bytes).length spc vc pa bytes.length)

/-- A piece of a store is released by a core. -/
def State.releasePiece (s : State) (bid core : Nat) (spc : Space) (p : SPiece) : State :=
  if s.isIsolated p.pa || s.homeStopped p.vc p.pa then s
  else (cutGrans p.pa p.bytes).foldl (fun s e => s.releasePart bid core spc p.vc e.1 e.2) s

/-- A store that a commit releases; toward an isolated target it is discarded and counted once (R357). -/
def State.releaseStore (s : State) (bid core : Nat) (spc : Space) (ps : List SPiece) : State :=
  let lost := ((ps.filter (fun p => s.isIsolated p.pa)).map (fun p => (targetOf p.pa, p.pa)))
  let s := match lost with
    | [] => s
    | [e] => s.discard e.2
    | e :: f :: _ => if e.1 = f.1 then s.discard e.2 else (s.discard e.2).discard f.2
  ps.foldl (fun s p => s.releasePiece bid core spc p) s

/-- A reduction or an XA add that a commit releases: merged at its home, or waiting there behind a lease (R163). -/
def State.releaseMerge (s : State) (bid core : Nat) (e : Effect) : State :=
  if s.blockedAt bid e.gran then s.lastInLine (.effect bid core e) else s.mergeNow core e

/-- An effect on one granule that waited unseen is released: the words of a store are on their way, those toward a target that has been
isolated meanwhile are discarded (R357); a reduction or an XA add is merged. -/
def State.effectNow (s : State) (core : Nat) (e : Effect) : State :=
  match e with
  | .store spc ps =>
    ps.foldl (fun s p =>
      if s.isIsolated p.pa then s.discard p.pa
      else if s.homeStopped p.vc p.pa then s
      else (s.touchStore core p.vc p.pa p.bytes.length spc).sendWords core p.vc p.pa p.bytes) s
  | e => s.mergeNow core e

/-! ## Accesses of the hosts to device memory (R182, R358) -/

/-- A host write of device memory reaches the granule's home. DESIGN CHOICE: one that covers a whole granule clears its poison, though
R149 names three kinds of write and no host's; so does the write-back of a record (`State.putMem`) (notes/assumptions/37.md). -/
def State.hostPut (s : State) (pa : Nat) (bytes : List Byte) : State :=
  let vc := s.vcAt pa
  let home := s.homeDie vc pa
  if bytes.isEmpty || s.homeStopped vc pa then s
  else
    let s := s.touchWrite vc pa bytes.length
    s.setMem (s.mem.merge 640 home home pa bytes (if bytes.length = 64 then s.mem.nextW else 0))

/-- A host read is served at the granule's home; a die that serves no access leaves it unanswered. -/
def State.hostGet (s : State) (port pa n : Nat) : State :=
  let home := s.homeDie (s.vcAt pa) pa
  if s.homeStopped (s.vcAt pa) pa then s
  else
    let s := (s.touchRead (s.vcAt pa) pa n).setMem (s.mem.atLast 640 [home] pa n)
    { s with hst := { s.hst with reads := s.hst.reads ++ [(port, s.bytesAt home pa n)] } }

/-! ## Serving requests -/

/-- A line moves to its set under the new function (R274 step 3, R275): the holders of its granules answer the probe, writing back what
they hold in M and keeping it in E, and the least recently used line of a full set leaves. -/
def State.shiftLine (s : State) (vcid : Nat) (v : VCache) (key : Nat) (l : Line) : State :=
  let gs := lineGrans v key
  let held := s.mem.l1.any (fun e => gs.contains (e.1 % 2 ^ 46) && e.2 == .m)
  (s.setL1 (gs.foldl l1Clean s.mem.l1)).seatLine vcid v key
    { l with dirty := l.dirty || (held && (v.policy == 0 || v.policy == 3)) }

/-- The migration probe of a granule is answered: its line moves, where no other granule of it is leased (R275). -/
def State.probed (s : State) (vcid g : Nat) : State :=
  match tget s.com.vc vcid with
  | none => s
  | some v =>
    match tget s.com.lines (lineKey v vcid (64 * g)) with
    | some l =>
      if v.state = 2 ∧ !l.moved ∧ !s.linePinned v (lineKey v vcid (64 * g)) then s.shiftLine vcid v (lineKey v vcid (64 * g)) l else s
    | none => s

/-- One request that has waited behind a lease is served: an invalidation drops or downgrades the core's copy, what it holds in M
written back; a host write is applied, a host read returns its bytes, a store takes its place in the coherence order, an effect that
was not seen is released, a probe is answered. -/
def State.serveReq (s : State) (r : LeaseReq) : State :=
  match r with
  | .wait _ _ => s
  | .inval core g drop =>
    let s := s.giveBack (fun k => k == l1Key core g)
    if drop then s.setL1 (tdel s.mem.l1 (l1Key core g))
    else match tget s.mem.l1 (l1Key core g) with
      | some .m => s.setL1 (tset s.mem.l1 (l1Key core g) .e)
      | _ => s
  | .hostWrite _ pa bytes => s.hostPut pa bytes
  | .hostRead port pa n => s.hostGet port pa n
  | .ownWrite _ vc pa bytes => s.writeMem vc pa bytes
  | .store _ core id k spc vc pa n =>
    let s := s.touchStore core vc pa n spc
    s.setMem (s.mem.placeAny (fun w => decide (id ≤ w.id) && decide (w.id < id + k)))
  | .effect _ core e => s.effectNow core e
  | .probe vcid g => s.probed vcid g

/-- Is a request behind an earlier one `k`: for the same granule, or by the edge of the same port (R163, R354, R356)? -/
def LeaseReq.behind (k r : LeaseReq) : Bool := k.gran == r.gran || (k.edge.isSome && k.edge == r.edge)

/-- Serve, in order of arrival, the queued requests that neither a lease nor an earlier request holds back (R163);
`kept` are those that stay. The words of barges are served by their cores. -/
def serveList (s : State) (kept : List LeaseReq) : List LeaseReq → State
  | [] => s.setMem { s.mem with leaseQ := kept }
  | r :: rest =>
    if r.isWait || s.granLeased r.gran || kept.any (fun k => k.behind r) then serveList s (kept ++ [r]) rest
    else serveList (s.serveReq r) kept rest

def State.serveLeaseQ (s : State) : State := if s.mem.leaseQ.isEmpty then s else serveList s [] s.mem.leaseQ

/-- A request that reaches a leased granule, or one that others wait for, waits; any other is served (R163). -/
def State.request (s : State) (r : LeaseReq) : State :=
  if s.granLeased r.gran || s.mem.leaseQ.any (fun k => k.behind r) then s.lastInLine r else s.serveReq r

/-- A write by the wharf or a host edge, behind leases of its granules (R163). -/
def State.ownWrite (s : State) (bid vc pa : Nat) (bytes : List Byte) : State :=
  (cutGrans pa bytes).foldl (fun s e => s.request (.ownWrite bid vc e.1 e.2)) s

/-- A barge, or an engine's command, waits for these granules, and for no other: it queues for those it has not queued for. -/
def State.enqueue (s : State) (bid : Nat) (l : List Nat) : State :=
  if s.requeues bid l then
    let keep := s.mem.leaseQ.filter (fun r => !r.of bid || l.contains r.gran)
    let new := (l.eraseDups.map (LeaseReq.wait bid)).filter (fun r => !keep.contains r)
    (s.setMem { s.mem with leaseQ := keep ++ new }).serveLeaseQ
  else s

/-- A barge waits for no granule any more; what waited behind it is served. -/
def State.leaveQueue (s : State) (bid : Nat) : State := (s.unqueue bid).serveLeaseQ

end Sys2Proof.Machine
end

