-- ==== Sys2Proof/Machine/Transl.lean ====
section
/-! DEFINITION. Translation (18_mapping R285, R288 to R290) and the address checks of global accesses (08_core_memory
R147, checks 3 and 4; 21_host R361, R368). -/

namespace Sys2Proof.Machine

/-- Why an access faults: the class of R184, the DETAIL field of R186 and what s3 holds. -/
structure Why where
  cls : Nat
  detail : Nat := 0
  s3 : Word := 0
  deriving DecidableEq, Repr

/-- A contiguous piece of an access within one page: virtual and physical address, length, 1 + serving virtual cache,
the node that translates it. -/
structure Seg where
  va : Nat
  pa : Nat
  len : Nat
  vc : Nat
  node : Nat
  deriving DecidableEq, Repr

/-- Does a node cover a granule of a context (R290)? -/
def Node.covers (n : Node) (ctx vgn : Nat) : Bool :=
  n.st == .live && n.ctx == ctx && decide (n.vgn ≤ vgn) && decide (vgn < n.vgn + n.count)

/-- The one live node that translates a granule of a context (R289, R290). -/
def State.nodeAt (s : State) (ctx vgn : Nat) : Option (Nat × Node) :=
  s.map.nodes.find? (fun e => e.2.covers ctx vgn)

/-- A context is confidential while a queue bound to it is in CONFIG_LOCKED or RUN (R361). -/
def State.confidential (s : State) (ctx : Nat) : Bool :=
  s.hst.queues.any (fun e => e.2.bound && e.2.ctx == ctx && (e.2.tdi == .locked || e.2.tdi == .run))

/-- Is a physical granule covered by a live node of a confidential context (R361), or waiting to be written zero after
the withdrawal of one (R362)? -/
def State.confGranule (s : State) (pgn : Nat) : Bool :=
  s.map.pending.any (fun p => p.zero.any (fun r => decide (r.1 ≤ pgn) && decide (pgn < r.1 + r.2))) ||
  s.map.nodes.any (fun e => e.2.st == .live && decide (e.2.pgn ≤ pgn) && decide (pgn < e.2.pgn + e.2.count) &&
    s.confidential e.2.ctx)

/-- The rights an access can need (R290). -/
inductive Right | r | w | x
  deriving DecidableEq, Repr

def Node.has (n : Node) : Right → Bool | .r => n.r | .w => n.w | .x => n.x
/-- DETAIL of a translation fault (R186): bit 8 read, 9 write, 10 execute, 11 a range exists but lacks the right. -/
def Right.detail : Right → Nat | .r => 1 | .w => 2 | .x => 4

/-- The physical address of a virtual one in a node. -/
def Node.phys (n : Node) (va : Nat) : Nat := (n.pgn + va / 4096 - n.vgn) * 4096 + va % 4096

/-- The node that translates a virtual address, and the physical address (R290). -/
def State.lookup (s : State) (ctx va : Nat) : Option (Nat × Node × Nat) :=
  (s.nodeAt ctx (va / 4096)).map (fun e => (e.1, e.2, e.2.phys va))

/-- An access of context 0 to a granule of a confidential context fails to translate (R361). -/
def State.allowConf (s : State) (ctx : Nat) (r : Option (Nat × Node × Nat)) : Option (Nat × Node × Nat) :=
  r.filter (fun e => !(ctx == 0 && s.confGranule (e.2.2 / 4096)))

/-- A translation with its host address translated too. -/
def State.viaHost (s : State) (ctx : Nat) (r : Option (Nat × Node × Nat)) : Option (Nat × Node × Nat) :=
  r.map (fun e => (e.1, e.2.1, s.hostVia ctx e.2.2))

/-- Translate a virtual address for an access (R290, R353, R361). -/
def State.translate (s : State) (ctx va : Nat) : Option (Nat × Node × Nat) := s.viaHost ctx (s.allowConf ctx (s.lookup ctx va))

/-- Has the lease of a cached translation ended (R310)? A step that withdraws, moves or changes the node brings its end forward
(`State.shoot`). -/
def State.leaseGone (s : State) (t : TEntry) : Bool := decide (t.ends ≤ s.cycle)

/-- The translation cache of a core or an engine holds a node for a granule: what its lease grants, whatever the tree now
holds (R310). -/
def State.cached (s : State) (party ctx va : Nat) : Option (Nat × Node × Nat) :=
  ((tgetD [] s.mem.tcache party).find? (fun t => t.node.covers ctx (va / 4096) && !s.leaseGone t)).map (fun t =>
    (t.key, t.node, t.node.phys va))

/-- A core's translation: its cache, and on a miss the walker (R18 step 6, R308); then the host's (R353). -/
def State.translateAt (s : State) (core ctx va : Nat) : Option (Nat × Node × Nat) :=
  s.viaHost ctx (s.allowConf ctx (match s.cached core ctx va with | some e => some e | none => s.lookup ctx va))

/-- One party's translation cache holds the nodes of a list, each filled on its miss with a lease of TLEASE cycles (R284,
R310). -/
def State.fillOne (s : State) (party : Nat) (l : List Nat) : State :=
  let t := tgetD [] s.mem.tcache party
  let new := (l.eraseDups.filter (fun k => !t.any (fun e => e.key == k))).filterMap (fun k =>
    (tget s.map.nodes k).map (fun n => ({ key := k, node := n, ends := s.cycle + s.map.tlease } : TEntry)))
  if new.isEmpty then s else s.setMem { s.mem with tcache := tset s.mem.tcache party (t ++ new) }

/-- The translation walker of a die (R10, R310), and the one that walks for a party: for a core, a sluice or a composer that of its
die; a link agent stands on none. -/
def walkParty (die : Nat) : Nat := 850 + die
def walkerOf (party : Nat) : Option Nat :=
  if party < 640 then some (walkParty (dieOf party))
  else if party < 800 then some (walkParty ((party - 640) / 40))
  else if party < 850 then some (walkParty (party - 800))
  else none

/-- A party's miss is walked: it and the walker hold the nodes, each under a lease (R310). -/
def State.fill (s : State) (party : Nat) (l : List Nat) : State :=
  let t := tgetD [] s.mem.tcache party
  let miss := l.filter (fun k => !t.any (fun e => e.key == k))
  if miss.isEmpty then s
  else
    match walkerOf party with
    | some w => (s.fillOne w miss).fillOne party miss
    | none => s.fillOne party miss

/-- The nodes by which a party translates in a context: those it has cached, and of the tree those it has not (R310). -/
def State.nodesFor (s : State) (party ctx : Nat) : List (Nat × Node) :=
  let c := ((tgetD [] s.mem.tcache party).filter (fun t => t.node.ctx == ctx && !s.leaseGone t)).map (fun t => (t.key, t.node))
  c ++ s.map.nodes.filter (fun e => e.2.st == .live && e.2.ctx == ctx && !c.any (fun x => x.1 == e.1))

/-- Check 3 for one page, and the peer windows that stand in its place (R147, R368). -/
def State.page (s : State) (core ctx ea va len : Nat) (rt : Right) : Except Why Seg :=
  match s.translateAt core ctx va with
  | none => .error ⟨6, rt.detail, BitVec.ofNat 64 va⟩
  | some (k, n, pa) =>
    if (peerOf pa).isSome then .error ⟨4, 0, BitVec.ofNat 64 ea⟩
    else if n.has rt then .ok ⟨va, pa, len, s.servedBy ctx n.vcid pa, k⟩
    else .error ⟨6, rt.detail + 8, BitVec.ofNat 64 va⟩

/-- The pieces of `[ea, ea + n)` by page; an access touches at most two pages. -/
def pieces (ea n : Nat) : List (Nat × Nat) :=
  let f := min n (4096 - ea % 4096)
  if n = 0 then [] else if f = n then [(ea, n)] else [(ea, f), (ea + f, n - f)]

/-- Translate every piece, the first failing byte reported. -/
def State.pages (s : State) (core ctx ea : Nat) (rt : Right) : List (Nat × Nat) → Except Why (List Seg)
  | [] => .ok []
  | (va, len) :: rest =>
    match s.page core ctx ea va len rt with
    | .error w => .error w
    | .ok g => match s.pages core ctx ea rt rest with | .error w => .error w | .ok gs => .ok (g :: gs)

/-- Checks 2, 3 and 4 of R147 for a global access of `n` bytes at `ea`. -/
def State.access (s : State) (core ctx ea n : Nat) (rt : Right) : Except Why (List Seg) :=
  if 2 ^ 48 ≤ ea then .error ⟨4, 0, BitVec.ofNat 64 ea⟩
  else
    match s.pages core ctx ea rt (pieces ea n) with
    | .error w => .error w
    | .ok gs => if gs.all (fun g => s.directOk g.pa) then .ok gs else .error ⟨4, 0, BitVec.ofNat 64 ea⟩

/-- A scratchpad address (R76, R101): the barge whose window it names and the offset, checked for `n` bytes. -/
def State.spad (s : State) (bid : Nat) (ea : Word) (n : Nat) : Option (Nat × Nat) :=
  let a := ea.toNat
  if 2 ^ 24 ≤ a then none
  else
    match s.member bid (a / 2 ^ 20) with
    | none => none
    | some m =>
      let off := a % 2 ^ 20
      if off + n ≤ (s.barge m).footprint && decide (0 < (s.barge m).footprint) then some (m, off) else none

/-! ## Handles (R285) -/

def epKey (ctx slot : Nat) : Nat := ctx * 1024 + slot

/-- The endpoint of a valid handle of a context. -/
def State.endpoint (s : State) (ctx : Nat) (h : Word) : Option Endpoint :=
  let v := h.toNat
  let slot := v % 1024
  if 2 ^ 26 ≤ v ∨ slot = 0 then none
  else
    match tget s.map.eps (epKey ctx slot) with
    | none => none
    | some e => if e.valid && e.gen == v / 1024 then some e else none

/-- The owner of a channel, when it is a live context. -/
def State.liveOwner (s : State) (c : Nat) : Option Nat :=
  match (s.chan c).owner with
  | none => none
  | some o => if (s.ctx o).st == .live then some o else none

end Sys2Proof.Machine
end

