-- ==== Sys2Proof/Machine/Messages.lean ====
section
/-! DEFINITION. Channels and messages (18_mapping R286, R291, R298 to R301): queueing a message, delivering it to a
waiting barge with its receipt, and the routing of fault messages (10_core_faults R187). -/

namespace Sys2Proof.Machine

/-- Byte writes to a barge's window (R101): they change the data only. -/
def Barge.writeWin (b : Barge) (off : Nat) (bytes : List Byte) : Barge :=
  let words := (List.range (bytes.length)).filter (fun i => (off + i) % 8 == 0 && decide (i + 8 ≤ bytes.length))
  { b with window := writeTab b.window off bytes
           spPoison := words.foldl (fun t i => tdel t ((off + i) / 8)) b.spPoison }

/-- A receipt (R299). -/
def receipt (token kind status : Nat) (badge : Word) : List Byte :=
  leBytes 8 (token % 2 ^ 32 + kind * 2 ^ 32 + status * 2 ^ 36) ++ leBytes 8 badge.toNat

/-- The receipt of a wait that ends without a message: its STATUS, and a KIND and BADGE that no rule gives, free values
(notes/assumptions/14.md, notes/assumptions/30.md). -/
def statusReceipt (status : Nat) : List Byte :=
  let kind := ([0, 3, 4, 5] : List Nat).getD (Config.openKind status % 4) 0
  receipt 0 kind status (Config.openBadge kind status)

/-- Registers s1 to s6 from six words (R89). -/
def carryTab (l : List Word) : Tab Word :=
  ((List.range 6).map (fun i => (i + 1, l.getD i 0))).filter (fun e => e.2 != 0)

/-- Values written to s1 to s6 at a commit point stand in the record too (R90). -/
def Barge.setCarry (b : Barge) (l : List Word) : Barge := { b with carry := l, sreg := carryTab l }

/-- A barge becomes READY (R320), with no slot kept for it. -/
def State.makeReady (s : State) (bid : Nat) : State :=
  let s' := s.updB bid (fun b => { b with st := .ready, kept := false, readySeq := s.whf.readySeq })
  { s' with whf := { s'.whf with readySeq := s'.whf.readySeq + 1 } }

/-- The members of a barge's gang, or the barge alone, in member order. -/
def State.gangOf (s : State) (bid : Nat) : List Nat :=
  match s.barge? bid with
  | none => []
  | some b => if b.gang = 0 then [bid] else (s.barges.filter (fun e => e.2.gang == b.gang)).map (·.1)

/-- Has a created barge PRED 0, and its message where it is BOUND (R326)? -/
def Barge.qualifies (b : Barge) : Bool := b.st == .created && b.pred == 0 && (!b.bound || b.claimed)

/-- The last member to qualify makes the whole gang READY (R18 step 4). -/
def State.qualify (s : State) (bid : Nat) : State :=
  let g := s.gangOf bid
  if g.all (fun m => (s.barge m).qualifies) then g.foldl (fun s m => s.makeReady m) s else s

/-- The token of a received message now belongs to the receiver's context (R301). -/
def State.received (s : State) (m : Msg) (ctx : Nat) : State :=
  if m.token = 0 then s
  else
    match tget s.map.tokens m.token with
    | none => s
    | some t => { s with map := { s.map with tokens := tset s.map.tokens m.token { t with receiver := some ctx } } }

/-- A message reaches a barge that asked for it: a `RECV` that waits (R298), or a BOUND barge (R326). -/
def State.deliver (s : State) (bid : Nat) (m : Msg) : State :=
  match s.barge? bid with
  | none => s
  | some b =>
    let s := s.received m b.ctx
    match b.held with
    | some ⟨_, .recv _ wb off _, _, _, _⟩ =>
      let s := s.updB bid (fun b => { b.setCarry m.words with held := none })
      s.updB wb (fun b => b.writeWin off (receipt m.token m.kind 0 m.badge))
    | _ =>
      let s := s.updB bid (fun b =>
        { b.writeWin 0 (receipt m.token m.kind 0 m.badge) with carry := m.words, claimed := true })
      s.qualify bid

/-- Queue a message on a channel with room, or hand it to the first barge that waits (R298, R313). -/
def State.post (s : State) (c : Nat) (m : Msg) : State :=
  match (s.chan c).waiters with
  | [] => s.updChan c (fun ch => { ch with queue := ch.queue ++ [m] })
  | w :: ws => (s.updChan c (fun ch => { ch with waiters := ws })).deliver w m

/-- Take the oldest message for a barge, or wait for one. -/
def State.requestMsg (s : State) (c bid : Nat) : State :=
  match (s.chan c).queue with
  | m :: ms => (s.updChan c (fun ch => { ch with queue := ms })).deliver bid m
  | [] =>
    s.updChan c (fun ch => if ch.waiters.contains bid then ch else { ch with waiters := ch.waiters ++ [bid] })

/-- A barge no longer waits at any channel. -/
def State.unwait (s : State) (bid : Nat) : State :=
  { s with map := { s.map with chans := s.map.chans.map (fun e => (e.1, { e.2 with waiters := e.2.waiters.erase bid })) } }

/-- The token of the `k`-th call, or fault message, of a barge (R299, R300): a free value, nonzero and of 32 bits, of nothing but the
launch and what the barge has done, so that two runs agree on it (R7; notes/assumptions/43.md). -/
def Barge.token (b : Barge) (isFault : Bool) (k : Nat) : Nat := Config.freeToken b.recCtx b.recVa isFault k % (2 ^ 32 - 1) + 1

/-- The lowest token that has not been given out, for the one whose own has been already. DESIGN CHOICE: after 2^32 - 1 tokens, the
lowest that is not in use (R299, R301 give a token no second use; notes/assumptions/43.md). -/
def State.spareToken (s : State) : Nat :=
  let l := (List.range (s.map.spent.length + 1)).map (· + 1)
  match l.find? (fun n => decide (n < 2 ^ 32) && !s.map.spent.contains n) with
  | some n => n
  | none => (l.find? (fun n => (tget s.map.tokens n).isNone)).getD 1

/-- The fresh token of a barge's call, or of its fault message (R299, R300): its own, unless that has been given out before. -/
def State.freshOf (s : State) (bid : Nat) (t : Token) : Nat × State :=
  let b := s.barge bid
  let own := b.token t.isFault (if t.isFault then b.faults else b.calls)
  let n := if s.map.spent.contains own then s.spareToken else own
  let s := s.updB bid (fun b => if t.isFault then { b with faults := b.faults + 1 } else { b with calls := b.calls + 1 })
  (n, { s with map := { s.map with tokens := tset s.map.tokens n t, spent := n :: s.map.spent } })

def State.useToken (s : State) (n : Nat) : State :=
  { s with map := { s.map with tokens := tdel s.map.tokens n } }

/-- Room in a channel for one more message: fewer than 64, and no fault message that is held for it (R187). -/
def State.hasRoom (s : State) (c : Nat) : Bool :=
  decide ((s.chan c).queue.length < 64) && (s.chan c).heldFaults.isEmpty

/-- The channel behind a context's pager handle, where its endpoint is valid. DEDUCED: where the endpoint's target context is live no
longer, its message is undeliverable as where no endpoint is bound (R187, R294; notes/assumptions/30.md). -/
def State.pagerChan (s : State) (ctx : Nat) (h : Word) : Option Nat :=
  match s.endpoint ctx h with
  | some e => if (s.ctx e.tctx).st == .live then some e.chan else none
  | none => none

/-- The pager handle that a fault message of a class goes through (R187): 0 where it goes to the supervisor channel. -/
def State.faultVia (s : State) (ctx cls : Nat) : Word := if cls = 6 then (s.ctx ctx).pager else 0

/-- Where a fault message of a class goes (R187): the pager endpoint's channel for class 0x06 when a pager is bound,
else the supervisor channel; none when it cannot be delivered. -/
def State.faultChan (s : State) (ctx cls : Nat) : Option Nat :=
  let h := s.faultVia ctx cls
  match (if h = 0 then (s.ctx ctx).super else s.pagerChan ctx h) with
  | none => none
  | some k => if (s.liveOwner k).isSome then some k else none

/-- Send a fault message: queued, or held beside the barge while its channel is full or holds earlier ones back (R187). -/
def State.sendFault (s : State) (bid chan : Nat) (pager : Word) (m : Msg) : State :=
  if s.hasRoom chan then s.post chan m
  else s.updChan chan (fun ch => { ch with heldFaults := ch.heldFaults ++ [{ bid := bid, msg := m, pager := pager }] })

end Sys2Proof.Machine
end

