-- ==== Sys2Proof/Machine/Descriptor.lean ====
section
/-! DEFINITION. The sluice's command descriptor (12_sluice R204 to R211): its fields, the byte ranges a command reads
and writes, its delivered byte count (R221) and the rules that refuse it. -/

namespace Sys2Proof.Machine

/-! ## Fields (R204, R205) -/

def Cmd.arg (c : Cmd) (i : Nat) : Nat := (c.args.getD i 0).toNat
def Cmd.src (c : Cmd) : Nat := c.arg 0
def Cmd.dst (c : Cmd) : Nat := c.arg 1
def Cmd.len (c : Cmd) : Nat := bits (c.arg 2) 0 40
def Cmd.ctl (c : Cmd) : Nat := c.arg 3
def Cmd.bar (c : Cmd) : Nat := c.arg 4
def Cmd.aux0 (c : Cmd) : Nat := c.arg 5
def Cmd.aux1 (c : Cmd) : Nat := c.arg 6
def Cmd.after (c : Cmd) : Bool := bits c.ctl 31 1 == 1
def Cmd.tv (c : Cmd) : Bool := bits c.ctl 30 1 == 1
def Cmd.tier (c : Cmd) : Nat := bits c.ctl 28 2
def Cmd.fedst (c : Cmd) : Nat := bits c.ctl 26 2
def Cmd.dsp (c : Cmd) : Nat := bits c.ctl 24 2
def Cmd.ssp (c : Cmd) : Nat := bits c.ctl 22 2
def Cmd.sbs (c : Cmd) : Bool := bits c.ctl 21 1 == 1
def Cmd.dbs (c : Cmd) : Bool := bits c.ctl 20 1 == 1
def Cmd.stype (c : Cmd) : Nat := bits c.ctl 16 4
def Cmd.dtype (c : Cmd) : Nat := bits c.ctl 12 4
def Cmd.rm (c : Cmd) : Rnd := Rnd.ofCode (bits c.ctl 9 3)
def Cmd.note (c : Cmd) : Bool := bits c.ctl 8 1 == 1
def Cmd.tile (c : Cmd) : Nat := bits c.ctl 0 6
def Cmd.rows (c : Cmd) : Nat := bits c.aux0 0 16
def Cmd.sstride (c : Cmd) : Nat := bits c.aux0 16 24
def Cmd.dstride (c : Cmd) : Nat := bits c.aux0 40 24
def Cmd.hasBar (c : Cmd) : Bool := bits c.bar 63 1 == 1
def Cmd.barAddr (c : Cmd) : Nat := bits c.bar 0 24

/-- Does the command take a descriptor (R206)? -/
def Op.isDesc : Op → Bool
  | .scopy => true | .scopy2d => true | .sfill => true | .scvt => true | .shint => true | _ => false

/-- Bytes of `n` elements of a TYPE (R26). -/
def elemBytes (t n : Nat) : Nat := n * tyWidth t / 8

/-- The ranges read, in the source space. -/
def Cmd.srcRanges (c : Cmd) : List (Nat × Nat) :=
  match c.op with
  | .scopy => [(c.src, c.len)]
  | .scopy2d => (List.range c.rows).map (fun r => (c.src + r * c.sstride, c.len))
  | .scvt => (c.src, elemBytes c.stype c.len) :: (if c.sbs then [(c.aux0, c.len / 32)] else [])
  | .shint => [(c.src, c.len)]
  | _ => []

/-- The ranges written, in the destination space. -/
def Cmd.dstRanges (c : Cmd) : List (Nat × Nat) :=
  match c.op with
  | .scopy => [(c.dst, c.len)]
  | .sfill => [(c.dst, c.len)]
  | .scopy2d => (List.range c.rows).map (fun r => (c.dst + r * c.dstride, c.len))
  | .scvt => (c.dst, elemBytes c.dtype c.len) :: (if c.dbs then [(c.aux1, c.len / 32)] else [])
  | _ => []

/-- The delivered byte count (R221). DESIGN CHOICE: a `SCVT` that is refused for its DTYPE or its count has one too: 8 bits to an
element of DTYPE 10 to 15, a part of a byte dropped (notes/assumptions/26.md). -/
def Cmd.delivered (c : Cmd) : Nat :=
  (match c.op with
   | .scopy => c.len
   | .sfill => c.len
   | .scopy2d => c.rows * c.len
   | .scvt => elemBytes c.dtype c.len + (if c.dbs then c.len / 32 else 0)
   | _ => 0) % 2 ^ 48

/-- Does a source row of a `SCOPY2D` overlap a destination row (R207)? For each source row, the destination rows
that could meet it form an interval. -/
def rowsMeet (c : Cmd) : Bool :=
  let l := c.len
  decide (0 < l) && (List.range c.rows).any (fun r =>
    let a := c.src + r * c.sstride
    if c.dstride = 0 then overlaps a l c.dst l
    else
      -- least row whose end passes a
      let k := if a < c.dst + l then 0 else (a - (c.dst + l)) / c.dstride + 1
      decide (k < c.rows) && overlaps a l (c.dst + k * c.dstride) l)

/-- The rules of `SCVT` (R208). -/
def cvtBad (c : Cmd) : Bool :=
  let scaled (t : Nat) : Bool := t == 8 || t == 9
  decide (9 < c.stype) || decide (9 < c.dtype) || (scaled c.stype && !c.sbs) || (scaled c.dtype && !c.dbs) ||
    (c.sbs && !(scaled c.stype || c.stype == 4)) || (c.dbs && !(scaled c.dtype || c.dtype == 4)) ||
    c.len == 0 || decide (2 ^ 32 ≤ c.len) || ((c.sbs || c.dbs) && c.len % 32 != 0) ||
    (c.stype == c.dtype && c.sbs == c.dbs)

/-- Is the descriptor refused by its own bits (R205, R207 to R210)? -/
def Cmd.descBad (c : Cmd) : Bool :=
  let cvt := c.op == .scvt
  bits (c.arg 2) 40 24 != 0 || bits c.ctl 32 32 != 0 || bits c.ctl 6 2 != 0 || c.fedst == 3 || c.dsp == 3 ||
    decide (1 < c.ssp) || bits c.bar 24 39 != 0 || c.arg 7 != 0 ||
    (!c.tv && c.tile != 0) || (!cvt && bits c.ctl 9 13 != 0) || (c.bar != 0 && !c.hasBar) ||
    (c.aux1 != 0 && !(cvt && c.dbs)) ||
    (c.aux0 != 0 && !(c.op == .scopy2d || c.op == .sfill || (cvt && c.sbs))) ||
    (if c.op == .shint then
       c.tv || c.fedst != 0 || c.dsp != 0 || c.ssp != 0 || c.dst != 0 || c.tier == 0 || c.note
     else
       c.tier == 3 || (c.tier != 0 && c.dsp != 0) || (c.note && c.dsp != 0) ||
       (c.op == .sfill && (c.ssp != 0 || c.src != 0)) || (c.op == .scopy2d && c.rows == 0) || (cvt && cvtBad c) ||
       (c.fedst != 0 && (c.dsp != 1 || c.dst % 8 != 0 ||
          (if cvt then elemBytes c.dtype c.len else c.len) % 8 != 0 || (c.op == .scopy2d && c.dstride % 8 != 0))) ||
       (c.ssp == c.dsp && ((c.op == .scopy && overlaps c.src c.len c.dst c.len) || (c.op == .scopy2d && rowsMeet c))))

/-- The barrier that a command names, where its address passes the checks of R167 (R221). -/
def State.cmdBar (s : State) (c : Cmd) : Option (Nat × Nat) :=
  if c.hasBar && c.barAddr % 64 == 0 then s.spad c.barge (BitVec.ofNat 64 c.barAddr) 64 else none

/-- Is the descriptor refused (R205, R221)? -/
def State.descRefused (s : State) (c : Cmd) : Bool := c.descBad || (c.hasBar && (s.cmdBar c).isNone)

/-- Bytes of a tile (R171). -/
def Tile.bytes (t : Tile) : Nat := t.rows * t.cols * tyWidth t.ty / 8

/-- Does a sluice or matrix command name a byte of a barge's window as its source, its destination or its barrier (R102,
R221, R248 to R250)? -/
def State.names (s : State) (c : Cmd) (bid : Nat) : Bool :=
  let at_ (l : List (Nat × Nat)) : Bool := l.any (fun r => (List.range 16).any (fun m =>
    overlaps r.1 r.2 (m * 2 ^ 20) (2 ^ 20) && s.member c.barge m == some bid))
  match c.op with
  | .mldprog => s.member c.barge (c.a.toNat / 2 ^ 20) == some bid
  | .maccrd _ => s.member c.barge (c.b.toNat / 2 ^ 20) == some bid
  | .maccwr => c.barge == bid
  | _ =>
    c.op.isDesc && ((c.ssp == 1 && at_ c.srcRanges) || (c.dsp == 1 && at_ c.dstRanges) ||
      (match s.cmdBar c with | some p => p.1 == bid | none => false))

/-- The check of a fill command at its acceptance (R211): the entry is filling, and every destination byte lies in the
entry, in the issuing barge's own window. -/
def State.fillOk (s : State) (c : Cmd) : Bool :=
  let b := s.barge c.barge
  let t := tgetD {} b.tileTab c.tile
  c.dsp == 1 && decide (c.tile < b.tiles) && t.st == .filling && c.dstRanges.all (fun r =>
    r.2 == 0 ||
      (decide (b.gmem * 2 ^ 20 + t.base ≤ r.1) && decide (r.1 + r.2 ≤ b.gmem * 2 ^ 20 + t.base + t.bytes)))

end Sys2Proof.Machine
end

