-- ==== Sys2Proof/Machine/Pool.lean ====
section
/-! DEFINITION. The wharf's pool (20_wharf R319 to R331): barge records (R98, R99), creating barges, predecessor
counts, readiness, the end of a barge and the release of its window (R102). -/

namespace Sys2Proof.Machine

/-! ## Records -/

def BState.code : BState → Nat
  | .created => 0 | .ready => 1 | .resident => 2 | .waiting => 3 | .parked => 4 | .ended => 5

/-- Word 0 of a record (R98). -/
def Barge.word0 (b : Barge) : Word :=
  BitVec.ofNat 64 (b.resume + (32 - b.vl32) * 2 ^ 48 + b.tcode * 2 ^ 53 + b.gsize * 2 ^ 56 + b.gmem * 2 ^ 60)

/-- Word 8 of a record (R98). -/
def Barge.word8 (b : Barge) : Word :=
  BitVec.ofNat 64 (b.ctx + b.chan * 2 ^ 12 + b.pri * 2 ^ 28 + b.st.code * 2 ^ 32 + b.fpfl * 2 ^ 36 + b.fpen * 2 ^ 41 +
    b.spf * 2 ^ 46 + b.tiles * 2 ^ 55)

/-- The 64 bytes of a record. -/
def Barge.record (b : Barge) : List Byte :=
  leBytes 8 b.word0.toNat ++ leBytes 8 b.word8.toNat ++ b.carry.flatMap (fun w => leBytes 8 w.toNat)

/-- Does a record break R99? -/
def recordBad (w0 w8 : Nat) : Bool :=
  bits w8 62 2 != 0 || bits w8 31 1 != 0 || decide (5 < bits w8 32 4) || w0 % 4 != 0 ||
    decide (bits w0 56 4 < bits w0 60 4) || decide (256 < bits w8 46 9) || decide (64 < bits w8 55 7)

/-- The barge of a record, as the record stands (R98). -/
def ofRecord (w : List Word) : Barge :=
  let w0 := (w.getD 0 0).toNat
  let w8 := (w.getD 1 0).toNat
  { gmem := bits w0 60 4, gsize := bits w0 56 4, tcode := bits w0 53 3, vl32 := 32 - bits w0 48 5,
    resume := bits w0 0 48, tiles := bits w8 55 7, spf := bits w8 46 9, fpen := bits w8 41 5, fpfl := bits w8 36 5,
    pri := bits w8 28 3, chan := bits w8 12 16, ctx := bits w8 0 12, carry := (w.drop 2).take 6 }

/-- Eight bytes as a word. -/
def wordOf (l : List Byte) : Word := BitVec.ofNat 64 (leNum (l.take 8))

/-- Bytes cut into 8-byte words. -/
def wordsOf : Nat → List Byte → List Word
  | 0, _ => []
  | n + 1, l => wordOf l :: wordsOf n (l.drop 8)

/-- The physical address of a record or successor, where it translates, and whether it may be written. -/
def State.recAt (s : State) (ctx : Nat) (va : Word) : Option (Nat × Bool) :=
  if 2 ^ 48 ≤ va.toNat then none
  else match s.translate ctx va.toNat with
    | none => none
    | some (_, n, pa) => if (peerOf pa).isSome || !s.directOk pa then none else some (pa, n.w)

def State.recAddr (s : State) (ctx : Nat) (va : Word) : Option Nat := (s.recAt ctx va).map (·.1)

/-- The pool entry whose record is at a physical address (R324, R327). -/
def State.poolAt (s : State) (pa : Nat) : Option Nat :=
  (s.barges.find? (fun e => e.2.recPa == pa && e.2.st != .ended)).map (·.1)

/-- An affinity word without a reserved bit and with a core that exists (R331). -/
def affOk (w : Word) : Bool := bits w.toNat 14 50 == 0 && bits w.toNat 10 2 == 0 && decide (bits w.toNat 0 10 ≤ 639)

/-! ## Readiness -/

/-- A barge with PRED 0 becomes READY, or asks its channel for a message where it is BOUND (R326). The receipt of one whose channel is
not its own has a KIND and BADGE that no rule gives (R299; notes/assumptions/30.md). -/
def State.seekReady (s : State) (bid : Nat) : State :=
  let b := s.barge bid
  if b.st == .created && b.pred == 0 then
    if b.bound && !b.claimed then
      if (s.chan b.chan).owner == some b.ctx then s.requestMsg b.chan bid
      else
        let s := s.updB bid (fun b => { b.writeWin 0 (statusReceipt 12) with claimed := true })
        s.qualify bid
    else s.qualify bid
  else s

/-- PRED of a barge, or of its gang, falls by one (R327, R328). -/
def State.decPred (s : State) (bid : Nat) : State :=
  let b := s.barge bid
  if b.st == .created && decide (0 < b.pred) then
    let g := s.gangOf bid
    let s := g.foldl (fun s m => s.updB m (fun b => { b with pred := b.pred - 1 })) s
    g.foldl (fun s m => s.seekReady m) s
  else s

/-! ## Creation (R321 to R325) -/

/-- What a spawn finds at one record: its address, whether it may be written, its words. -/
structure RecAt where
  va : Nat
  pa : Option Nat
  wr : Bool
  words : List Word
  deriving DecidableEq, Repr

/-- The rows of R325 for one spawn, the highest that applies; 0 for OK. -/
def State.spawnStatus (s : State) (ctx : Nat) (gang : Bool) (d : List Word) (recs : List RecAt)
    (succ : List (Option Nat)) : Nat :=
  let recVa := (d.getD 0 0).toNat
  let ctl := (d.getD 1 0).toNat
  let there := recs.filter (fun r => r.pa.isSome)
  let size (r : RecAt) : Nat := bits (r.words.getD 0 0).toNat 56 4
  let bad (i : Nat) (r : RecAt) : Bool :=
    let w0 := (r.words.getD 0 0).toNat
    let w8 := (r.words.getD 1 0).toNat
    recordBad w0 w8 || bits w8 32 4 != 0 || (match r.pa with | some p => (s.poolAt p).isSome | none => false) ||
      (ctl / 2 ^ 16 % 2 == 1 && bits w8 46 9 == 0) ||
      (if gang then size r == 0 || bits w0 60 4 != i || size r != recs.length - 1 else size r != 0)
  if decide (2 ^ 17 ≤ ctl) || !affOk (d.getD 5 0) || d.getD 6 0 != 0 || recVa % 64 != 0 || decide (2 ^ 48 ≤ recVa) ||
      (recs.zipIdx.any (fun e => e.1.pa.isSome && bad e.2 e.1)) then 2
  else if there.any (fun r => bits (r.words.getD 1 0).toNat 0 12 != ctx) then 3
  else if recs.any (fun r => r.pa.isNone || !r.wr) || succ.any (fun x => x.isNone) then 8
  else if succ.any (fun x => match x with
      | none => false
      | some p => match s.poolAt p with
        | none => true
        | some k => (s.barge k).ctx != ctx || (s.barge k).st != .created) then 4
  else if 1048576 < (s.barges.filter (fun e => e.2.st != .ended)).length + recs.length then 5
  else 0

/-- The records a spawn names: one, or GSIZE + 1 of member 0's record in address order (R324). -/
def State.recsAt (s : State) (ctx : Nat) (va n : Nat) : List RecAt :=
  (List.range n).map (fun i =>
    let v := va + 64 * i
    match s.recAt ctx (BitVec.ofNat 64 v) with
    | some (pa, wr) => ⟨v, some pa, wr, wordsOf 8 (s.bytesAt (s.homeDie (s.vcAt pa) pa) pa 64)⟩
    | none => ⟨v, none, false, []⟩)

/-- Reading records touches the lines that hold them, as any read at its home does (R263, R274). -/
def State.touchRecs (s : State) (l : List RecAt) : State :=
  l.foldl (fun s r => match r.pa with | some pa => s.touchRead (s.vcAt pa) pa 64 | none => s) s

/-- How many records a spawn names. -/
def State.recCount (s : State) (ctx : Nat) (gang : Bool) (d : List Word) : Nat :=
  let one := s.recsAt ctx (d.getD 0 0).toNat 1
  if gang then bits (((one.getD 0 ⟨0, none, false, []⟩).words.getD 0 0).toNat) 56 4 + 1 else 1

/-- Is a record of a spawn on a die that serves no access (R277, R366), or where a stall leaves it unread (R359)? The spawn cannot be
performed then. -/
def State.recStopped (s : State) (ctx : Nat) (gang : Bool) (d : List Word) : Bool :=
  (s.recsAt ctx (d.getD 0 0).toNat (s.recCount ctx gang d)).any (fun r =>
    r.pa.any (fun pa => !s.isIsolated pa && (s.stalled (s.vcAt pa) pa 64).isSome))

/-- Create the barges of a spawn descriptor for a context (R324): the status of R325 and the new state. -/
def State.create (s : State) (ctx : Nat) (gang : Bool) (d : List Word) (packet : Option (Nat × Nat)) : Nat × State :=
  let recVa := (d.getD 0 0).toNat
  let n := s.recCount ctx gang d
  let recs := s.recsAt ctx recVa n
  let succW := [d.getD 2 0, d.getD 3 0, d.getD 4 0].filter (fun w => w != 0)
  let succ := succW.map (fun w => s.recAddr ctx w)
  let st := s.spawnStatus ctx gang d recs succ
  let s := s.touchRecs recs
  if st ≠ 0 then (st, s)
  else
    let ctl := (d.getD 1 0).toNat
    let first := s.nextBid
    let ids := succ.filterMap (fun x => x.bind s.poolAt)
    let s1 := recs.zipIdx.foldl (fun s (r, i) =>
      let b : Barge := { ofRecord r.words with
        recVa := r.va, recPa := r.pa.getD 0, recCtx := ctx, gang := if gang then first else 0, pred := ctl % 65536,
        bound := ctl / 65536 % 2 == 1, succ := ids, aff := d.getD 5 0, packet := packet }
      s.setB (first + i) b) { s with nextBid := s.nextBid + n }
    let s2 := (List.range n).foldl (fun s i => s.seekReady (first + i)) s1
    -- STATE 0 or 1 is written to the record's memory at acceptance (R320), behind a lease (R163)
    let s3 := recs.zipIdx.foldl (fun s (r, i) =>
      let b := s.barge (first + i)
      let stc := if b.st == .created then 0 else 1
      let w8 := (r.words.getD 1 0).toNat
      s.ownWrite 0 (s.vcAt (r.pa.getD 0)) (r.pa.getD 0 + 8) (leBytes 8 (w8 - bits w8 32 4 * 2 ^ 32 + stc * 2 ^ 32))) s2
    (0, s3)

/-! ## Ending (R320, R328, R102) -/

/-- The commands that committed regions have released and no engine has accepted yet (R12). -/
def State.lateCmds (s : State) : List Cmd :=
  s.barges.flatMap (fun e => e.2.late.filterMap (fun x => match x with | .cmd _ _ c => some c | _ => none))

/-- Is a command that names a byte of a barge's window released and not finished in its sluice or array (R102)? -/
def State.inEngine (s : State) (bid : Nat) : Bool :=
  s.lateCmds.any (fun c => s.names c bid) ||
    s.slu.cmds.any (fun e => e.2.any (fun c => s.names c.cmd bid)) ||
    s.arr.queue.any (fun e => e.2.any (fun c => s.names c.cmd bid)) ||
    s.arr.running.any (fun e => s.names e.2.m.cmd bid)

/-- Is a command that a barge issued accepted and not finished in its sluice or array? -/
def State.issuedIn (s : State) (bid : Nat) : Bool :=
  s.slu.cmds.any (fun e => e.2.any (fun c => c.cmd.barge == bid)) ||
    s.arr.queue.any (fun e => e.2.any (fun c => c.cmd.barge == bid)) ||
    s.arr.running.any (fun e => e.2.m.cmd.barge == bid)

/-- A released window is gone, contents and all. -/
def Barge.dropWindow (b : Barge) : Barge :=
  { b with spf := 0, tiles := 0, window := [], full := [], spPoison := [], tileTab := [], arrivals := [] }

/-- Release the windows of ended barges (R102): every member of the gang has ended and no sluice or matrix command that
names a byte of the window is in progress. The barge's entry goes with its last command. -/
def State.reap (s : State) : State :=
  let gone (e : Nat × Barge) : Bool :=
    e.2.st == .ended && !e.2.owes && (s.gangOf e.1).all (fun m => (s.barge m).st == .ended) && !s.inEngine e.1
  { s with barges := (s.barges.filter (fun e => !(gone e && !s.issuedIn e.1))).map (fun e =>
      if gone e then (e.1, e.2.dropWindow) else e) }

/-- The record of an ended barge goes back to memory through the creating context's translation (R319), behind a lease of its
granule (R163). -/
def State.writeBack (s : State) (bid : Nat) (b : Barge) : State :=
  match s.recAt b.recCtx (BitVec.ofNat 64 b.recVa) with
  | some (pa, true) => s.ownWrite bid (s.vcAt pa) pa b.record
  | _ => s.wharfError b.recCtx

/-- Count an event for the coarsened counters of a context's tenant (R364). -/
def State.count (s : State) (ctx k n : Nat) : State :=
  { s with hst := { s.hst with exact := tupd 0 s.hst.exact ((s.ctx ctx).partition * 8 + k) (· + n) } }

/-- Count a command that completes REFUSED (R364). -/
def State.refusal (s : State) (ctx code : Nat) : State := if code = 2 then s.count ctx 5 1 else s

/-- Change the packet of a queue and number. -/
def State.updPacket (s : State) (qi n : Nat) (f : Packet → Packet) : State :=
  let ps := s.hst.packets.map (fun (p : Packet) => if p.qi = qi ∧ p.n = n then f p else p)
  { s with hst := { s.hst with packets := ps } }

/-- Does the write of an ended barge's record still wait behind a lease? -/
def State.recordDue (s : State) (bid : Nat) : Bool :=
  s.mem.leaseQ.any (fun r => match r with | .ownWrite b _ _ _ => b == bid && decide (0 < b) | _ => false)

/-- Is something that an ended barge released, or its record, still on its way behind a lease? The rest of its end waits then. -/
def State.endWaits (s : State) (bid : Nat) : Bool :=
  s.recordDue bid || !(s.barge bid).late.isEmpty || s.coreWaits bid (s.barge bid).core

/-- Step 2 of a commit (R13, R90): the record takes the resume address, s1 to s6, shape and FP state; every register but s0 to s6 is
zero. DESIGN CHOICE: a resume address of 2^48, which word 0 of the record cannot hold (R98 gives it bits 47:0), is recorded as 0, while
the barge itself goes on at 2^48, whose fetch faults (notes/assumptions/11.md). -/
def Barge.recordCommit (b : Barge) (resume : Nat) : Barge :=
  let carry := (List.range 6).map (fun i => tgetD 0 b.sreg (i + 1))
  { b with
    resume := resume % 2 ^ 48, carry := carry, sreg := carryTab carry, vreg := [], fpen := b.rfpen, fpfl := b.rfpfl,
    vl32 := b.rvl32, tcode := b.rtcode, pc := resume, eff := [], used := [], leases := [], run := none, frame := none,
    unanswered := none }

/-- A barge as step 2 of the commit in progress leaves it. -/
def Barge.sealed (b : Barge) : Barge :=
  match b.commit with
  | some c => if c.recorded then b else { b.recordCommit c.resume with commit := some { c with recorded := true } }
  | none => b

/-- The record of an ended barge has reached memory, and every effect that it released is performed at .M: where every member of its
gang is as far, each successor's PRED falls by one (R328 steps 2 and 3). -/
def State.ended (s : State) (bid : Nat) : State :=
  let s := s.drainAll.updB bid (fun b => { b with owes := false })
  (if (s.gangOf bid).all (fun m => (s.barge m).st == .ended && !(s.barge m).owes) then
    (s.barge bid).succ.foldl (fun s k => s.decPred k) s
  else s).reap

/-- The barge ends (R328, R187, R189, R307), with or without fault status: what it released is performed at .M, and so is the
write of its record, before a successor's count falls. DEDUCED: the token of a call that it waits in is gone with it, and a `REPLY` to
it completes BADTOKEN (R301, notes/assumptions/22.md). One that ends within a commit (R307) has what its region released released,
and its record is that commit's (notes/assumptions/29.md). -/
def State.endBarge (s : State) (bid : Nat) (faulted : Bool) : State :=
  match s.barge? bid with
  | none => s
  | some b0 =>
    let s := s.drainAll
    let b := { b0.sealed with
      commit := none, st := .ended, faulted := faulted, run := none, frame := none, eff := [], used := [], leases := [], held := none,
      fpx := none, preempt := false, kept := false, unanswered := none, faultToken := 0, sreg := [], vreg := [], owes := true }
    let s := (s.setB bid b).writeBack bid b
    let s := if b0.faultToken = 0 then s else s.useToken b0.faultToken
    let s : State := { s with map := { s.map with
      tokens := s.map.tokens.filter (fun e => e.2.barge != bid)
      chans := s.map.chans.map (fun e => (e.1, { e.2 with
        waiters := e.2.waiters.erase bid, heldFaults := e.2.heldFaults.filter (fun h => h.bid != bid) })) } }
    let s := s.count b.ctx 4 1
    let s := match b.packet with
      | some (qi, n) =>
        if faulted then s.updPacket qi n (fun p => { p with faulted := true }) else s
      | none => s
    let s := s.leaveQueue bid
    if s.endWaits bid then s else s.ended bid

/-- The region's reserved numbers complete void with ABORTED (R14, R16). -/
def voidNumbers (s : State) : List Effect → State
  | [] => s
  | .cmd k n _ :: r => voidNumbers (s.finish k n 1) r
  | _ :: r => voidNumbers s r

/-- The restart state of a barge (R14): its record as captured, every register but s0 to s6 zero. -/
def Barge.restart (b : Barge) : Barge :=
  { b with
    pc := b.resume, sreg := carryTab b.carry, vreg := [], rfpen := b.fpen, rfpfl := b.fpfl, rvl32 := b.vl32,
    rtcode := b.tcode, run := none, frame := none, eff := [], used := [], leases := [],
    unanswered := none }

/-- A region abort (R14). A region that is being committed is none that could abort: what it released is never undone. -/
def State.abortRegion (s : State) (bid : Nat) : State :=
  match s.barge? bid with
  | none => s
  | some b => if b.commit.isSome then s else ((voidNumbers s b.eff).setB bid b.restart).leaveQueue bid

end Sys2Proof.Machine
end

