-- ==== Sys2Proof/Machine/HostMem.lean ====
section
/-! DEFINITION. Host memory as the host edges reach it (21_host R349, R353), targets that do not answer (R359), the event
rings (R356) and the isolation of a target (R219, R357, R371). -/

namespace Sys2Proof.Machine

/-- A host address that lies in a port's window. -/
def hostAddrOk (a : Nat) : Bool := decide (a < 0x200000000000)

/-- A write of host memory by a port's host edge, behind a lease of the granule (R163) and behind the port's earlier ones (R354,
R356). -/
def State.hostWrite (s : State) (port a : Nat) (bs : List Byte) : State :=
  s.ownWrite 0 0 (hostPa port a) bs

/-- Does a write by a port's host edge wait behind a lease still? -/
def State.edgeBusy (s : State) (port : Nat) : Bool := s.mem.leaseQ.any (fun r => r.edge == some port)

/-- Is a read of host memory by a port's host edge left without an answer now: by a stalled target (R359), or behind a lease or
requests of its granules (R163)? -/
def State.edgeWaits (s : State) (port a n : Nat) : Bool :=
  (s.stalled 0 (hostPa port a) n).isSome || !(s.busyIn (hostPa port a) n (fun _ => true)).isEmpty

/-- A read of host memory by a port's host edge. -/
def State.hostRead (s : State) (port a n : Nat) : List Byte := s.bytesAt (memHomeDie s (hostPa port a)) (hostPa port a) n

/-- The codes of R356. -/
def evPktRef : Nat := 1
def evNotify : Nat := 2
def evIntDrop : Nat := 3
def evQcbMis : Nat := 4
def evIsolated : Nat := 5
def evShareWd : Nat := 6
def evDieFail : Nat := 7
def evThermal : Nat := 8
def evTdiErr : Nat := 9
def evHostRej : Nat := 10
def evLinkDown : Nat := 11
def evPeerIso : Nat := 12

def State.setRing (s : State) (port : Nat) (r : EvRing) : State :=
  { s with hst := { s.hst with events := tset s.hst.events port r } }

/-- CONS as a port has it for an event: it reads it again where the ring is full by what it has read before (R356). A read that is
not answered leaves what it has (notes/assumptions/31.md). -/
def State.consOf (s : State) (port : Nat) (r : EvRing) : Nat :=
  if r.prod - r.cons < r.entries || s.edgeWaits port (r.base + 8) 8 then r.cons else leNum (s.hostRead port (r.base + 8) 8)

/-- Write an event to a port's ring (R356): nothing where no ring is set; a full ring counts it. -/
def State.logEvent (s : State) (port code source detail : Nat) : State :=
  match tget s.hst.events port with
  | none => s
  | some r0 =>
    let r := { r0 with cons := s.consOf port r0 }
    if r.prod - r.cons < r.entries then
      let s := s.hostWrite port (r.base + 64 + 16 * (r.prod % r.entries))
        (leBytes 2 code ++ leBytes 6 source ++ leBytes 8 detail)
      let s := s.hostWrite port r.base (leBytes 8 (r.prod + 1))
      s.setRing port { r with prod := r.prod + 1 }
    else
      let lost := min (r.lost + 1) (2 ^ 64 - 1)
      (s.hostWrite port (r.base + 16) (leBytes 8 lost)).setRing port { r with lost := lost }

/-- An event of the whole module is written by both ports (notes/assumptions/21.md). -/
def State.logBoth (s : State) (code source detail : Nat) : State :=
  (s.logEvent 0 code source detail).logEvent 1 code source detail

/-- The port behind which a host or an expander stands (R349). -/
def State.portOf (s : State) (t : Nat) : Nat := if t < 16 then tgetD 0 s.hst.expanders t else t % 2

/-- A target is isolated and the isolation logged, once: of a host or an expander by its own port, with the number of the
rule, 218 or 357, as the cause; of a peer by both, with R371's cause. -/
def State.isolateFor (s : State) (t cause : Nat) : State :=
  if tgetD false s.slu.isolated t then s
  else if 0x200 ≤ t then (s.isolate t).logBoth evPeerIso (t - 0x200) (Config.causeCode evPeerIso cause)
  else (s.isolate t).logEvent (s.portOf t) evIsolated t (Config.causeCode evIsolated cause)

end Sys2Proof.Machine
end

