-- ==== Sys2Proof/Machine/Accept.lean ====
section
/-! DEFINITION. What happens to each buffered effect when its region commits (01_engines R12, R13): stores,
reductions, arrivals and tile changes are performed, engine commands are accepted by their engines, wharf commands are
performed (20_wharf R323 to R331). -/

namespace Sys2Proof.Machine

/-! ## Barriers (R166, R167) -/

/-- A split barrier record. -/
structure BarRec where
  expect : Nat
  arrived : Nat
  phase : Nat
  pending : Int
  queue : List Nat
  deriving DecidableEq, Repr

/-- A count modulo 2^48, as a signed number. -/
def wrap48 (x : Int) : Int := sintOf 48 (ofSint 48 x)

/-- `arrive` (some bytes) and `complete_check` (none) of R167, `fuel` levels deep. -/
def barStep : Nat → BarRec → Option Nat → BarRec
  | 0, r, _ => r
  | n + 1, r, some y =>
    if r.arrived = r.expect then { r with queue := r.queue ++ [y] }
    else barStep n { r with arrived := r.arrived + 1, pending := wrap48 (r.pending + y) } none
  | n + 1, r, none =>
    if r.arrived = r.expect ∧ r.pending = 0 then
      r.queue.foldl (fun r y => barStep n r (some y)) { r with arrived := 0, phase := 1 - r.phase, queue := [] }
    else r

/-- The barrier record at an offset of a window. -/
def Barge.barRec (b : Barge) (off : Nat) : BarRec :=
  let ctl := leNum (readTab b.window off 8)
  let p := leNum (readTab b.window (off + 8) 6)
  { expect := bits ctl 0 16, arrived := bits ctl 16 16, phase := bits ctl 32 1, pending := sintOf 48 p,
    queue := tgetD [] b.arrivals off }

/-- Write a barrier record back, its reserved bits as they stand. -/
def Barge.setBarRec (b : Barge) (off : Nat) (r : BarRec) : Barge :=
  let ctl := leNum (readTab b.window off 8)
  let ctl' := ctl / 2 ^ 33 * 2 ^ 33 + r.phase * 2 ^ 32 + r.arrived % 2 ^ 16 * 2 ^ 16 + r.expect
  let w := writeTab (writeTab b.window off (leBytes 8 ctl')) (off + 8) (leBytes 6 (ofSint 48 r.pending))
  { b with window := w, arrivals := tput [] b.arrivals off r.queue }

/-- An arrival with bytes, or a completed command's subtraction (R221), at a record (R167): PENDING has 48 bits throughout. -/
def Barge.barChange (b : Barge) (off : Nat) (arrival : Option Nat) (sub : Nat) : Barge :=
  let r := b.barRec off
  let r := { r with pending := wrap48 (r.pending - sub) }
  b.setBarRec off (barStep (2 * r.queue.length + 4) r arrival)

/-! ## Scopes (R160) -/

/-- The scope a word executes at, in its context. -/
def State.effScope (s : State) (ctx : Nat) (sc : Scope) : Nat := min sc.code (s.ctx ctx).scope

/-- Count a narrowed scope (R160, R305). -/
def State.countNarrow (s : State) (ctx : Nat) (sc : Scope) : State :=
  if (s.ctx ctx).scope < sc.code then s.updCtx ctx (fun c => { c with scopecnt := min (c.scopecnt + 1) (2 ^ 48 - 1) })
  else s

/-- What a core has released and seen so far is performed at a scope (R173, R175, R178, R179): at .C it is from its release
on; at .F and .G every core of the unit sees it; at .D the die's view holds it; from .M up every view does. -/
def State.performAt (s : State) (core ctx : Nat) (sc : Scope) : State :=
  match s.effScope ctx sc with
  | 0 => s
  | 1 => s.setMem (s.mem.spread core 1)
  | 2 => s.setMem (s.mem.spread core 2)
  | 3 => s.setMem (s.mem.bringSeen core [dieOf core])
  | _ => s.setMem (s.mem.bringSeen core allDies)

/-- What a core has released is performed at .G before an arrival or an `STE` (R178). -/
def State.performSpan (s : State) (core : Nat) : State := s.setMem (s.mem.spread core 2)

/-! ## Accepting commands -/

def State.setSluice (s : State) (f : Nat) (l : List SCmd) : State :=
  { s with slu := { s.slu with cmds := tput [] s.slu.cmds f l } }

/-- `SQRST` (R214): every command of the queue that is accepted, lower and not begun completes RESET, or REFUSED where
its descriptor is refused (R215). -/
def resetCmds (s : State) (f q n : Nat) : List SCmd → State
  | [] => s
  | c :: r =>
    let s := resetCmds s f q n r
    if c.q == q && decide (c.n < n) && !c.begun then
      let st := if c.refused || (c.cmd.op.isDesc && s.descRefused c.cmd) then 2 else 8
      -- its completion subtracts, and counts for its tile, as any other's (R221, R211)
      let s := s.finish (tlKey 0 (f * 16 + q)) c.n st
      let s := match s.cmdBar c.cmd with
        | some (m, off) => s.updB m (fun b => b.barChange off none c.cmd.delivered)
        | none => s
      if c.counted then
        s.updB c.cmd.barge (fun b =>
          let t := tgetD {} b.tileTab c.cmd.tile
          let t := { t with filled := t.filled + 1 }
          let t := if t.st = .filling ∧ t.filled = t.fills then { t with st := .ready } else t
          { b with tileTab := tput {} b.tileTab c.cmd.tile t })
      else s
    else s

/-- A sluice accepts a command (R203, R211, R213, R214); `SQCFG` and `SQRST` are performed here, what stands before them
at .M (R180). -/
def State.acceptSluice (s : State) (k n : Nat) (c : Cmd) : State :=
  let fq := k % 65536
  let f := fq / 16
  let q := fq % 16
  match c.op with
  | .sqcfg =>
    let s := s.drainAll
    let v := c.a.toNat
    if bits v 12 52 != 0 || bits v 0 4 != 0 then s.finish k n 2
    else
      let s := { s with slu := { s.slu with cfg := tput {} s.slu.cfg fq ⟨bits v 8 4, max 1 (bits v 4 4)⟩ } }
      s.finish k n 0
  | .sqrst =>
    let s := s.drainAll
    let l := tgetD [] s.slu.cmds f
    let s := resetCmds s f q n l
    let s := s.setSluice f (l.filter (fun c => !(c.q == q && decide (c.n < n) && !c.begun)))
    s.reap.finish k n 0
  | _ =>
    let isFill := c.op.isDesc && c.op != .shint && c.tv
    let ok := s.fillOk c
    let counted := isFill && ok
    let s := if counted then s.updB c.barge (fun b =>
        let t := tgetD {} b.tileTab c.tile
        { b with tileTab := tput {} b.tileTab c.tile { t with fills := t.fills + 1 } }) else s
    let s := s.updB c.barge (fun b => { b with ncmd := b.ncmd + 1 })
    let sc : SCmd := { q := q, n := n, cmd := { c with ord := (s.barge c.barge).ncmd }, tout := (tgetD {} s.slu.cfg fq).tout,
                       refused := isFill && !ok, counted := counted }
    s.setSluice f (tgetD [] s.slu.cmds f ++ [sc])

/-- The array accepts a command (R231, R245, R250): a drain command takes its tile entry from ready to draining. -/
def State.acceptMatrix (s : State) (n : Nat) (c : Cmd) : State :=
  let bad :=
    c.op == .mringadv && bits c.a.toNat 3 1 == 1 &&
      decide ((s.tl (tlKey 0 (flightOf c.core * 16 + bits c.a.toNat 4 4))).issued < c.b.toNat)
  let s := if c.op == .maccwr then
      s.updB c.barge (fun b =>
        let t := tgetD {} b.tileTab (bits c.b.toNat 0 6)
        { b with tileTab := tput {} b.tileTab (bits c.b.toNat 0 6) { t with st := .draining } })
    else s
  let q := tgetD [] s.arr.queue c.core
  { s with arr := { s.arr with queue := tset s.arr.queue c.core (q ++ [⟨n, c, bad⟩]) } }

def State.acceptComposer (s : State) (k n : Nat) (c : Cmd) : State :=
  let v := k % 65536
  { s with com := { s.com with queue := tset s.com.queue v (tgetD [] s.com.queue v ++ [(n, c)]) } }

def State.acceptMapping (s : State) (n : Nat) (c : Cmd) : State :=
  { s with map := { s.map with queue := tset s.map.queue c.ctx (tgetD [] s.map.queue c.ctx ++ [(n, c)]) } }

/-! ## Wharf commands (R323 to R331), performed at their commit -/

/-- PRIMAX of a context's tenant (R330, R338). -/
def State.primax (s : State) (ctx : Nat) : Nat := (tgetD {} s.whf.tenants (s.ctx ctx).partition).primax

/-- `SPAWN` and `SPAWNG`: the RESULT word of the descriptor takes the status (R321, R324). -/
def State.spawnCmd (s : State) (gang : Bool) (c : Cmd) : State :=
  let (st, s) := s.create c.ctx gang c.args (s.barge c.barge).packet
  match s.spad c.barge c.a 64 with
  | some (m, off) => s.updB m (fun b => b.writeWin (off + 56) (leBytes 8 st))
  | none => s

def State.pdecCmd (s : State) (c : Cmd) : State :=
  match (s.recAddr c.ctx c.a).bind s.poolAt with
  | some k =>
    let b := s.barge k
    if b.ctx == c.ctx && b.st == .created && decide (0 < b.pred) then s.decPred k else s.wharfError c.ctx
  | none => s.wharfError c.ctx

def State.chpriCmd (s : State) (c : Cmd) : State :=
  s.updB c.barge (fun b => { b with pri := min (bits c.a.toNat 0 3) (s.primax c.ctx) })

def State.affinCmd (s : State) (c : Cmd) : State :=
  if affOk c.a then (s.gangOf c.barge).foldl (fun s m => s.updB m (fun b => { b with aff := c.a })) s
  else s.wharfError c.ctx

/-- A command that a commit releases is accepted by its engine (R12, R16); a wharf command is performed (R323). -/
def State.accept (s : State) (k n : Nat) (c : Cmd) : State :=
  let s := match (s.barge c.barge).packet with
    | some (qi, pn) => if n = 0 then s else s.updPacket qi pn (fun p => { p with cmds := (k, n) :: p.cmds })
    | none => s
  match c.op with
  | .scopy | .scopy2d | .sfill | .scvt | .shint | .sqcfg | .sqrst => s.acceptSluice k n c
  | .mturn | .mtend | .mringcfg | .mringadv | .mzero | .mma _ | .mmax | .mrec | .mldprog | .maccrd _ | .maccwr =>
    s.acceptMatrix n c
  | .cdef | .crsz | .cflush | .cinval | .cplace | .cdrop => s.acceptComposer k n c
  | .map | .grant | .unmap | .unmapx | .send | .reply | .epdrop | .chbind => s.acceptMapping n c
  | .spawn => s.drainAll.spawnCmd false c
  | .spawng => s.drainAll.spawnCmd true c
  | .pdec => s.drainAll.pdecCmd c
  | .chpri => s.drainAll.chpriCmd c
  | .affin => s.drainAll.affinCmd c

/-! ## Performing a region's effects -/

/-- One buffered effect is released (R12, R13 step 1). DEDUCED: before an arrival, what precedes it in program order is performed at
.G; an effect that follows it, released by the same commit too, a `BWAIT` need not acquire (R168, R178; notes/assumptions/6.md). -/
def State.perform (s : State) (bid : Nat) (e : Effect) : State :=
  let b := s.barge bid
  match e with
  | .store spc ps => s.releaseStore bid b.core spc ps
  | .spad m off bytes => s.updB m (fun t => t.writeWin off bytes)
  | .stf m off w =>
    s.updB m (fun t => { t.writeWin off (leBytes 8 w.toNat) with full := tput false t.full (off / 8) true })
  | .red _ _ sc _ _ _ => ((s.countNarrow b.ctx sc).performAt b.core b.ctx sc).releaseMerge bid b.core e
  | .xa _ sc _ _ _ => ((s.countNarrow b.ctx sc).performAt b.core b.ctx sc).releaseMerge bid b.core e
  | .fence sc => s.performAt b.core b.ctx sc
  | .arrive m off add => (s.performSpan b.core).updB m (fun t => t.barChange off (some add) 0)
  | .tileDef t d => s.updB bid (fun b => { b with tileTab := tput {} b.tileTab t d })
  | .tileRel t => s.updB bid (fun b => { b with tileTab := tdel b.tileTab t })
  | .cmd k n c => s.accept k n c

/-! ## Effects that wait (R163, R178) -/

/-- Would a spawn read a record on a die that serves no access (R277)? -/
def State.spawnStops (s : State) (c : Cmd) : Bool :=
  (c.op == .spawn || c.op == .spawng) && s.recStopped c.ctx (c.op == .spawng) c.args

/-- Is a command one of the wharf's (R322)? -/
def Op.isWharf : Op → Bool
  | .spawn => true | .spawng => true | .pdec => true | .chpri => true | .affin => true | _ => false

/-- Is a command performed as its commit releases it, at .M (R180, R213, R214, R323)? -/
def Op.atOnce : Op → Bool
  | .sqcfg => true | .sqrst => true | o => o.isWharf

/-- Does an effect order at a scope wider than .C what its barge released before it (R159, R178, R180)? -/
def State.orders (s : State) (ctx : Nat) (e : Effect) : Bool :=
  match e with
  | .red _ _ sc _ _ _ => decide (0 < s.effScope ctx sc)
  | .xa _ sc _ _ _ => decide (0 < s.effScope ctx sc)
  | .fence sc => decide (0 < s.effScope ctx sc)
  | .arrive _ _ _ => true
  | .cmd _ _ c => c.op.atOnce
  | _ => false

/-- The granules of global memory that an effect writes. -/
def Effect.global : Effect → List Nat
  | .store _ ps => ps.flatMap (fun p => granules p.pa p.bytes.length)
  | .red _ _ _ pa _ _ => [pa / 64]
  | .xa _ _ pa _ _ => [pa / 64]
  | _ => []

/-- Must an effect that a commit releases now wait: where it orders what was released before it, while some of that waits behind a
lease (`held`), or a spawn for a record that is not read (R277, R359)? A store, a reduction or an XA add itself is released, and waits at
its granule (R163). -/
def State.keptBack (s : State) (bid : Nat) (held : Bool) (e : Effect) : Bool :=
  (held && s.orders (s.barge bid).ctx e) || (match e with | .cmd _ _ c => s.spawnStops c | _ => false)

/-- The effects that a barge has still to release are released in program order (R12), up to the first that must wait. -/
def performAll (bid : Nat) (s : State) : List Effect → State
  | [] => s
  | e :: r =>
    if s.keptBack bid (s.coreWaits bid (s.barge bid).core) e then s
    else performAll bid ((s.updB bid (fun b => { b with late := r })).perform bid e) r

/-- Can a barge's late effects go on? -/
def State.lateReady (s : State) (bid : Nat) (b : Barge) : Bool :=
  match b.late with | [] => false | e :: _ => !s.keptBack bid (s.coreWaits bid b.core) e

end Sys2Proof.Machine
end

