-- ==== Sys2Proof/Machine/Ops.lean ====
section
/-! DEFINITION. The operations every word shares: the commit of a region (01_engines R13, 05_core_state R90), TAKING AN
EXCEPTION and the return from one (10_core_faults R184 to R190), the held operations of suspension points (08_core_memory
R150 to R153, R168, R170, R172, 18_mapping R298, R300), the end of a run (04_encoding R69, R70) and what a word leaves. -/

namespace Sys2Proof.Machine

/-! ## Exceptions (R184 to R190) -/

/-- The core and slot that issued the reported word (R186). -/
def Exc.place (x : Exc) (b : Barge) : Nat × Nat := x.site.getD (b.core, b.slot)

/-- Word s1 of the fault message (R186). -/
def Exc.info (x : Exc) (b : Barge) : Word :=
  BitVec.ofNat 64 (x.cls + x.detail * 2 ^ 8 + b.ctx * 2 ^ 12 + (x.place b).1 * 2 ^ 24 + (x.place b).2 * 2 ^ 34 + x.after.toNat * 2 ^ 37 +
    (match x.fpx with | some f => f.raised * 2 ^ 38 + f.enables * 2 ^ 43 + 2 ^ 48 | none => 0))

/-- The six words of the fault message (R186). -/
def Exc.words (x : Exc) (b : Barge) : List Word :=
  [x.info b, BitVec.ofNat 64 x.pc, x.s3, BitVec.ofNat 64 b.recVa, x.s5, x.s6]

/-- TAKING AN EXCEPTION (R188). An aborting class aborts the region first; of an after-commit class the commit is
complete. Then the message goes to the context's pager or supervisor (R187) and the barge takes STATE PARKED and leaves
its slot; an undeliverable message ends the barge with fault status. -/
def State.takeExc (s : State) (bid : Nat) (x : Exc) : State :=
  match s.barge? bid with
  | none => s
  | some b0 =>
    let s := if x.after then s else s.abortRegion bid
    let s := s.count b0.ctx 5 1
    match s.faultChan b0.ctx x.cls with
    | none => s.endBarge bid true
    | some ch =>
      let (tok, s) := s.freshOf bid { barge := bid, isFault := true, afterCommit := x.after }
      let s := s.updB bid (fun b => { b.restart with
        st := .parked, held := none, fpx := none, preempt := false, faultToken := tok })
      s.sendFault bid ch (s.faultVia b0.ctx x.cls) ⟨x.words b0, BitVec.ofNat 64 b0.ctx, 2, tok⟩

/-- The exception of an enabled FP flag (R190, R186). DESIGN CHOICE: its own message has FPX, FPEN and FPRSD zero, since it stands
for no other class beside which R190 would report the flag (notes/assumptions/18.md). -/
def Fpx.exc (f : Fpx) : Exc :=
  { cls := 0x0E, pc := f.pc, s5 := BitVec.ofNat 64 (f.raised + f.enables * 32), after := true, site := some f.site }

/-- THE RETURN FROM AN EXCEPTION: a handler's reply to a parked barge (R189). `none` where the disposition is refused. DEDUCED:
the words of SETCARRY stand in the record of a barge that END ends, too (notes/assumptions/35.md). -/
def State.replyFault (s : State) (bid : Nat) (w : List Word) : Option State :=
  let r := (w.getD 0 0).toNat
  if 8 ≤ r ∨ 2 ≤ r % 4 then none
  else
    let s := s.updB bid (fun b =>
      let b := if r / 4 = 1 then b.setCarry ((w.drop 1).take 5 ++ [b.carry.getD 5 0]) else b
      { b with faultToken := 0 })
    if r % 4 = 1 then some (s.endBarge bid true) else some (s.makeReady bid)

/-! ## Held operations (R151) -/

/-- A result of a commit point: kept for s1 to s6, in the record too; discarded for any other register (R90). -/
def Barge.setResult (b : Barge) (d : Nat) (v : Word) : Barge :=
  if 1 ≤ d ∧ d ≤ 6 then { b with carry := b.carry.set (d - 1) v, sreg := tput 0 b.sreg d v } else b

/-- The word of a window at an offset, its full bit and its poison (R103, R217). -/
def Barge.wordAt (b : Barge) (off : Nat) : Word := BitVec.ofNat 64 (leNum (readTab b.window off 8))
def Barge.isFull (b : Barge) (off : Nat) : Bool := tgetD false b.full (off / 8)
def Barge.wordPoison (b : Barge) (off : Nat) : Bool := tgetD false b.spPoison (off / 8)
def Barge.setFull (b : Barge) (off : Nat) (v : Bool) : Barge := { b with full := tput false b.full (off / 8) v }

/-- An atomic's new value (R153), by the op code of R87. -/
def amoNew (op w old x c : Nat) : Nat :=
  match op with
  | 0 => x
  | 1 => if old = c then x else old
  | n + 2 => redMerge n w old x

/-- Does a target answer a core now? A host or an expander may leave an access unanswered of itself (R357). DESIGN CHOICE: nothing
says when one does, and a free value does (notes/assumptions/14.md). -/
def State.answers (s : State) (t : Nat) : Bool := decide (0x200 ≤ t) || !Config.silent t s.fresh

/-- The target that leaves a core's access unanswered now: one that is stalled, or one that has not answered the barge. -/
def State.unheard (s : State) (b : Barge) (vc pa n : Nat) : Option Nat :=
  match s.stalled vc pa n with
  | some t => some t
  | none => (targetOf pa).filter (fun t => !b.heard && !s.answers t)

/-- An access of a barge goes unanswered, from now or still. -/
def State.noAnswer (s : State) (bid t : Nat) : State :=
  { s.updB bid (fun b => { b with unanswered := some (t, (b.unanswered.map (·.2)).getD s.cycle) }) with fresh := s.fresh + 1 }

/-- A wait of a barge ends with such a receipt. -/
def State.emptyReceipt (s : State) (bid wb off status : Nat) : State :=
  (s.updB bid (fun b => { b with held := none })).updB wb (fun b => b.writeWin off (statusReceipt status))

/-- What an attempt at a held operation gives: it is done, perhaps with an exception; or the barge waits on. -/
inductive Try
  | done (s : State) (x : Option Exc)
  | wait (s : State)
  deriving DecidableEq, Repr

/-- The held operation is done: the barge goes on. -/
def State.unhold (s : State) (bid : Nat) (f : Barge → Barge) : State := s.updB bid (fun b => { f b with held := none })

/-- `LDF`, `LDFN` (R150): performed while the bit is full; a poisoned word raises class 0x0A and
changes nothing, the destination reading zero (R193). -/
def State.tryLoadFull (s : State) (bid pc d wb off ea : Nat) (keep : Bool) : Try :=
  let w := s.barge wb
  if !w.isFull off then .wait s
  else if w.wordPoison off then
    .done (s.unhold bid (fun b => b.setResult d 0)) (some { cls := 0x0A, pc := pc, s3 := BitVec.ofNat 64 ea, after := true })
  else
    let v := w.wordAt off
    let s := if keep then s else s.updB wb (fun b => b.setFull off false)
    .done (s.unhold bid (fun b => b.setResult d v)) none

/-- `STE` (R150): performed while the bit is empty; what its commit and earlier ones released is performed at .G first
(R178), and so it waits for what waits behind a lease. -/
def State.tryStoreEmpty (s : State) (bid wb off : Nat) (v : Word) : Try :=
  if (s.barge wb).isFull off || s.coreWaits bid (s.barge bid).core then .wait s
  else
    let s := (s.performSpan (s.barge bid).core).updB wb (fun b => (b.writeWin off (leBytes 8 v.toNat)).setFull off true)
    .done (s.unhold bid id) none

/-- An atomic's own effect (R153), at the home of its word. It waits for the granule (R163), at a scope wider than .C for what its
core has released and a lease holds back (R159), and, once sent, for its target's answer (R357). -/
def State.tryAtomic (s : State) (bid pc op : Nat) (wide : Bool) (sc : Scope) (d ea pa vc : Nat) (x c : Word) : Try :=
  let b := s.barge bid
  let n := if wide then 8 else 4
  let poison := some { cls := 0x0A, pc := pc, s3 := BitVec.ofNat 64 ea, after := true }
  let result (v : Word) (b : Barge) : Barge := { b.setResult d v with unanswered := none }
  if s.blocked bid pa n then .wait (s.enqueue bid (s.blockedIn bid pa n))
  else if s.isIsolated pa then .done (s.unhold bid (result 0)) poison
  else if b.unanswered.isNone && decide (0 < s.effScope b.ctx sc) && s.coreWaits bid b.core then .wait s
  else
    match s.unheard { b with heard := b.unanswered.isSome } vc pa n with
    | some t => .wait (s.noAnswer bid t)
    | none =>
      let r := (s.performAt b.core b.ctx sc).lastAt b.core vc pa n
      if r.1.poisonedIn (s.homeDie vc pa) pa n then .done (r.1.unhold bid (result 0)) poison
      else
        let s := (r.1.countNarrow b.ctx sc).touchLoad b.core vc pa .home
        let old := leNum r.2
        let new := amoNew op (8 * n) old (x.toNat % 2 ^ (8 * n)) (c.toNat % 2 ^ (8 * n))
        let s := if op = 1 ∧ old ≠ c.toNat % 2 ^ (8 * n) then s
          else s.mergeMem b.core vc pa (leBytes n new)
        .done (s.unhold bid (result (sextW (8 * n) old))) none

/-- `RECV` (R298). -/
def State.tryRecv (s : State) (bid : Nat) (chan : Option Nat) (wb off : Nat) (poll : Bool) : Try :=
  let b := s.barge bid
  match chan with
  | none => .done (s.emptyReceipt bid wb off 12) none
  | some c =>
    if (s.chan c).owner ≠ some b.ctx then .done ((s.unwait bid).emptyReceipt bid wb off 12) none
    else if (s.chan c).queue.isEmpty then
      if poll then .done (s.emptyReceipt bid wb off 13) none else .wait (s.requestMsg c bid)
    else .done (s.requestMsg c bid) none

/-- The checks of a send through a handle (R294): 3 BADEP, 11 DEAD, 6 FULL, 0 OK. -/
def State.sendStatus (s : State) (ctx : Nat) (h : Word) : Nat :=
  match s.endpoint ctx h with
  | none => 3
  | some e =>
    if !e.s then 3
    else if (s.ctx e.tctx).st != .live || (s.liveOwner e.chan).isNone then 11
    else if !s.hasRoom e.chan then 6
    else 0

/-- `CALL` (R300): the send is tried once, when nothing that its core has released waits behind a lease; then the barge waits for
the reply. -/
def State.tryCall (s : State) (bid : Nat) (h : Word) (wb off : Nat) (words : List Word) (token : Option Nat) : Try :=
  let b := s.barge bid
  match (if s.coreWaits bid b.core then some 0 else token) with
  | some _ => .wait s
  | none =>
    let st := s.sendStatus b.ctx h
    if st ≠ 0 then .done (s.emptyReceipt bid wb off st) none
    else
      match s.endpoint b.ctx h with
      | none => .wait s
      | some e =>
        let s := s.drainAll
        let (tok, s) := s.freshOf bid { barge := bid, isFault := false, target := e.tctx }
        let s := s.updB bid (fun b =>
          { b with held := b.held.map (fun k => { k with op := .call h wb off words (some tok) }) })
        .wait (s.post e.chan ⟨words, e.badge, 1, tok⟩)

/-- The word of a held full/empty operation, and whether it waits for the word to be full. -/
def HeldOp.feWord : HeldOp → Option (Nat × Nat × Bool)
  | .ldf _ wb off _ => some (wb, off, true)
  | .ldfn _ wb off _ => some (wb, off, true)
  | .ste wb off _ => some (wb, off, false)
  | _ => none

/-- Does no resident barge wait longer for the same state of the same word (R150)? -/
def State.feFirst (s : State) (bid : Nat) (h : Held) : Bool :=
  match h.op.feWord with
  | none => true
  | some w => !s.barges.any (fun e => e.1 != bid && e.2.st == .resident && (match e.2.held with
      | some k => k.op.feWord == some w && decide (k.since < h.since)
      | none => false))

/-- An attempt at the held operation of a barge. -/
def State.tryHeld (s : State) (bid : Nat) (h : Held) : Try :=
  match h.op with
  | .ldf d wb off ea => s.tryLoadFull bid h.pc d wb off ea false
  | .ldfn d wb off ea => s.tryLoadFull bid h.pc d wb off ea true
  | .ste wb off v => s.tryStoreEmpty bid wb off v
  | .bwait wb off p => if ((s.barge wb).barRec off).phase = p then .wait s else .done (s.unhold bid id) none
  | .tlwait k n => if n ≤ (s.tl k).completed then .done (s.unhold bid id) none else .wait s
  | .ttwait t => if (tgetD {} (s.barge bid).tileTab t).st = .ready then .done (s.unhold bid id) none else .wait s
  | .recv c wb off poll => s.tryRecv bid c wb off poll
  | .call e wb off words tok => s.tryCall bid e wb off words tok
  | .amo op wide sc d ea pa vc x c => s.tryAtomic bid h.pc op wide sc d ea pa vc x c

/-- Attempt the held operation of a barge, a full/empty one in the order of the requests (R150); when it is done, an exception it met, or
an FP exception that waited for it (R190), is taken. -/
def State.wakeHeld (s : State) (bid : Nat) : State :=
  match s.barge? bid with
  | none => s
  | some b =>
    match b.held with
    | none => s
    | some h =>
      if !s.feFirst bid h then s
      else
        match s.tryHeld bid h with
        | .wait s => s
        | .done s x =>
          let s := s.leaveQueue bid
          match x, b.fpx with
          | some x, f => s.takeExc bid { x with fpx := f, site := some h.site }
          | none, some f => s.takeExc bid f.exc
          | none, none => s

/-! ## Commit (R13, R90, R100) -/

/-- YIELD (R126): the barge returns to the wharf as READY. A gang member keeps its slot while any other member is resident (R336),
unless its slot has been asked for, and is dispatched again to it (notes/assumptions/36.md). -/
def State.yieldBarge (s : State) (bid : Nat) : State :=
  let more := (s.gangOf bid).any (fun m => m != bid && (s.barge m).st == .resident)
  (s.makeReady bid).updB bid (fun b => { b with preempt := false, kept := more && !b.preempt })

/-- What follows a commit whose steps 1 and 2 are complete: the commit point's own effect (R13 step 3). -/
def State.follow (s : State) (bid : Nat) : Follow → State
  | .goOn none => s
  | .goOn (some x) => s.takeExc bid x
  | .hold pc op fpx site =>
    let n := s.whf.readySeq
    let s := { s with whf := { s.whf with readySeq := n + 1 } }
    (s.updB bid (fun b => { b with held := some ⟨pc, op, n, n, site⟩, fpx := fpx })).wakeHeld bid
  | .yield fpx => (s.updB bid (fun b => { b with fpx := fpx })).yieldBarge bid
  | .end_ => s.endBarge bid false

/-- Is step 1 of a commit as far as step 2 asks: every wharf command of the region is performed (R323), and every effect on a granule
that it holds leased released (R164, R182)? DEDUCED: any other effect that is still late holds up neither step 2 nor the end of the
leases, only what follows the commit (R125; notes/assumptions/29.md). -/
def Barge.released (b : Barge) : Bool :=
  b.late.all (fun e => !(match e with | .cmd _ _ c => c.op.isWharf | _ => false) &&
    !e.global.any (fun g => b.leases.any (fun l => l.granule == g)))

/-- The leases of a barge end at its commit: what it wrote to a granule that it holds leased is performed toward every party in one step
(R182), and the requests that waited are served (R163, R164). -/
def State.endLeases (s : State) (bid : Nat) (f : Barge → Barge) : State :=
  let s := s.setMem ((s.barge bid).leases.foldl (fun m l => m.settle allDies (64 * l.granule) 64) s.mem)
  (s.updB bid f).leaveQueue bid

/-- A commit goes on as far as it can: step 2 once step 1 lets it, and what follows once nothing of the region is late. -/
def State.goCommit (s : State) (bid : Nat) : State :=
  match (s.barge bid).commit with
  | none => s
  | some c =>
    let s := if !c.recorded && (s.barge bid).released then s.endLeases bid Barge.sealed else s
    if (s.barge bid).late.isEmpty then (s.updB bid (fun b => { b with commit := none })).follow bid c.follow else s

/-- A barge's late effects go on. -/
def State.goLate (s : State) (bid : Nat) : State := (performAll bid s (s.barge bid).late).goCommit bid

/-- A region commits (R13): its effects are released in program order, its leases end (R164), its record is written, and what follows
takes place. -/
def State.commitRegion (s : State) (bid resume : Nat) (f : Follow) : State :=
  match s.barge? bid with
  | none => s
  | some b =>
    (s.setB bid { b with
      eff := [], used := [], run := none, frame := none, unanswered := none, late := b.late ++ b.eff,
      commit := some ⟨resume, f, false⟩ }).goLate bid

/-! ## The end of a run (R69, R70) -/

/-- `wr` of R95 on the system registers a program can write (R91, R92, R44, R284, R342). Registers that are RO ignore
the write. -/
def State.sysWrite (s : State) (bid n : Nat) (v : Word) : State :=
  let x := v.toNat
  let core := (s.barge bid).core
  match n with
  | 0x010 => { s with leasemax := tput 256 s.leasemax core (min 1024 (max 16 (bits x 0 11))) }
  | 0x100 => s.updB bid (fun b => { b with rfpen := bits x 5 5, rfpfl := bits x 0 5 })
  | 0x500 => { s with map := { s.map with tlease := min 4096 (max 256 (bits x 0 13)) } }
  | 0x600 => { s with whf := { s.whf with slotEn := bits x 16 1 == 1, slotLen := max 10 (bits x 0 16) } }
  | _ => s

/-- One result of a run, as the run ends. -/
def State.putItem (s : State) (bid : Nat) : Item → State
  | .sreg d v => if d = 0 then s else s.updB bid (fun b => { b with sreg := tput 0 b.sreg d v })
  | .vreg d v => s.updB bid (fun b => { b with vreg := tput 0 b.vreg d v })
  | .sys n v => s.sysWrite bid n v
  | .shape g => s.updB bid (fun b => { b with rvl32 := bits g 0 6, rtcode := bits g 24 3 })
  | .eff (.fence sc) => (s.countNarrow (s.barge bid).ctx sc).updB bid (fun b => { b with eff := b.eff ++ [.fence sc] })
  | .eff e => s.updB bid (fun b => { b with eff := b.eff ++ [e] })
  | .cmd d k c =>
    let r := s.reserve k c.ctx
    let s := r.2.updB bid (fun b => { b with eff := b.eff ++ [.cmd k r.1 c] })
    if d = 0 then s else s.updB bid (fun b => { b with sreg := tput 0 b.sreg d (BitVec.ofNat 64 r.1) })

/-- The results of a run, in program order. -/
def State.putItems (s : State) (bid : Nat) : List Item → State
  | [] => s
  | i :: r => (s.putItem bid i).putItems bid r

/-- The commit points of R13 by what their own effect is. -/
inductive Commit
  | plain
  | held (op : HeldOp)
  | yield
  | end_
  | trap (code : Nat) (a b : Word)
  | bkpt
  deriving DecidableEq, Repr

/-- How a run ends: with the next run at an address, with a repeat frame, or with a commit point. -/
inductive Finish
  | next (pc : Nat)
  | frame (f : Frame)
  | commit (c : Commit)
  deriving DecidableEq, Repr

/-- Where a frame goes on after the run that ended at address `pc`: its next run, or the word after it (R81). -/
def Frame.after (f : Frame) (pc : Nat) : Option Frame :=
  let j := (pc - (f.rpt + 4)) / 4 + 1
  if j < f.len then some { f with j := j }
  else if f.i + 1 < f.n then some { f with i := f.i + 1, j := 0 }
  else none

/-- The region goes on with the next run. -/
def Barge.goOn (b : Barge) (here next : Nat) : Barge :=
  match b.frame with
  | none => { b with pc := next, run := none, unanswered := none }
  | some f =>
    match f.after here with
    | some g => { b with frame := some g, run := none, unanswered := none }
    | none => { b with frame := none, pc := f.rpt + 4 + 4 * f.len, run := none, unanswered := none }

/-- Where the commit of an FP exception at the end of a plain run resumes (R190): the next run, or the `RPT` whose frame
the run is in (R124). -/
def Barge.trapResume (b : Barge) (next : Nat) : Nat := match b.frame with | some f => f.rpt | none => next

/-- The address a word is reported at (R79, R185). -/
def Run.at (r : Run) : Nat := match r.pfx with | some p => p.2 | none => r.here.pc

/-- The end of a run (R69): numbers are reserved and results written in program order, flags are ORed in (R45, R96), a
commit point commits (R13) and has its own effect, and an enabled flag that was raised traps (R190). DEDUCED: where the run ends
in `RPT`, the trap's commit records the address of the `RPT` itself, at which the frame's first iteration starts (R124;
notes/assumptions/11.md). -/
def State.endRun (s : State) (bid : Nat) (r : Run) (fin : Finish) : State :=
  let en := (s.barge bid).rfpen
  let x := r.raised &&& en
  let site := ((s.barge bid).core, (s.barge bid).slot)
  let fx : Option Fpx := if x = 0 then none else some ⟨r.raised, en, r.firstFx.getD r.here.pc, site⟩
  let s := s.putItems bid r.items
  let s := s.updB bid (fun b => { b with rfpfl := b.rfpfl ||| r.raised })
  let a := r.here.pc
  match fin with
  | .frame f =>
    match fx with
    | none => s.updB bid (fun b => { b with frame := some f, run := none, unanswered := none })
    | some e => s.commitRegion bid a (.goOn (some e.exc))
  | .next t =>
    match fx with
    | none => s.updB bid (fun b => b.goOn a t)
    | some f => s.commitRegion bid ((s.barge bid).trapResume t) (.goOn (some f.exc))
  | .commit c =>
    match c with
    | .plain => s.commitRegion bid (a + 4) (.goOn (fx.map Fpx.exc))
    | .held op => s.commitRegion bid (a + 4) (.hold r.at op fx site)
    | .yield => s.commitRegion bid (a + 4) (.yield fx)
    | .end_ =>
      match fx with
      | none => s.commitRegion bid (a + 4) .end_
      | some f => s.commitRegion bid a (.goOn (some f.exc))
    | .trap code p q =>
      s.commitRegion bid (a + 4) (.goOn (some
        { cls := 0x0F, pc := a, s3 := BitVec.ofNat 64 code, s5 := p, s6 := q, after := true, fpx := fx }))
    | .bkpt => s.commitRegion bid a (.goOn (some { cls := 0x10, pc := a, after := true, fpx := fx }))

/-! ## What a word leaves -/

/-- The outcome of one word of a run. -/
inductive WOut
  /-- results, flags raised, for a run that goes on or ends in sequence -/
  | items (l : List Item) (fl : Nat)
  /-- results, and a run that ends otherwise -/
  | fin (l : List Item) (f : Finish)
  /-- a prefix for the next word (R79) -/
  | pfx (p : Nat)
  /-- an aborting exception (R70, R184) -/
  | exc (w : Why)
  /-- the word cannot issue now: it waits for granules that leases or earlier requests hold (R163), or for something else -/
  | stall (l : List Nat)
  /-- the target of its access does not answer (R357) -/
  | noAnswer (t : Nat)
  deriving DecidableEq, Repr

/-- The effects of a list of results. -/
def itemEffs (l : List Item) : List Effect := l.filterMap (fun i => match i with | .eff e => some e | _ => none)

/-- The word stands again at the head of its run: it has not issued. -/
def State.restand (s : State) (bid : Nat) (r : Run) (l : List Nat) (waits : Bool) : State :=
  (s.enqueue bid l).updB bid (fun b => { b with run := some { r with words := r.here :: r.words, stall := l, waits := waits } })

/-- A word that waited for granules has issued: it waits for none any more, but for those that its own effect has asked for. -/
def State.doneWaiting (s : State) (bid : Nat) : State :=
  if s.mem.leaseQ.isEmpty || (s.barge bid).held.isSome then s else s.leaveQueue bid

/-- The slot of a barge is the one that last issued on its core (R97). -/
def State.issued (s : State) (b : Barge) : State := { s with lastSlot := tput 7 s.lastSlot b.core b.slot }

/-- Apply the outcome of a word; `st` is its stop bit. -/
def State.leave (s : State) (bid : Nat) (st : Bool) (o : WOut) : State :=
  match s.barge? bid with
  | none => s
  | some b =>
    match b.run with
    | none => s
    | some r =>
      match o with
      | .stall l => s.restand bid r l l.isEmpty
      | .noAnswer t =>
        (s.restand bid r [] false).noAnswer bid t
      | .exc w => (s.issued b).takeExc bid { cls := w.cls, detail := w.detail, pc := r.at, s3 := w.s3 }
      | .pfx p => (s.issued b).updB bid (fun b => { b with run := some { r with pfx := some (p, r.here.pc) } })
      | .items l fl =>
        let fx := if r.firstFx.isNone && (fl &&& b.rfpen) != 0 then some r.at else r.firstFx
        let r' := { r with items := r.items ++ l, raised := r.raised ||| fl, firstFx := fx, pfx := none }
        if st then ((s.issued b).endRun bid r' (.next (r.here.pc + 4))).doneWaiting bid
        else ((s.issued b).updB bid (fun b => { b with run := some r' })).doneWaiting bid
      | .fin l f => ((s.issued b).endRun bid { r with items := r.items ++ l } f).doneWaiting bid

/-! ## What a word sees -/

/-- The state, barge and run that a word issues in. Registers hold their values at the start of the run (R69). -/
structure WCtx where
  s : State
  bid : Nat
  b : Barge
  r : Run
  deriving DecidableEq, Repr

/-- A scalar register; s0 reads zero (R89). -/
def WCtx.x (c : WCtx) (n : Nat) : Word := if n = 0 then 0 else tgetD 0 c.b.sreg n
/-- A vector register. -/
def WCtx.v (c : WCtx) (n : Nat) : VReg := tgetD 0 c.b.vreg n
/-- The address of the word (R109: A). -/
def WCtx.pc (c : WCtx) : Nat := c.r.here.pc
/-- The effects buffered so far by the region, this run's included. -/
def WCtx.effs (c : WCtx) : List Effect := c.b.eff ++ itemEffs c.r.items

abbrev Out := Host.Outcome State Fault Refusal

/-- Issue a word for the barge that is issuing: `f` gives what it leaves. A fault where no resident barge has a run. -/
def issue (s : State) (st : Bool) (f : WCtx → WOut) : Out :=
  match s.barge? s.cur with
  | none => .fault .noBarge
  | some b =>
    match b.run with
    | none => .fault .noBarge
    | some r => if b.st = .resident then .next (s.leave s.cur st (f ⟨s, s.cur, b, r⟩)) else .fault .noBarge

/-- As `issue`, for a word that changes the state where it issues (the caches, a lease). -/
def issueWith (s : State) (st : Bool) (f : WCtx → State × WOut) : Out :=
  match s.barge? s.cur with
  | none => .fault .noBarge
  | some b =>
    match b.run with
    | none => .fault .noBarge
    | some r =>
      if b.st = .resident then let p := f ⟨s, s.cur, b, r⟩; .next (p.1.leave s.cur st p.2) else .fault .noBarge

end Sys2Proof.Machine
end

