-- ==== Sys2Proof/Machine/Fetch.lean ====
section
/-! DEFINITION. Fetching a run (04_encoding R68 to R71, R79 to R82): the words from its first to the first with its stop
bit set, the rejections that need more than one word, and the words of a repeat frame as an iteration performs them. -/

namespace Sys2Proof.Machine

/-! ## The slot table (20_wharf R341) -/

/-- T, in nanoseconds: three core cycles to a nanosecond (notes/assumptions/3.md). -/
def State.now (s : State) : Nat := s.epoch + s.cycle / 3

/-- The current slot at a time. -/
def State.slotAt (s : State) (t : Nat) : Nat := t / (1000 * s.whf.slotLen) % 64

/-- Is a tenant eligible in a slot? -/
def State.eligibleIn (s : State) (tenant slot : Nat) : Bool :=
  !s.whf.slotEn || (tgetD (BitVec.allOnes 256) s.whf.slots slot).getLsbD tenant

/-- `WSTAT` sel 1 (R333): the current slot, eligibility in it, and the cycles to its end. -/
def State.slotWord (s : State) (ctx : Nat) : Word :=
  let len := 1000 * s.whf.slotLen
  let slot := s.slotAt s.now
  let left := (len - s.now % len) * 3 - s.cycle % 3
  BitVec.ofNat 64 (slot + (s.eligibleIn (s.ctx ctx).partition slot).toNat * 256 + left % 2 ^ 32 * 65536)

/-! ## Shapes (R93, R107) -/

/-- Rows and columns of a tile-shape code (R107). -/
def shapeRows (t : Nat) : Nat := match t with | 0 => 128 | 1 => 128 | 2 => 128 | 3 => 64 | 4 => 64 | 5 => 32 | 6 => 16 | _ => 8
def shapeCols (t : Nat) : Nat := match t with | 0 => 96 | 1 => 64 | 2 => 32 | 3 => 64 | 4 => 32 | 5 => 32 | 6 => 16 | _ => 8

/-- BARGE.SHAPE for a vector length and a tile-shape code (R93). -/
def shapeWord (v t : Nat) : Word := BitVec.ofNat 64 (v + shapeRows t * 2 ^ 8 + shapeCols t * 2 ^ 16 + t * 2 ^ 24)

/-! ## System registers as a run sees them (R69, R91 to R96) -/

/-- The value of a system register as a barge reads it (R91, R93, R44, R283, R342). -/
def State.sysRead (s : State) (b : Barge) (n : Nat) : Word :=
  let c := s.ctx b.ctx
  match n with
  | 0x000 => BitVec.ofNat 64 b.core
  | 0x001 => BitVec.ofNat 64 b.slot
  | 0x002 => BitVec.ofNat 64 s.cycle
  | 0x010 => BitVec.ofNat 64 (s.leaseMaxOf b.core)
  | 0x100 => BitVec.ofNat 64 (b.rfpfl + b.rfpen * 32)
  | 0x101 => shapeWord b.rvl32 b.rtcode
  | 0x102 => BitVec.ofNat 64 b.ctx
  | 0x103 => BitVec.ofNat 64 (b.chan + b.pri * 65536)
  | 0x104 => BitVec.ofNat 64 (b.gmem + b.gsize * 16)
  | 0x105 => BitVec.ofNat 64 (b.spf + b.tiles * 512)
  | 0x500 => BitVec.ofNat 64 s.map.tlease
  | 0x501 => BitVec.ofNat 64 (c.scope + c.measured.toNat * 8)
  | 0x502 => BitVec.ofNat 64 c.scopecnt
  | 0x503 => BitVec.ofNat 64 (s.map.seq % 2 ^ 40)
  | 0x600 => BitVec.ofNat 64 (s.whf.slotLen + s.whf.slotEn.toNat * 65536)
  | 0x601 => BitVec.ofNat 64 s.now
  | 0x602 => s.slotWord b.ctx
  | _ => 0

/-- The system registers of R91. -/
def sysNumbers : List Nat :=
  [0x000, 0x001, 0x002, 0x010, 0x100, 0x101, 0x102, 0x103, 0x104, 0x105, 0x500, 0x501, 0x502, 0x503, 0x600, 0x601, 0x602]

/-- Their values as a run begins (R69), those that are not zero. -/
def State.sysNow (s : State) (b : Barge) : Tab Word :=
  (sysNumbers.map (fun n => (n, s.sysRead b n))).filter (fun e => e.2 != 0)

/-! ## Words -/

/-- Why a word cannot be fetched: a fault, or a target that does not answer (R357). -/
inductive FWhy
  | why (w : Why)
  | silent (t : Nat)
  deriving DecidableEq, Repr

/-- A run cannot be fetched: the address it is reported at, and why. -/
structure FetchErr where
  pc : Nat
  why : FWhy
  deriving DecidableEq, Repr

/-- The word at an address, and the node that translates it (R70, R147, R149, R194). -/
def State.fetchWord (s : State) (b : Barge) (va : Nat) : Except FWhy (Nat × Nat) :=
  let a := BitVec.ofNat 64 va
  if 2 ^ 48 ≤ va then .error (.why ⟨2, 0, a⟩)
  else
    match s.page b.core b.ctx va va 4 .x with
    | .error w => .error (.why w)
    | .ok g =>
      if !s.directOk g.pa then .error (.why ⟨4, 0, a⟩)
      else if s.isIsolated g.pa then .error (.why ⟨0x0A, 0, a⟩)
      else
        match s.unheard b g.vc g.pa 4 with
        | some t => .error (.silent t)
        | none =>
          if s.mem.seenPoison b.core g.pa 4 then .error (.why ⟨0x0A, 0, a⟩)
          else .ok (leNum (s.seenAt b.core g.pa 4), g.node)

/-- The illegal-instruction trap: s3 holds the word (R184). -/
def illegal (w : Nat) : FWhy := .why ⟨1, 0, BitVec.ofNat 64 w⟩

/-- The majors that a prefix may widen (R79). -/
def widens (maj : Nat) : Bool := (decide (2 ≤ maj) && decide (maj ≤ 7)) || maj == 14 || (decide (24 ≤ maj) && decide (maj ≤ 32))

/-- The frame-eligible majors (R83). -/
def frameMajor (maj : Nat) : Bool := (decide (1 ≤ maj) && decide (maj ≤ 8)) || (decide (16 ≤ maj) && decide (maj ≤ 22))

/-- Which of the fields d, a, b name a register, in a word of a frame-eligible major (R81, R84, R86). -/
def regFields (f : Fields) : Bool × Bool × Bool :=
  let fn := f.lo % 32
  match f.maj with
  | 1 => (true, true, decide (f.lo < 64))
  | 16 => (true, true, !(decide (6 ≤ fn) && decide (fn ≤ 11)) && decide (fn < 21))
  | 17 => (true, true, true)
  | 18 => (true, true, true)
  | 20 => (true, fn != 7, fn == 2 || fn == 3 || fn == 4 || fn == 6)
  | 22 => (true, true, decide (fn < 4))
  | _ => (true, true, false)

/-- The word that iteration `i` performs (R81). -/
def Frame.stepWord (f : Frame) (w : Fields) : Fields :=
  let (rd, ra, rb) := regFields w
  { w with
    d := if rd && bits f.en 3 1 == 1 then (w.d + f.i * f.dstep) % 32 else w.d
    a := if ra && bits f.en 2 1 == 1 then (w.a + f.i * f.astep) % 32 else w.a
    b := if rb && bits f.en 1 1 == 1 then (w.b + f.i * f.bstep) % 32 else w.b }

/-- A frame word that makes its `RPT` illegal (R82). -/
def frameWordBad (en w : Nat) : Bool :=
  let f := Fields.unpack w
  !frameMajor f.maj || (match decode32 w with | .ok _ => false | .error _ => true) ||
    (bits en 0 1 == 1 && !(decide (2 ≤ f.maj) && decide (f.maj ≤ 7)))

/-- The frame words of an `RPT` (R82): the first that cannot be fetched is reported, unless a lower one makes the `RPT`
illegal. -/
def State.frameWords (s : State) (b : Barge) (rpt rw en : Nat) : Nat → Nat → Except FetchErr (List Fields × List Nat)
  | 0, _ => .ok ([], [])
  | n + 1, va =>
    match s.fetchWord b va with
    | .error e => .error ⟨va, e⟩
    | .ok (w, k) =>
      if frameWordBad en w then .error ⟨rpt, illegal rw⟩
      else
        match s.frameWords b rpt rw en n (va + 4) with
        | .error e => .error e
        | .ok (l, ks) => .ok (Fields.unpack w :: l, k :: ks)

/-- The check of an `RPT` word and its frame (R82): the nodes its words were read through. -/
def State.checkRpt (s : State) (b : Barge) (va w : Nat) (len x y z e : Nat) : Except FetchErr (List Nat) :=
  if (x != 0 && bits e 3 1 == 0) || (y != 0 && bits e 2 1 == 0) || (z != 0 && bits e 1 1 == 0) then .error ⟨va, illegal w⟩
  else
    match s.frameWords b va w e len (va + 4) with
    | .error e => .error e
    | .ok (l, ks) =>
      if (bits e 3 1 == 1 && !l.any (fun f => (regFields f).1)) || (bits e 2 1 == 1 && !l.any (fun f => (regFields f).2.1)) ||
          (bits e 1 1 == 1 && !l.any (fun f => (regFields f).2.2)) then .error ⟨va, illegal w⟩
      else .ok ks

/-- Put a word before the rest of a run. -/
def consWord (w : FWord) (k : Nat) (r : Except FetchErr (List FWord × List Nat)) : Except FetchErr (List FWord × List Nat) :=
  match r with | .error e => .error e | .ok (l, ks) => .ok (w :: l, k :: ks)

/-- A run of at most `n` more words from an address (R68, R70, R79, R80). -/
def State.fetchRun (s : State) (b : Barge) : Nat → Nat → Except FetchErr (List FWord × List Nat)
  | 0, va => .error ⟨va, illegal 0⟩
  | n + 1, va =>
    match s.fetchWord b va with
    | .error e => .error ⟨va, e⟩
    | .ok (w, k) =>
      match decode32 w with
      | .error _ => .error ⟨va, illegal w⟩
      | .ok (.pfx p) =>
        if n = 0 then .error ⟨va, illegal w⟩
        else
          match s.fetchWord b (va + 4) with
          | .error e => .error ⟨va, e⟩
          | .ok (v, _) =>
            if !widens (Fields.unpack v).maj then .error ⟨va, illegal w⟩
            else
              match decode32 v with
              | .error _ => .error ⟨va, illegal v⟩
              | .ok _ =>
                if n = 1 && (Fields.unpack v).st == 0 then .error ⟨va, illegal v⟩
                else consWord ⟨va, .pfx p, 0⟩ k (s.fetchRun b n (va + 4))
      | .ok (.rpt c l x y z e) =>
        match s.checkRpt b va w (l + 1) x y z e with
        | .error e => .error e
        | .ok ks => .ok ([⟨va, .rpt c l x y z e, 0⟩], k :: ks)
      | .ok i =>
        if (Fields.unpack w).st = 1 then .ok ([⟨va, i, 0⟩], [k])
        else if n = 0 then .error ⟨va, illegal w⟩
        else consWord ⟨va, i, 0⟩ k (s.fetchRun b n (va + 4))

/-- The next run of a repeat frame: at most `n` words (R81). DESIGN CHOICE: a frame word that has changed since its `RPT` was checked and is
ineligible or illegal now is reported at its own address, with the word in s3, and the checks of R82 on the enables and steps are not made
again (notes/assumptions/11.md). -/
def State.fetchFrame (s : State) (b : Barge) (f : Frame) : Nat → Nat → Except FetchErr (List FWord × List Nat)
  | 0, _ => .ok ([], [])
  | n + 1, va =>
    match s.fetchWord b va with
    | .error e => .error ⟨va, e⟩
    | .ok (w, k) =>
      if frameWordBad f.en w then .error ⟨va, illegal w⟩
      else
        let g := f.stepWord (Fields.unpack w)
        let g := if n = 0 then { g with st := 1 } else g
        match decode32 g.pack with
        | .error _ => .error ⟨va, illegal w⟩
        | .ok i =>
          let fw : FWord := ⟨va, i, if bits f.en 0 1 = 1 then f.i else 0⟩
          if g.st = 1 then .ok ([fw], [k]) else consWord fw k (s.fetchFrame b f n (va + 4))

/-- The next run of a barge: of its repeat frame, or at its pc. -/
def State.nextRun (s : State) (b : Barge) : Except FetchErr (List FWord × List Nat) :=
  match b.frame with
  | some f => s.fetchFrame b f (f.len - f.j) (f.rpt + 4 + 4 * f.j)
  | none => s.fetchRun b 32 b.pc

/-- The core opens the next run of a barge, with the system registers as they stand (R69), or takes the exception that its fetch raises (R70, R184). A target that does
not answer leaves the barge waiting. -/
def State.openRun (s : State) (bid : Nat) (b : Barge) : State :=
  match s.nextRun b with
  | .error ⟨pc, .why w⟩ => s.takeExc bid { cls := w.cls, detail := w.detail, pc := pc, s3 := w.s3 }
  | .error ⟨_, .silent t⟩ => s.noAnswer bid t
  | .ok ([], _) => s
  | .ok (w :: ws, ks) =>
    let s := (w :: ws).foldl (fun s x => match s.translateAt b.core b.ctx x.pc with
      | some (_, n, pa) =>
        let s := if (tgetD [] s.mem.icache b.core).contains (pa / 64) then s else s.touchRead (s.servedBy b.ctx n.vcid pa) pa 4
        s.useIcache b.core (pa / 64)
      | none => s) (s.fill b.core ks)
    s.setB bid { b with
      run := some { words := w :: ws, here := w, sys := s.sysNow b },
      used := ks.foldl (fun u k => if u.contains k then u else u ++ [k]) b.used, unanswered := none }

end Sys2Proof.Machine
end

