-- ==== Sys2Proof/Machine/Operands.lean ====
section
/-! DEFINITION. The operand forms of instruction words: immediates with their prefixes and frame steps (04_encoding R73,
R79, R81), effective addresses and their checks (08_core_memory R147), loads and buffered stores with the region's
capacity (R12, R148, R149), descriptors read at issue (12_sluice R204), and vector elements under a mask (R77, R78). -/

namespace Sys2Proof.Machine

/-! ## Immediates and addresses -/

/-- The immediate of an I word (R73, R79, R81). -/
def WCtx.imm (c : WCtx) (i : Nat) : Word :=
  (match c.r.pfx with | none => sextW 15 i | some p => sextW 40 (p.1 * 32768 + i)) + BitVec.ofNat 64 c.r.here.inc

/-- The address of an M word of access size `2 ^ lg` (R147). -/
def WCtx.ea (c : WCtx) (base lg x : Nat) : Word :=
  let k := match c.r.pfx with | none => sextW 10 x | some p => sextW 35 (p.1 * 1024 + x)
  c.x base + k * BitVec.ofNat 64 (2 ^ lg)

/-- Is an address a multiple of `2 ^ lg`? -/
def alignedTo (lg : Nat) (ea : Word) : Bool := ea.toNat % 2 ^ lg == 0

/-- The alignment fault (R184, R186). -/
def misaligned (lg : Nat) (ea : Word) : WOut := .exc ⟨3, lg, ea⟩

/-- The region uses translations (R197), which its core's translation cache then holds (R310). -/
def State.useNodes (s : State) (bid : Nat) (l : List Nat) : State :=
  (s.fill (s.barge bid).core l).updB bid (fun b => { b with used := l.foldl (fun u k => if u.contains k then u else u ++ [k]) b.used })

/-! ## Buffered effects: reading through them, and the region's capacity -/

/-- Global bytes with the region's buffered stores over them (R12, R157). -/
def overlayMem (es : List Effect) (pa : Nat) (cur : List Byte) : List Byte :=
  es.foldl (fun cur e => match e with
    | .store _ ps => ps.foldl (fun cur p => patch pa cur p.pa p.bytes) cur
    | _ => cur) cur

/-- Bytes of a window with the region's buffered stores over them. -/
def overlayWin (es : List Effect) (m off : Nat) (cur : List Byte) : List Byte :=
  es.foldl (fun cur e => match e with
    | .spad m' p bs => if m' = m then patch off cur p bs else cur
    | .stf m' p w => if m' = m then patch off cur p (leBytes 8 w.toNat) else cur
    | _ => cur) cur

/-- The granules that an effect counts by (R12): a global granule, or one of a barge's window. -/
def Effect.grans : Effect → List (Nat × Nat)
  | .store _ ps => ps.flatMap (fun p => (granules p.pa p.bytes.length).map (fun g => (0, g)))
  | .spad m off bs => (granules off bs.length).map (fun g => (m, g))
  | .stf m off _ => [(m, off / 64)]
  | .red _ _ _ pa _ _ => [(0, pa / 64)]
  | .xa _ _ pa _ _ => [(0, pa / 64)]
  | _ => []

/-- The effects that count one per instruction (R12, R159). -/
def Effect.counts : Effect → Bool
  | .arrive _ _ _ => true
  | .tileDef _ _ => true
  | .tileRel _ => true
  | .cmd _ _ _ => true
  | _ => false

/-- What a region buffers, by R12's count. -/
def capacity (es : List Effect) : Nat := (es.flatMap Effect.grans).eraseDups.length + (es.filter Effect.counts).length

/-- The commands of the run so far, each counted once. -/
def WCtx.count (c : WCtx) : Nat :=
  capacity c.effs + (c.r.items.filter (fun i => match i with | .cmd _ _ _ => true | _ => false)).length

/-- Buffer the pieces of one store, reduction or XA add whose first byte has virtual or scratchpad address `ea`. -/
def WCtx.buffer (c : WCtx) (ea : Nat) (es : List Effect) : WOut :=
  let old := (c.effs.flatMap Effect.grans).eraseDups
  let new := (es.flatMap Effect.grans).zipIdx.filter (fun e => !old.contains e.1)
  if 128 < c.count + (new.map (·.1)).eraseDups.length then
    let k := (new.getD (128 - c.count) ((0, 0), 0)).2
    .exc ⟨8, 0, BitVec.ofNat 64 ((ea / 64 + k) * 64)⟩
  else .items (es.map .eff) 0

/-- Buffer an effect that counts one. -/
def WCtx.bufferOne (c : WCtx) (i : Item) : WOut := if 128 < c.count + 1 then .exc ⟨8, 0, 0⟩ else .items [i] 0

/-- Issue a command: it takes its number at the end of the run, into register `d` (R16, R69). -/
def WCtx.command (c : WCtx) (op : Op) (d tl : Nat) (a b : Word) (args : List Word := []) : WOut :=
  c.bufferOne (.cmd d tl { op := op, barge := c.bid, ctx := c.b.ctx, core := c.b.core, a := a, b := b, args := args })

/-! ## Loads and stores (R147 to R149) -/

/-- What a load gives. -/
inductive Load
  | got (s : State) (bytes : List Byte)
  | out (o : WOut)
  deriving DecidableEq, Repr

/-- The bytes of a piece as a load of a core finds them, at the home or in its die (R175), and the memory that it leaves. -/
def State.readSeg (s : State) (core : Nat) (home : Bool) (g : Seg) : State × List Byte :=
  if home then
    let h := s.homeDie g.vc g.pa
    let s := s.setMem (s.mem.atHome core h g.pa g.len)
    (s, s.bytesAt h g.pa g.len)
  else (s, s.seenAt core g.pa g.len)

/-- Does a load of a piece meet poison: in its home's view once what the core sees is there, or in what a `.l1` load sees (R149,
R175)? DEDUCED: it does where the region's own stores cover the loaded bytes, too (notes/assumptions/37.md). -/
def State.segPoison (s : State) (core : Nat) (home : Bool) (g : Seg) : Bool :=
  if home then (s.readSeg core true g).1.poisonedIn (s.homeDie g.vc g.pa) g.pa g.len else s.mem.seenPoison core g.pa g.len

/-- Does a load of a piece meet something other than data: an isolated target, a target that does not answer, granules that another
core holds leased or that others have asked for (R163), or poison? -/
def WCtx.segStop (c : WCtx) (ea : Word) (home : Bool) (g : Seg) : Option WOut :=
  if c.s.isIsolated g.pa then some (.exc ⟨0x0A, 0, ea⟩)
  else
    match c.s.unheard c.b g.vc g.pa g.len with
    | some t => some (.noAnswer t)
    | none =>
      let w := c.s.loadStops c.b.core c.bid g.pa g.len
      if !w.isEmpty then some (.stall w)
      else if c.s.segPoison c.b.core home g then some (.exc ⟨0x0A, 0, ea⟩)
      else none

/-- The bytes of an access's pieces, with the region's buffered stores over them. -/
def WCtx.readSegs (c : WCtx) (home : Bool) (s : State) : List Seg → State × List Byte
  | [] => (s, [])
  | g :: gs =>
    let r := s.readSeg c.b.core home g
    let q := c.readSegs home r.1 gs
    (q.1, overlayMem c.effs g.pa r.2 ++ q.2)

/-- The caches after a load (R76). -/
def State.touchSegs (s : State) (core : Nat) (spc : Space) (gs : List Seg) : State :=
  gs.foldl (fun s g => (granules g.pa g.len).foldl (fun s k => s.touchLoad core g.vc (64 * k) spc) s) s

/-- Read a window: bounds, poison, then the bytes (R101, R147, R217). -/
def WCtx.readWin (c : WCtx) (ea : Word) (n : Nat) : Except Why (List Byte) :=
  match c.s.spad c.bid ea n with
  | none => .error ⟨5, 0, ea⟩
  | some (m, off) =>
    let b := c.s.barge m
    if (List.range ((off + n - 1) / 8 + 1 - off / 8)).any (fun k => tgetD false b.spPoison (off / 8 + k)) then
      .error ⟨0x0A, 0, ea⟩
    else .ok (overlayWin c.effs m off (readTab b.window off n))

/-- A load of `n` bytes. -/
def WCtx.load (c : WCtx) (ea : Word) (n : Nat) (spc : Space) : Load :=
  match spc with
  | .sp => match c.readWin ea n with | .error w => .out (.exc w) | .ok bs => .got c.s bs
  | _ =>
    match c.s.access c.b.core c.b.ctx ea.toNat n .r with
    | .error w => .out (.exc w)
    | .ok gs =>
      match gs.findSome? (c.segStop ea (spc != .l1)) with
      | some o => .out o
      | none =>
        let r := c.readSegs (spc != .l1) c.s gs
        .got ((r.1.useNodes c.bid (gs.map Seg.node)).touchSegs c.b.core spc gs) r.2

/-- The pieces of a store. -/
def storeSegs : List Seg → List Byte → List SPiece
  | [], _ => []
  | g :: gs, bs => ⟨g.pa, g.vc, bs.take g.len⟩ :: storeSegs gs (bs.drop g.len)

/-- A store of bytes. -/
def WCtx.store (c : WCtx) (ea : Word) (bs : List Byte) (spc : Space) : State × WOut :=
  match spc with
  | .sp =>
    match c.s.spad c.bid ea bs.length with
    | none => (c.s, .exc ⟨5, 0, ea⟩)
    | some (m, off) => (c.s, c.buffer ea.toNat [.spad m off bs])
  | _ =>
    match c.s.access c.b.core c.b.ctx ea.toNat bs.length .w with
    | .error w => (c.s, .exc w)
    | .ok gs => (c.s.useNodes c.bid (gs.map Seg.node), c.buffer ea.toNat [.store spc (storeSegs gs bs)])

/-- The scalar load of `2 ^ lg` bytes at `ea`, its value extended. -/
def WCtx.loadScalar (c : WCtx) (d base lg x : Nat) (spc : Space) (sign : Bool) : State × WOut :=
  let ea := c.ea base lg x
  if alignedTo lg ea then
    match c.load ea (2 ^ lg) spc with
    | .out o => (c.s, o)
    | .got s bs =>
      (s, .items [.sreg d (if sign then sextW (8 * 2 ^ lg) (leNum bs) else BitVec.ofNat 64 (leNum bs))] 0)
  else (c.s, misaligned lg ea)

/-- The scalar store of `2 ^ lg` bytes. -/
def WCtx.storeScalar (c : WCtx) (d base lg x : Nat) (spc : Space) : State × WOut :=
  let ea := c.ea base lg x
  if alignedTo lg ea then c.store ea (leBytes (2 ^ lg) (c.x d).toNat) spc else (c.s, misaligned lg ea)

/-- The checks of a full/empty word: the barge whose window holds it, and the offset (R147, R150). -/
def WCtx.feWord (c : WCtx) (ea : Word) : Except WOut (Nat × Nat) :=
  if alignedTo 3 ea then
    match c.s.spad c.bid ea 8 with | none => .error (.exc ⟨5, 0, ea⟩) | some p => .ok p
  else .error (misaligned 3 ea)

/-- The checks of an atomic, a reduction, an XA add or a lease on the `2 ^ lg` bytes at `ea` (R153 to R156, R161). -/
def WCtx.word (c : WCtx) (ea : Word) (lg : Nat) (rt : Right) : Except WOut Seg :=
  if alignedTo lg ea then
    match c.s.access c.b.core c.b.ctx ea.toNat (2 ^ lg) rt with
    | .error w => .error (.exc w)
    | .ok [] => .error (.exc ⟨4, 0, ea⟩)
    | .ok (g :: _) => .ok g
  else .error (misaligned lg ea)

/-- The checks of a scratchpad record of 64 bytes, or of a receipt of 16 (R167, R204, R298). -/
def WCtx.winAt (c : WCtx) (ea : Word) (lg n : Nat) : Except Why (Nat × Nat) :=
  if alignedTo lg ea then match c.s.spad c.bid ea n with | none => .error ⟨5, 0, ea⟩ | some p => .ok p
  else .error ⟨3, lg, ea⟩

/-- The scratchpad address of the first poisoned word of a 64-byte descriptor (R204). -/
def WCtx.poisonedWord (c : WCtx) (ea : Word) : Option Word :=
  (c.s.spad c.bid ea 64).bind (fun p =>
    ((List.range 8).find? (fun k => tgetD false (c.s.barge p.1).spPoison (p.2 / 8 + k))).map (fun k => ea + BitVec.ofNat 64 (8 * k)))

/-- A 64-byte descriptor in the scratchpad, read at issue through the region's stores (R204, R265, R321). -/
def WCtx.descriptor (c : WCtx) (ea : Word) : Except Why (List Word) :=
  if !alignedTo 6 ea then .error ⟨3, 6, ea⟩
  else
    match c.poisonedWord ea, c.readWin ea 64 with
    | some w, _ => .error ⟨0x0A, 0, w⟩
    | none, .error w => .error w
    | none, .ok bs => .ok (wordsOf 8 bs)

/-! ## Vectors (R77, R78, R107) -/

/-- The vector length for an element width (R107). -/
def WCtx.vl (c : WCtx) (w : Nat) : Nat := c.b.rvl32 * 32 / w

/-- Element `i` of a vector. -/
def elem (v : VReg) (w i : Nat) : Nat := bits v.toNat (w * i) w

/-- Elements of `w` bits, the first lowest. -/
def packElems (w : Nat) : List Nat → Nat
  | [] => 0
  | x :: r => x % 2 ^ w + 2 ^ w * packElems w r

/-- Is element `i` active (R78)? -/
def WCtx.active (c : WCtx) (m : Mask) (i : Nat) : Bool :=
  match m with
  | .all => true
  | .keep => elem (c.v 0) 1 i == 1
  | .zero => elem (c.v 0) 1 i == 1
  | .inv => elem (c.v 0) 1 i == 0

/-- What an inactive element of `vd` becomes (R78). -/
def WCtx.inactive (c : WCtx) (d w : Nat) (m : Mask) (i : Nat) : Nat :=
  match m with | .zero => 0 | _ => elem (c.v d) w i

/-- A result for each active one of `n` elements, with the flags it raises; inactive elements as R78; elements past
them zero (R129). -/
def WCtx.vmapN (c : WCtx) (n d w : Nat) (m : Mask) (f : Nat → Nat × Nat) : WOut :=
  let r := (List.range n).map (fun i => if c.active m i then f i else (c.inactive d w m i, 0))
  .items [.vreg d (BitVec.ofNat 1024 (packElems w (r.map (·.1))))] (r.foldl (fun a e => a ||| e.2) 0)

/-- As `vmapN`, over the vector length of the element width. -/
def WCtx.vmap (c : WCtx) (d w : Nat) (m : Mask) (f : Nat → Nat × Nat) : WOut := c.vmapN (c.vl w) d w m f

/-- A mask result (R78): bit `i` for each active element, with flags. -/
def WCtx.vmask (c : WCtx) (d w : Nat) (m : Mask) (f : Nat → Bool × Nat) : WOut :=
  let r := (List.range (c.vl w)).map (fun i =>
    if c.active m i then ((f i).1.toNat, (f i).2) else (c.inactive d 1 m i, 0))
  .items [.vreg d (BitVec.ofNat 1024 (packElems 1 (r.map (·.1))))] (r.foldl (fun a e => a ||| e.2) 0)

end Sys2Proof.Machine
end

