-- ==== Sys2Proof/Machine/Scalar.lean ====
section
/-! DEFINITION. The scalar instructions (06_core_scalar R110 to R119): each writes one scalar register, and raises nothing. -/

namespace Sys2Proof.Machine

/-! ## Shared forms -/

/-- A word that writes one scalar register. -/
def scalarOut (d : Nat) (v : Word) : WOut := .items [.sreg d v] 0

/-- A register-register word (R110). -/
def alu2 (s : State) (st : Bool) (d a b : Nat) (f : Word → Word → Word) : Out :=
  issue s st (fun c => scalarOut d (f (c.x a) (c.x b)))

/-- A single-source word (R116). -/
def alu1 (s : State) (st : Bool) (d a : Nat) (f : Word → Word) : Out := issue s st (fun c => scalarOut d (f (c.x a)))

/-- An immediate word (R117). -/
def aluI (s : State) (st : Bool) (d a i : Nat) (f : Word → Word → Word) : Out :=
  issue s st (fun c => scalarOut d (f (c.x a) (c.imm i)))

/-! ## Results -/

def boolWord (p : Bool) : Word := if p then 1 else 0
/-- The amount of a shift: bits 5:0 (R112). -/
def amount (y : Word) : Nat := y.toNat % 64
/-- `rotl` of R109. -/
def rotl64 (x : Word) (k : Nat) : Word := if k = 0 then x else (x <<< k) ||| (x >>> (64 - k))
/-- `rotr` of R109. -/
def rotr64 (x : Word) (k : Nat) : Word := rotl64 x ((64 - k) % 64)
/-- The high 64 bits of a product (R114). -/
def high64 (p : Int) : Word := BitVec.ofInt 64 (p / 2 ^ 64)
/-- `DIV` (R115). -/
def divS (x y : Word) : Word := if y = 0 then BitVec.allOnes 64 else BitVec.ofInt 64 (x.toInt.tdiv y.toInt)
/-- `DIVU` (R115). -/
def divU (x y : Word) : Word := if y = 0 then BitVec.allOnes 64 else BitVec.ofNat 64 (x.toNat / y.toNat)
/-- `REM` (R115). -/
def remS (x y : Word) : Word := if y = 0 then x else BitVec.ofInt 64 (x.toInt - y.toInt * x.toInt.tdiv y.toInt)
/-- `REMU` (R115). -/
def remU (x y : Word) : Word := if y = 0 then x else BitVec.ofNat 64 (x.toNat % y.toNat)

/-- Zero bits above the highest one bit of a `w`-bit number. -/
def clzN : Nat → Nat → Nat
  | 0, _ => 0
  | w + 1, x => if x / 2 ^ w % 2 = 1 then 0 else 1 + clzN w x
/-- Zero bits below the lowest one bit of a `w`-bit number; `w` where there is none. -/
def ctzN : Nat → Nat → Nat
  | 0, _ => 0
  | w + 1, x => if x % 2 = 1 then 0 else 1 + ctzN w (x / 2)
/-- One bits of a `w`-bit number. -/
def popN : Nat → Nat → Nat
  | 0, _ => 0
  | w + 1, x => x % 2 + popN w (x / 2)
/-- The position of the lowest one bit, from 1; 0 where there is none. -/
def ffsN (w x : Nat) : Nat := if x % 2 ^ w = 0 then 0 else ctzN w x + 1
/-- The bits of a `w`-bit number in reverse order. -/
def revN : Nat → Nat → Nat
  | 0, _ => 0
  | w + 1, x => x % 2 * 2 ^ w + revN w (x / 2)
/-- The bytes of a word in reverse order. -/
def swapBytes (x : Word) : Word := BitVec.ofNat 64 (leNum (leBytes 8 x.toNat).reverse)

/-! ## Register-register words (R111 to R115) -/

/-- `ADD` (R111). -/
def execAdd (st : Bool) (d a b : Nat) (s : State) : Out := alu2 s st d a b (fun x y => x + y)
/-- `SUB` (R111). -/
def execSub (st : Bool) (d a b : Nat) (s : State) : Out := alu2 s st d a b (fun x y => x - y)
/-- `AND` (R111). -/
def execAnd (st : Bool) (d a b : Nat) (s : State) : Out := alu2 s st d a b (fun x y => x &&& y)
/-- `OR` (R111). -/
def execOr (st : Bool) (d a b : Nat) (s : State) : Out := alu2 s st d a b (fun x y => x ||| y)
/-- `XOR` (R111). -/
def execXor (st : Bool) (d a b : Nat) (s : State) : Out := alu2 s st d a b (fun x y => x ^^^ y)
/-- `ANDN` (R111). -/
def execAndn (st : Bool) (d a b : Nat) (s : State) : Out := alu2 s st d a b (fun x y => x &&& ~~~y)
/-- `ORN` (R111). -/
def execOrn (st : Bool) (d a b : Nat) (s : State) : Out := alu2 s st d a b (fun x y => x ||| ~~~y)
/-- `SLL` (R112). -/
def execSll (st : Bool) (d a b : Nat) (s : State) : Out := alu2 s st d a b (fun x y => x <<< amount y)
/-- `SRL` (R112). -/
def execSrl (st : Bool) (d a b : Nat) (s : State) : Out := alu2 s st d a b (fun x y => x >>> amount y)
/-- `SRA` (R112). -/
def execSra (st : Bool) (d a b : Nat) (s : State) : Out := alu2 s st d a b (fun x y => x.sshiftRight (amount y))
/-- `ROL` (R112). -/
def execRol (st : Bool) (d a b : Nat) (s : State) : Out := alu2 s st d a b (fun x y => rotl64 x (amount y))
/-- `ROR` (R112). -/
def execRor (st : Bool) (d a b : Nat) (s : State) : Out := alu2 s st d a b (fun x y => rotr64 x (amount y))
/-- `SLT` (R113). -/
def execSlt (st : Bool) (d a b : Nat) (s : State) : Out := alu2 s st d a b (fun x y => boolWord (decide (x.toInt < y.toInt)))
/-- `SLTU` (R113). -/
def execSltu (st : Bool) (d a b : Nat) (s : State) : Out := alu2 s st d a b (fun x y => boolWord (decide (x.toNat < y.toNat)))
/-- `SEQ` (R113). -/
def execSeq (st : Bool) (d a b : Nat) (s : State) : Out := alu2 s st d a b (fun x y => boolWord (x == y))
/-- `SNE` (R113). -/
def execSne (st : Bool) (d a b : Nat) (s : State) : Out := alu2 s st d a b (fun x y => boolWord (x != y))
/-- `MIN` (R113). -/
def execMin (st : Bool) (d a b : Nat) (s : State) : Out := alu2 s st d a b (fun x y => if x.toInt ≤ y.toInt then x else y)
/-- `MAX` (R113). -/
def execMax (st : Bool) (d a b : Nat) (s : State) : Out := alu2 s st d a b (fun x y => if y.toInt ≤ x.toInt then x else y)
/-- `MINU` (R113). -/
def execMinu (st : Bool) (d a b : Nat) (s : State) : Out := alu2 s st d a b (fun x y => if x.toNat ≤ y.toNat then x else y)
/-- `MAXU` (R113). -/
def execMaxu (st : Bool) (d a b : Nat) (s : State) : Out := alu2 s st d a b (fun x y => if y.toNat ≤ x.toNat then x else y)
/-- `MUL` (R114). -/
def execMul (st : Bool) (d a b : Nat) (s : State) : Out := alu2 s st d a b (fun x y => x * y)
/-- `MULH` (R114). -/
def execMulh (st : Bool) (d a b : Nat) (s : State) : Out := alu2 s st d a b (fun x y => high64 (x.toInt * y.toInt))
/-- `MULHU` (R114). -/
def execMulhu (st : Bool) (d a b : Nat) (s : State) : Out := alu2 s st d a b (fun x y => high64 ((x.toNat : Int) * y.toNat))
/-- `MULHSU` (R114). -/
def execMulhsu (st : Bool) (d a b : Nat) (s : State) : Out := alu2 s st d a b (fun x y => high64 (x.toInt * y.toNat))
/-- `DIV` (R115). -/
def execDiv (st : Bool) (d a b : Nat) (s : State) : Out := alu2 s st d a b (fun x y => divS x y)
/-- `DIVU` (R115). -/
def execDivu (st : Bool) (d a b : Nat) (s : State) : Out := alu2 s st d a b (fun x y => divU x y)
/-- `REM` (R115). -/
def execRem (st : Bool) (d a b : Nat) (s : State) : Out := alu2 s st d a b (fun x y => remS x y)
/-- `REMU` (R115). -/
def execRemu (st : Bool) (d a b : Nat) (s : State) : Out := alu2 s st d a b (fun x y => remU x y)

/-! ## Single-source words (R116) -/

/-- `CLZ` (R116). -/
def execClz (st : Bool) (d a : Nat) (s : State) : Out := alu1 s st d a (fun x => BitVec.ofNat 64 (clzN 64 x.toNat))
/-- `CTZ` (R116). -/
def execCtz (st : Bool) (d a : Nat) (s : State) : Out := alu1 s st d a (fun x => BitVec.ofNat 64 (ctzN 64 x.toNat))
/-- `POPC` (R116). -/
def execPopc (st : Bool) (d a : Nat) (s : State) : Out := alu1 s st d a (fun x => BitVec.ofNat 64 (popN 64 x.toNat))
/-- `FFS` (R116). -/
def execFfs (st : Bool) (d a : Nat) (s : State) : Out := alu1 s st d a (fun x => BitVec.ofNat 64 (ffsN 64 x.toNat))
/-- `BREV` (R116). -/
def execBrev (st : Bool) (d a : Nat) (s : State) : Out := alu1 s st d a (fun x => BitVec.ofNat 64 (revN 64 x.toNat))
/-- `BSWAP` (R116). -/
def execBswap (st : Bool) (d a : Nat) (s : State) : Out := alu1 s st d a (fun x => swapBytes x)
/-- `SXB` (R116). -/
def execSxb (st : Bool) (d a : Nat) (s : State) : Out := alu1 s st d a (fun x => sextW 8 x.toNat)
/-- `SXH` (R116). -/
def execSxh (st : Bool) (d a : Nat) (s : State) : Out := alu1 s st d a (fun x => sextW 16 x.toNat)
/-- `SXW` (R116). -/
def execSxw (st : Bool) (d a : Nat) (s : State) : Out := alu1 s st d a (fun x => sextW 32 x.toNat)
/-- `ZXB` (R116). -/
def execZxb (st : Bool) (d a : Nat) (s : State) : Out := alu1 s st d a (fun x => x &&& 0xFF)
/-- `ZXH` (R116). -/
def execZxh (st : Bool) (d a : Nat) (s : State) : Out := alu1 s st d a (fun x => x &&& 0xFFFF)
/-- `ZXW` (R116). -/
def execZxw (st : Bool) (d a : Nat) (s : State) : Out := alu1 s st d a (fun x => x &&& 0xFFFFFFFF)

/-! ## Immediate words (R117 to R119) -/

/-- `ADDI` (R117). -/
def execAddi (st : Bool) (d a i : Nat) (s : State) : Out := aluI s st d a i (fun x m => x + m)
/-- `ANDI` (R117). -/
def execAndi (st : Bool) (d a i : Nat) (s : State) : Out := aluI s st d a i (fun x m => x &&& m)
/-- `ORI` (R117). -/
def execOri (st : Bool) (d a i : Nat) (s : State) : Out := aluI s st d a i (fun x m => x ||| m)
/-- `XORI` (R117). -/
def execXori (st : Bool) (d a i : Nat) (s : State) : Out := aluI s st d a i (fun x m => x ^^^ m)
/-- `SLTI` (R117). -/
def execSlti (st : Bool) (d a i : Nat) (s : State) : Out := aluI s st d a i (fun x m => boolWord (decide (x.toInt < m.toInt)))
/-- `SLTIU` (R117). -/
def execSltiu (st : Bool) (d a i : Nat) (s : State) : Out := aluI s st d a i (fun x m => boolWord (decide (x.toNat < m.toNat)))
/-- `SLLI` (R118). -/
def execSlli (st : Bool) (d a c : Nat) (s : State) : Out := alu1 s st d a (fun x => x <<< c)
/-- `SRLI` (R118). -/
def execSrli (st : Bool) (d a c : Nat) (s : State) : Out := alu1 s st d a (fun x => x >>> c)
/-- `SRAI` (R118). -/
def execSrai (st : Bool) (d a c : Nat) (s : State) : Out := alu1 s st d a (fun x => x.sshiftRight c)
/-- `RORI` (R118). -/
def execRori (st : Bool) (d a c : Nat) (s : State) : Out := alu1 s st d a (fun x => rotr64 x c)
/-- `LUI` (R119). -/
def execLui (st : Bool) (d i : Nat) (s : State) : Out := issue s st (fun _ => scalarOut d (sextW 20 i * 4096))
/-- `ADDPC` (R119). -/
def execAddpc (st : Bool) (d i : Nat) (s : State) : Out :=
  issue s st (fun c => scalarOut d (BitVec.ofNat 64 c.pc + sextW 20 i * 4096))

end Sys2Proof.Machine
end

