-- ==== Sys2Proof/Machine/SysReg.lean ====
section
/-! DEFINITION. The system registers (05_core_state R91 to R96, 18_mapping R283, R284, 20_wharf R341, R342), the words
that read and write them (R95) and `SETSHP` (R107, R108). -/

namespace Sys2Proof.Machine

/-! ## Shapes (R107, R108) -/

/-- The granted vector length (R107). -/
def grantVl (q : Nat) : Nat := let v := bits q 0 6; if v = 0 ∨ 32 < v then 32 else v

/-- The granted tile-shape code (R107). -/
def grantTile (q : Nat) : Nat :=
  let r := if bits q 8 8 = 0 then 255 else bits q 8 8
  let c := if bits q 16 8 = 0 then 255 else bits q 16 8
  ((List.range 8).find? (fun t => decide (shapeRows t ≤ r) && decide (shapeCols t ≤ c))).getD 7

/-- `setshp_grant` (R107). -/
def setshpGrant (q : Nat) : Word := shapeWord (grantVl q) (grantTile q)

/-! ## Reading and writing -/

/-- The RW fields of a system register, as a mask (R91, R44, R92, R284, R342); 0 for a register that is RO. -/
def sysMask (n : Nat) : Word :=
  match n with | 0x010 => 0x7FF | 0x100 => 0x3FF | 0x500 => 0x1FFF | 0x600 => 0x1FFFF | _ => 0

/-- The registers that only context 0 may write (R91, R283, R342). -/
def sysPrivileged (n : Nat) : Bool := n == 0x010 || n == 0x500 || n == 0x600

/-- `wr` of R95, on a register whose fields are RW, RO or RSV. -/
def sysWr (n : Nat) (old new : Word) : Word := (new &&& sysMask n) ||| (old &&& ~~~sysMask n)

/-- A system register as it stood when the run began (R69, R95). -/
def WCtx.sys (c : WCtx) (n : Nat) : Word := tgetD 0 c.r.sys n

/-- A write of a system register at the end of the run: the privilege fault where it is not allowed (R92), nothing
where the register is RO (R95). -/
def WCtx.sysPut (c : WCtx) (n : Nat) (l : List Item) (new : Word) : WOut :=
  if sysPrivileged n && c.b.ctx != 0 then .exc ⟨7, 0, BitVec.ofNat 64 n⟩
  else if sysMask n = 0 then .items l 0
  else .items (l ++ [.sys n (sysWr n (c.sys n) new)]) 0

/-- `SRD` (R95). -/
def execSrd (st : Bool) (d n : Nat) (s : State) : Out := issue s st (fun c => scalarOut d (c.sys n))
/-- `SWR` (R95). -/
def execSwr (st : Bool) (a n : Nat) (s : State) : Out := issue s st (fun c => c.sysPut n [] (c.x a))
/-- `SRSET` (R95). -/
def execSrset (st : Bool) (d a n : Nat) (s : State) : Out :=
  issue s st (fun c => c.sysPut n [.sreg d (c.sys n)] (c.sys n ||| c.x a))
/-- `SRCLR` (R95). -/
def execSrclr (st : Bool) (d a n : Nat) (s : State) : Out :=
  issue s st (fun c => c.sysPut n [.sreg d (c.sys n)] (c.sys n &&& ~~~c.x a))

/-- `SETSHP` (R108). -/
def execSetshp (st : Bool) (d a : Nat) (s : State) : Out :=
  issue s st (fun c =>
    let q := (c.x a).toNat
    .items [.sreg d (setshpGrant q), .shape (grantVl q + grantTile q * 2 ^ 24)] 0)

/-! ## The registers' writes as steps of their own

A row of the table without a word: the change that a write makes at the end of its run, for a write by a barge of
context 0 where the register asks for it. -/

/-- The write of a register by a barge (R92, R95): the privilege fault is taken where the barge may not write. -/
def State.sysStep (s : State) (bid n : Nat) (v : Word) : State :=
  match s.barge? bid with
  | none => s
  | some b =>
    if b.st != .resident || !isSysReg n then s
    else if sysPrivileged n && b.ctx != 0 then s.takeExc bid { cls := 7, pc := b.pc, s3 := BitVec.ofNat 64 n }
    else if sysMask n = 0 then s
    else s.sysWrite bid n (sysWr n (s.sysRead b n) v)

/-- `LEASEMAX_WRITE` (R92). -/
def execLeasemaxWrite (b : Nat) (v : Word) (s : State) : Out := .next (s.sysStep b 0x010 v)
/-- `TLEASE_WRITE` (R284). -/
def execTleaseWrite (b : Nat) (v : Word) (s : State) : Out := .next (s.sysStep b 0x500 v)
/-- `SLOTCFG_WRITE` (R342). -/
def execSlotcfgWrite (b : Nat) (v : Word) (s : State) : Out := .next (s.sysStep b 0x600 v)
/-- `FPFLAGS_WRITE` (R96). -/
def execFpflagsWrite (b : Nat) (v : Word) (s : State) : Out :=
  .next (match s.barge? b with
    | none => s
    | some g =>
      let raised := match g.run with | some r => r.raised | none => 0
      (s.sysStep b 0x100 v).updB b (fun g => { g with rfpfl := g.rfpfl ||| raised }))
/-- `SYSREG_WRITE` (R95): any other register; every one of them is RO. -/
def execSysregWrite (b n : Nat) (v : Word) (s : State) : Out := .next (s.sysStep b n v)

end Sys2Proof.Machine
end

