-- ==== Sys2Proof/Machine/Sync.lean ====
section
/-! DEFINITION. The synchronisation words (08_core_memory R158 to R172): leases, fences, split barriers, timeline waits
and tile entries. -/

namespace Sys2Proof.Machine

/-! ## Leases and fences (R159, R161 to R164) -/

/-- `LEASE` (R161, R162): the granule is obtained at issue; where another barge holds it leased, or others have asked for it, the
word waits (R163), and so it does where every way of the granule's set in the L1 holds a leased line (R4). DEDUCED: toward a target that does not answer or is
isolated it is as a load (R357, notes/assumptions/29.md). -/
def execLease (st : Bool) (a : Nat) (s : State) : Out :=
  issueWith s st (fun c =>
    let ea := c.x a
    match c.word ea 6 .w with
    | .error o => (c.s, o)
    | .ok g =>
      let k := g.pa / 64
      if 4 ≤ c.b.leases.length ∨ c.b.leases.any (fun l => decide (k ≤ l.granule)) then (c.s, .exc ⟨9, 0, ea⟩)
      else if c.s.isIsolated g.pa then (c.s, .exc ⟨0x0A, 0, ea⟩)
      else if (c.s.unheard c.b g.vc g.pa 64).isSome then (c.s, .noAnswer ((c.s.unheard c.b g.vc g.pa 64).getD 0))
      else if c.s.blockedAt c.bid k then (c.s, .stall [k])
      else if c.s.l1Full c.b.core k then (c.s, .stall [])
      else
        let until_ := c.s.cycle + c.s.leaseMaxOf c.b.core
        -- another core's copy in M is written back (R263)
        let s := c.s.giveBack (fun i => i % 2 ^ 46 == k && i != l1Key c.b.core k)
        let s := ((s.touchRead g.vc g.pa 64).useNodes c.bid [g.node]).updB c.bid (fun b => { b with leases := b.leases ++ [⟨k, until_⟩] })
        -- the core receives the current data (R163)
        let s := s.setMem (s.mem.settle [s.homeDie g.vc g.pa, dieOf c.b.core] g.pa 64)
        let st := if tget s.mem.l1 (l1Key c.b.core k) = some .m then L1St.m else L1St.e
        ((s.setL1 (l1Own s.mem.l1 c.b.core k st)).useL1 c.b.core k, .items [] 0))

/-- `LREL` (R164). -/
def execLrel (s : State) : Out := issue s true (fun _ => .fin [] (.commit .plain))

/-- `FENCE` (R159): effects that earlier commits released are performed at its scope now, and where a lease holds one of them back
the word waits for that; the effects buffered before it, at the commit. -/
def execFence (st : Bool) (sc : Scope) (s : State) : Out :=
  issueWith s st (fun c =>
    if decide (0 < c.s.effScope c.b.ctx sc) && c.s.coreWaits c.bid c.b.core then (c.s, .stall [])
    else (c.s.performAt c.b.core c.b.ctx sc, .items [.eff (.fence sc)] 0))

/-! ## Split barriers (R166 to R168) -/

/-- Is the record at an offset one that an arrival may name: EXPECT nonzero, no reserved bit set (R167)? -/
def barRecordOk (bs : List Byte) : Bool :=
  bits (leNum (bs.take 8)) 0 16 != 0 && bits (leNum (bs.take 8)) 33 31 == 0 &&
    bits (leNum ((bs.drop 8).take 8)) 48 16 == 0 && (bs.drop 16).all (fun x => x == 0)

/-- An arrival (R167). DEDUCED: the record is read with the region's own buffered stores over it (notes/assumptions/32.md), and one
that holds poison like any other (notes/assumptions/38.md). -/
def arrival (s : State) (st : Bool) (a : Nat) (add : WCtx → Word) : Out :=
  issue s st (fun c =>
    let ea := c.x a
    match c.winAt ea 6 64 with
    | .error w => .exc w
    | .ok (m, off) =>
      let bs := overlayWin c.effs m off (readTab (c.s.barge m).window off 64)
      if !barRecordOk bs || decide (2 ^ 40 ≤ (add c).toNat) then .exc ⟨0x0C, 0, ea⟩
      else c.bufferOne (.eff (.arrive m off (add c).toNat)))

/-- `BARV` (R167). -/
def execBarv (st : Bool) (a : Nat) (s : State) : Out := arrival s st a (fun _ => 0)
/-- `BARVX` (R167). -/
def execBarvx (st : Bool) (a b : Nat) (s : State) : Out := arrival s st a (fun c => c.x b)
/-- `BWAIT` (R168). -/
def execBwait (a b : Nat) (s : State) : Out :=
  issue s true (fun c =>
    match c.winAt (c.x a) 6 64 with
    | .error w => .exc w
    | .ok (m, off) => .fin [] (.commit (.held (.bwait m off ((c.x b).toNat % 2)))))

/-! ## Timelines (R169, R170) -/

/-- The flight lies in the current cut of a context's tenant (R203, R338). -/
def State.inCut (s : State) (ctx flight : Nat) : Bool := tgetD 0 s.whf.cut flight == (s.ctx ctx).partition + 1

/-- May a context wait on a timeline for a number (R203, R230, R266, R293)? -/
def State.mayWait (s : State) (ctx kind index n : Nat) : Bool :=
  let t := s.tl (tlKey kind index)
  match kind with
  | 0 => s.inCut ctx (index / 16) || decide (n ≤ t.latestOf ctx)
  | 1 => decide (n ≤ t.latestOf ctx)
  | 2 =>
    (match tget s.com.vc index with
     | some v => v.owner == (s.ctx ctx).partition && decide (v.cdefN ≤ n)
     | none => false) || decide (n ≤ t.latestOf ctx)
  | _ => ctx == 0 || ctx == index

/-- The indices of a timeline KIND (R169). -/
def tlLimit (kind : Nat) : Nat := match kind with | 0 => 2560 | 1 => 640 | 2 => 1024 | 3 => 4096 | _ => 0

/-- `TLWAIT` (R170). -/
def execTlwait (a b : Nat) (s : State) : Out :=
  issue s true (fun c =>
    let v := (c.x a).toNat
    let n := (c.x b).toNat
    let kind := bits v 16 3
    let index := v % 65536
    if 2 ^ 19 ≤ v ∨ tlLimit kind ≤ index ∨ (c.s.tl (tlKey kind index)).issued < n ∨ !c.s.mayWait c.b.ctx kind index n then
      .exc ⟨0x0D, 0, c.x a⟩
    else .fin [] (.commit (.held (.tlwait (tlKey kind index) n))))

/-! ## Tiles (R104 to R106, R171, R172) -/

/-- The state of a tile entry with the region's own buffered tile changes applied (R105): none past TILES. -/
def WCtx.tileState (c : WCtx) (t : Nat) : Option Tile :=
  if c.b.tiles ≤ t then none
  else
    let cmds : List Effect := c.r.items.filterMap (fun i => match i with | .cmd _ k d => some (.cmd k 0 d) | _ => none)
    some ((c.effs ++ cmds).foldl
      (fun e f => match f with
        | .tileDef k d => if k = t then d else e
        | .tileRel k => if k = t then {} else e
        | .cmd _ _ d => if d.op = .maccwr ∧ bits d.b.toNat 0 6 = t then { e with st := .draining } else e
        | _ => e) (tgetD {} c.b.tileTab t))

/-- The tile-state fault (R184). -/
def tileFault (t : Nat) : WOut := .exc ⟨0x0B, 0, BitVec.ofNat 64 t⟩

/-- `TTDEF` (R171). DEDUCED: its bounds fault reports the BASE operand (notes/assumptions/39.md). -/
def execTtdef (st : Bool) (a b : Nat) (s : State) : Out :=
  issue s st (fun c =>
    let q := (c.x a).toNat
    let t := bits q 0 6
    let ty := bits q 8 4
    let base := (c.x b).toNat
    let rows := shapeRows c.b.rtcode
    let cols := shapeCols c.b.rtcode
    let size := rows * cols * tyWidth ty / 8
    if q / 2 ^ 17 ≠ 0 ∨ bits q 6 2 ≠ 0 ∨ bits q 12 4 ≠ 0 ∨ 9 < ty ∨ (c.tileState t).map Tile.st ≠ some .empty then tileFault t
    else if base % 64 ≠ 0 then .exc ⟨3, 6, c.x b⟩
    else if c.b.footprint < base + size then .exc ⟨5, 0, c.x b⟩
    else c.bufferOne (.eff (.tileDef t
      { st := if bits q 16 1 = 1 then .ready else .filling, ty := ty, cols := cols, rows := rows, base := base })))

/-- The tile index that `TTWAIT` and `TTREL` take (R172): the entry, or the fault. -/
def WCtx.tileArg (c : WCtx) (v : Word) : Except WOut (Nat × Tile) :=
  let t := v.toNat
  match (if t < 64 then c.tileState t else none) with
  | none => .error (tileFault (t % 64))
  | some e => .ok (t, e)

/-- `TTWAIT` (R172). -/
def execTtwait (a : Nat) (s : State) : Out :=
  issue s true (fun c =>
    match c.tileArg (c.x a) with
    | .error o => o
    | .ok (t, e) =>
      if e.st = .empty ∨ e.st = .draining then tileFault t else .fin [] (.commit (.held (.ttwait t))))
/-- `TTREL` (R172). -/
def execTtrel (st : Bool) (a : Nat) (s : State) : Out :=
  issue s st (fun c =>
    match c.tileArg (c.x a) with
    | .error o => o
    | .ok (t, e) => if e.st = .ready then c.bufferOne (.eff (.tileRel t)) else tileFault t)

end Sys2Proof.Machine
end

