-- ==== Sys2Proof/Machine/Matrix.lean ====
section
/-! DEFINITION. The matrix array (14_array R229 to R253): its words as commands, `MSTAT`, and the steps that begin a
command, complete it and end a turn. A command's status is decided at its begin; its effect is performed at its
completion (notes/assumptions/8.md). -/

namespace Sys2Proof.Machine

/-! ## The words (R240) -/

/-- A matrix command: its number on the timeline of the core's turn context (R230, R240). -/
def matrixWord (s : State) (st : Bool) (op : Op) (d : Nat) (f g : WCtx → Word) : Out :=
  issue s st (fun c => c.command op d (tlKey 1 c.b.core) (f c) (g c))

/-- `MTURN` (R242). -/
def execMturn (st : Bool) (d a : Nat) (s : State) : Out := matrixWord s st .mturn d (fun c => c.x a) (fun _ => 0)
/-- `MTEND` (R243). -/
def execMtend (st : Bool) (d : Nat) (s : State) : Out := matrixWord s st .mtend d (fun _ => 0) (fun _ => 0)
/-- `MRINGCFG` (R244). -/
def execMringcfg (st : Bool) (d a b : Nat) (s : State) : Out := matrixWord s st .mringcfg d (fun c => c.x a) (fun c => c.x b)
/-- `MRINGADV` (R245). -/
def execMringadv (st : Bool) (d a b : Nat) (s : State) : Out := matrixWord s st .mringadv d (fun c => c.x a) (fun c => c.x b)
/-- `MZERO` (R246). -/
def execMzero (st : Bool) (d a : Nat) (s : State) : Out := matrixWord s st .mzero d (fun c => c.x a) (fun _ => 0)
/-- `MMA` (R236, R237, R247). -/
def execMma (st : Bool) (d a b : Nat) (o : Bool) (s : State) : Out := matrixWord s st (.mma o) d (fun c => c.x a) (fun c => c.x b)
/-- `MMAX` (R239, R247). -/
def execMmax (st : Bool) (d a b : Nat) (s : State) : Out := matrixWord s st .mmax d (fun c => c.x a) (fun c => c.x b)
/-- `MREC` (R239, R247). -/
def execMrec (st : Bool) (d a b : Nat) (s : State) : Out := matrixWord s st .mrec d (fun c => c.x a) (fun c => c.x b)
/-- `MLDPROG` (R248). -/
def execMldprog (st : Bool) (d a : Nat) (s : State) : Out := matrixWord s st .mldprog d (fun c => c.x a) (fun _ => 0)
/-- `MACCRD` (R249). -/
def execMaccrd (st : Bool) (d a b : Nat) (i : Bool) (s : State) : Out := matrixWord s st (.maccrd i) d (fun c => c.x a) (fun c => c.x b)
/-- `MACCWR` (R250): the tile entry is checked at issue. -/
def execMaccwr (st : Bool) (d a b : Nat) (s : State) : Out :=
  issue s st (fun c =>
    match c.tileArg (c.x b) with
    | .error o => o
    | .ok (t, e) => if e.st = .ready then c.command .maccwr d (tlKey 1 c.b.core) (c.x a) (c.x b) else tileFault t)

/-! ## Turns and rings (R229, R234) -/

def State.setArr (s : State) (a : ArraySt) : State := { s with arr := a }

/-- The core whose context carries the turn a barge holds, and the turn. -/
def State.turnHeld (s : State) (bid : Nat) : Option (Nat × Turn) := s.arr.turn.find? (fun e => e.2.holder == bid)

/-- Replace the turn of a core. -/
def State.setTurn (s : State) (core : Nat) (t : Turn) : State := s.setArr { s.arr with turn := tset s.arr.turn core t }

/-- The claim word of a turn (R242). -/
def Turn.claim (t : Turn) : Word := BitVec.ofNat 64 (t.tiles + t.wbase * 256 + t.wsize * 65536)

/-- A result that no rule gives: a free value of the query and its operands (R251, R273, R304; notes/assumptions/14.md). -/
def openResult (d q : Nat) (a b : Word) : WOut := scalarOut d (Config.openWord q a b)

/-- `MSTAT` (R251). -/
def execMstat (st : Bool) (d a l : Nat) (s : State) : Out :=
  issue s st (fun c =>
    let q := c.x a
    let ring : Option Ring := (c.s.turnHeld c.bid).bind (fun t => tget t.2.rings (q.toNat % 8))
    match l with
    | 0 =>
      let t := c.s.tl (tlKey 1 c.b.core)
      let e := if c.s.mayWait c.b.ctx 1 c.b.core q.toNat then t.status q.toNat else ⟨q.toNat, 15, 0, 0⟩
      scalarOut d (statusWord e)
    | 1 =>
      if 8 ≤ q.toNat then openResult d 1 q 0
      else scalarOut d (match ring with | some r => BitVec.ofNat 64 r.head | none => 0)
    | 2 =>
      if 8 ≤ q.toNat then openResult d 2 q 0
      else scalarOut d (match ring with | some r => BitVec.ofNat 64 r.tail | none => 0)
    | _ =>
      if q ≠ 0 then openResult d 3 q 0
      else scalarOut d (match c.s.turnHeld c.bid with | some t => t.2.claim | none => 0))

def accKey (f tile i j : Nat) : Nat := f * 2 ^ 17 + tile * 12288 + i * 96 + j
def ringKey (f off : Nat) : Nat := f * 2 ^ 21 + off
def rpKey (f off : Nat) : Nat := f * 2 ^ 15 + off / 64

/-- Bytes a ring holds (R234). -/
def Ring.filled (r : Ring) : Nat := r.tail - r.head

/-- The ring-memory offset of a counter value (R234). -/
def Ring.at (r : Ring) (n : Nat) : Nat := r.base + n % r.size

/-- A byte of a ring; a poisoned granule reads zero (R241). -/
def ArraySt.ringByte (a : ArraySt) (f : Nat) (r : Ring) (n : Nat) : Byte :=
  if tgetD false a.rpoison (rpKey f (r.at n)) then 0 else tgetD 0 a.ring (ringKey f (r.at n))

/-- Bytes of a ring from a counter value. -/
def ArraySt.ringBytes (a : ArraySt) (f : Nat) (r : Ring) (n len : Nat) : List Byte :=
  (List.range len).map (fun i => a.ringByte f r (n + i))

/-- Is a granule of the `len` bytes at the head of a ring poisoned? -/
def ArraySt.ringPoison (a : ArraySt) (f : Nat) (r : Ring) (len : Nat) : Bool :=
  (List.range len).any (fun i => tgetD false a.rpoison (rpKey f (r.at (r.head + i))))

/-! ## Operation and ring words (R247) -/

def Cmd.mK (c : Cmd) : Nat := bits c.a.toNat 32 21
def Cmd.mTB (c : Cmd) : Nat := bits c.a.toNat 24 4
def Cmd.mTA (c : Cmd) : Nat := bits c.a.toNat 20 4
def Cmd.mN (c : Cmd) : Nat := bits c.a.toNat 12 7 + 1
def Cmd.mM (c : Cmd) : Nat := bits c.a.toNat 4 7 + 1
def Cmd.mTile (c : Cmd) : Nat := bits c.a.toNat 0 3
def Cmd.mRA (c : Cmd) : Nat := bits c.b.toNat 0 3
def Cmd.mRB (c : Cmd) : Nat := bits c.b.toNat 4 3
def Cmd.mRSA (c : Cmd) : Nat := bits c.b.toNat 8 3
def Cmd.mRSB (c : Cmd) : Nat := bits c.b.toNat 12 3

/-- Is an operand of a type scaled (R236)? Never for `MMAX` and `MREC` (R239). -/
def Op.scaled (o : Op) (t : Nat) : Bool :=
  match o with | .mma s => t == 4 || t == 8 || t == 9 || (s && (t == 2 || t == 3)) | _ => false

/-- Is a pair of types one the command takes (R236, R239)? -/
def Op.pairOk (o : Op) (ta tb : Nat) : Bool :=
  let eight (t : Nat) : Bool := t == 2 || t == 3 || t == 4 || t == 9
  match o with
  | .mma s =>
    ((ta == tb && (ta == 0 || ta == 1 || ta == 7 || ta == 8)) || (eight ta && eight tb)) &&
      (!s || ta == 2 || ta == 3 || tb == 2 || tb == 3)
  | _ => decide (ta < 4) && decide (tb < 4)

/-- The rings a multiply command uses, each with what one group consumes (R235, R247). -/
def Cmd.mRings (c : Cmd) : List (Nat × Nat) :=
  [(c.mRA, c.mM * 4 * tyWidth c.mTA), (c.mRB, c.mN * 4 * tyWidth c.mTB)] ++
    (if c.op.scaled c.mTA then [(c.mRSA, c.mM)] else []) ++ (if c.op.scaled c.mTB then [(c.mRSB, c.mN)] else [])

/-- The rules of R247. -/
def Cmd.mulBad (c : Cmd) (t : Turn) : Bool :=
  let a := c.a.toNat
  let b := c.b.toNat
  decide (2 ^ 53 ≤ a) || bits a 28 4 != 0 || bits a 19 1 != 0 || bits a 11 1 != 0 || bits a 3 1 != 0 ||
    decide (2 ^ 15 ≤ b) || bits b 11 1 != 0 || bits b 7 1 != 0 || bits b 3 1 != 0 ||
    c.mK % 32 != 0 || decide (c.mK < 32) || decide (1048576 < c.mK) || decide (96 < c.mN) ||
    !c.op.pairOk c.mTA c.mTB || bits t.tiles c.mTile 1 == 0 ||
    (!c.op.scaled c.mTA && c.mRSA != 0) || (!c.op.scaled c.mTB && c.mRSB != 0) ||
    c.mRings.any (fun r => (tget t.rings r.1).isNone) ||
    !decide ((c.mRings.map (·.1)).Nodup) || (c.op == .mrec && t.prog.isNone)

/-- Does a ring hold fewer bytes than the command consumes (R247)? -/
def Cmd.mulUnder (c : Cmd) (t : Turn) : Bool :=
  c.mRings.any (fun r => match tget t.rings r.1 with
    | some q => decide (q.filled < c.mK / 32 * r.2)
    | none => true)

/-! ## Reading blocks and programs (R248, R249) -/

/-- Does a microprogram record break R238? -/
def progBad (w : List Word) : Bool :=
  let steps := bits ((w.getD 0 0).toNat) 0 4 + 1
  let step (s : Nat) : Nat := bits ((w.getD (2 + s / 2) 0).toNat) (32 * (s % 2)) 32
  bits ((w.getD 0 0).toNat) 4 60 != 0 || decide (12 < steps) || (List.range 12).any (fun s =>
    if steps ≤ s then step s != 0
    else
      decide (7 < bits (step s) 28 4) || bits (step s) 26 2 == 3 || bits (step s) 0 17 != 0 ||
        (bits (step s) 17 3 != 0 && bits (step s) 28 4 != 3 && bits (step s) 28 4 != 7))

def Cmd.rTile (c : Cmd) : Nat := bits c.a.toNat 0 3
def Cmd.rRows (c : Cmd) : Nat := bits c.a.toNat 4 7 + 1
def Cmd.rCols (c : Cmd) : Nat := bits c.a.toNat 12 7 + 1
def Cmd.rTy (c : Cmd) : Nat := bits c.a.toNat 20 4
def Cmd.rRow0 (c : Cmd) : Nat := bits c.a.toNat 32 7
def Cmd.rCol0 (c : Cmd) : Nat := bits c.a.toNat 40 7
def Cmd.rFull (c : Cmd) : Bool := bits c.a.toNat 28 1 == 1
def Cmd.rBytes (c : Cmd) : Nat := c.rRows * c.rCols * tyWidth c.rTy / 8

/-- The rules of R249. -/
def Cmd.readBad (c : Cmd) (i : Bool) (t : Turn) : Bool :=
  let a := c.a.toNat
  decide (2 ^ 47 ≤ a) || bits a 39 1 != 0 || bits a 29 3 != 0 || bits a 27 1 != 0 || bits a 19 1 != 0 ||
    bits a 11 1 != 0 || bits a 3 1 != 0 || decide (96 < c.rCol0 + c.rCols) || decide (128 < c.rRow0 + c.rRows) ||
    !(if i then decide (5 ≤ c.rTy) && decide (c.rTy ≤ 7) else decide (c.rTy ≤ 3)) || bits t.tiles c.rTile 1 == 0 ||
    (c.rFull && (c.b.toNat % 8 != 0 || c.rBytes % 8 != 0))

/-- The rules of R250 that are checked at begin. DEDUCED: a tile outside the claim is refused as R247 and R249 say of theirs
(notes/assumptions/19.md). -/
def Cmd.writeBad (c : Cmd) (t : Turn) (e : Tile) : Bool :=
  let a := c.a.toNat
  decide (2 ^ 19 ≤ a) || bits a 11 1 != 0 || bits a 3 1 != 0 || !(e.ty == 0 || e.ty == 5) ||
    decide (128 < bits a 4 7 + e.rows) || decide (96 < bits a 12 7 + e.cols) || bits t.tiles (bits a 0 3) 1 == 0

/-! ## Status at begin (R241 to R250) -/

/-- Do two sets of claims meet: tiles, or window units? -/
def Turn.meets (t : Turn) (tiles wbase wsize : Nat) : Bool := t.tiles &&& tiles != 0 || overlaps t.wbase t.wsize wbase wsize

/-- `MTURN`'s checks in order (R242). -/
def State.turnStatus (s : State) (core : Nat) (c : Cmd) : Nat :=
  let a := c.a.toNat
  let tiles := bits a 0 8
  let wbase := bits a 8 5
  let wsize := bits a 16 6
  if 2 ^ 22 ≤ a ∨ bits a 13 3 ≠ 0 ∨ wsize = 0 ∨ 32 < wsize ∨ 32 < wbase + wsize ∨ tiles = 0 ∨ (s.turnHeld c.barge).isSome then 2
  else if (tget s.arr.turn core).isSome then 3
  else if s.arr.turn.any (fun e => flightOf e.1 == flightOf core && e.2.meets tiles wbase wsize) then 3
  else 0

/-- The status of a command of a barge that holds its context's turn, decided at begin. DEDUCED: the s[b] of a `MACCRD` with a bit of
63:24 set is a destination outside the footprint, BOUNDS (R249, R147; notes/assumptions/19.md). -/
def State.heldStatus (s : State) (t : Turn) (m : MCmd) : Nat :=
  let c := m.cmd
  let a := c.a.toNat
  let b := c.b.toNat
  match c.op with
  | .mtend => 0
  | .mringcfg =>
    let base := bits b 0 21
    let size := bits b 32 22
    if 8 ≤ a ∨ 2 ^ 54 ≤ b ∨ bits b 21 11 ≠ 0 ∨ base % 64 ≠ 0 ∨ size % 64 ≠ 0 ∨ size < 64 ∨ 2097152 < size ∨
        base < t.wbase * 65536 ∨ (t.wbase + t.wsize) * 65536 < base + size then 2 else 0
  | .mringadv =>
    let w := bits a 3 1 == 1
    match tget t.rings (a % 8) with
    | none => 2
    | some r =>
      if 2 ^ 48 ≤ a ∨ bits a 8 8 ≠ 0 ∨ (!w && (b != 0 || bits a 4 4 != 0)) ∨ (w && b == 0) ∨ m.bad ∨
          r.size < r.filled + bits a 16 32 then 2 else 0
  | .mzero => if 256 ≤ a ∨ a &&& t.tiles ≠ a then 2 else 0
  | .mma _ => if c.mulBad t then 2 else if c.mulUnder t then 5 else 0
  | .mmax => if c.mulBad t then 2 else if c.mulUnder t then 5 else 0
  | .mrec => if c.mulBad t then 2 else if c.mulUnder t then 5 else 0
  | .mldprog =>
    if a % 64 ≠ 0 ∨ 2 ^ 24 ≤ a then 2
    else match s.spad c.barge c.a 64 with
      | none => 6
      | some (k, off) =>
        let b := s.barge k
        if progBad (wordsOf 8 (readTab b.window off 64)) then 2
        else if (List.range 8).any (fun i => b.wordPoison (off + 8 * i)) then 7
        else 0
  | .maccrd i => if c.readBad i t then 2 else if (s.spad c.barge c.b c.rBytes).isNone then 6 else 0
  | .maccwr => if c.writeBad t (tgetD {} (s.barge c.barge).tileTab (b % 64)) then 2 else 0
  | _ => 2

/-- The status of a matrix command, decided at its begin (R241). -/
def State.matrixStatus (s : State) (core : Nat) (m : MCmd) : Nat :=
  if m.cmd.op = .mturn then s.turnStatus core m.cmd
  else
    match tget s.arr.turn core with
    | none => 4
    | some t => if t.holder = m.cmd.barge then s.heldStatus t m else 4

/-- Can the next command of a context begin? One before which a lease holds something back that its core released cannot (R180), and
an `MRINGADV` that waits for the sluice cannot, whoever issued it (R231, R245). DEDUCED:
one that its acceptance refuses, whose number the queue may never reach, begins at once (notes/assumptions/19.md). -/
def State.canBegin (s : State) (core : Nat) (m : MCmd) : Bool :=
  !s.coreWaits m.cmd.barge core &&
  match m.cmd.op with
  | .mringadv =>
    let a := m.cmd.a.toNat
    bits a 3 1 == 0 || m.bad ||
      decide (m.cmd.b.toNat ≤ (s.tl (tlKey 0 (flightOf core * 16 + bits a 4 4))).completed)
  | _ => true

/-- The context whose command the array begins next, where it is free (R231). -/
def State.matrixNext (s : State) (f : Nat) : Option Nat :=
  if (tget s.arr.running f).isSome then none
  else
    let last := tgetD 3 s.arr.last f
    (([1, 2, 3, 4] : List Nat).map (fun k => 4 * f + (last + k) % 4)).find? (fun core =>
      match tgetD [] s.arr.queue core with | m :: _ => s.canBegin core m | [] => false)

/-- The record that an `MLDPROG` reads when it begins (R248). -/
def State.progRead (s : State) (c : Cmd) : List Word :=
  match (if c.op = .mldprog then s.spad c.barge c.a 64 else none) with
  | some (k, off) => wordsOf 8 (readTab (s.barge k).window off 64)
  | none => []

/-- The turn that an `MTURN` is granted (R242). -/
def Cmd.newTurn (c : Cmd) : Turn :=
  let a := c.a.toNat
  { holder := c.barge, tiles := bits a 0 8, wbase := bits a 8 5, wsize := bits a 16 6 }

/-- The next command of a flight begins (R231): the effects before it are performed at .F (R180, R252); an `MTURN` is granted here (R242), an `MTEND` ends its turn (R243). -/
def State.matrixBegin (s : State) (f : Nat) : State :=
  match s.matrixNext f with
  | none => s
  | some core =>
    match tgetD [] s.arr.queue core with
    | [] => s
    | m :: rest =>
      let s := s.setMem (s.mem.spread core 1)
      let st := s.matrixStatus core m
      let s := s.setArr { s.arr with
        queue := tput [] s.arr.queue core rest, last := tput 3 s.arr.last f (core % 4),
        running := tset s.arr.running f ⟨core, m, st, s.progRead m.cmd⟩ }
      match m.cmd.op, tget s.arr.turn core with
      | .mturn, _ => if st = 0 then s.setTurn core m.cmd.newTurn else s
      | .mtend, some t => if st = 0 then s.setTurn core { t with ending := some m.n } else s
      | _, _ => s

/-! ## Arithmetic (R41, R42, R237, R239) -/

/-- The NaN of R42. -/
def arrNan (core k : Nat) : Nat := 0x7FC00000 + core % 1024 * 4096 + k % 4096

/-- The k of the NaN that a group of products yields, counted from the group's first (R42 items 1 and 2). -/
def groupNanAt (p : List FVal) : Option Nat :=
  match (p.zipIdx.find? (fun e => e.1 == .nan)).map (·.2) with
  | some k => some k
  | none =>
    let infs := p.zipIdx.filter (fun e => match e.1 with | .inf _ => true | _ => false)
    match infs with
    | [] => none
    | (v, _) :: r => (r.find? (fun e => e.1 != v)).map (·.2)

/-- The sum of a group of finite products (R41). -/
def groupSum (p : List FVal) : FVal :=
  let tops := p.filterMap (fun v => match v with
    | .fin _ m e => if m = 0 then none else some (e + bitLen m - 1)
    | _ => none)
  match tops with
  | [] => .fin (p.all (fun v => match v with | .fin n _ _ => n | _ => false)) 0 0
  | t :: ts =>
    let q : Int := ts.foldl max t - 60
    let g : Int := p.foldl (fun a v => match v with
      | .fin n m e =>
        let x : Nat := if q ≤ e then m * 2 ^ (e - q).toNat else m / 2 ^ (q - e).toNat
        if n then a - x else a + x
      | _ => a) 0
    .fin (decide (g < 0)) g.natAbs q

/-- Which of an accumulator's NaN and a group's stays (R42). -/
def keepNan (acc n : Nat) : Nat := if acc % 2 ^ 22 ≤ n % 2 ^ 22 then acc else n

/-- `array_group` (R41): one group of exact products into an FP32 accumulator; `k` counts from the command's first. -/
def arrayGroup (core k acc : Nat) (p : List FVal) : Nat :=
  let isN := fmtF32.isNan acc
  match groupNanAt p with
  | some j => if isN then keepNan acc (arrNan core (k + j)) else arrNan core (k + j)
  | none =>
    if isN then acc
    else
      match p.zipIdx.find? (fun e => match e.1 with | .inf _ => true | _ => false) with
      | some (.inf sg, j) =>
        (match fmtF32.val acc with
         | .inf t => if t = sg then acc else arrNan core (k + j)
         | _ => fmtF32.infc + fmtF32.signBit sg)
      | _ =>
        match fmtF32.val acc with
        | .inf _ => acc
        | v => (fmtF32.addVal rneN v (groupSum p)).code

/-- An element of a group of a ring: line `i` (row or column), position `t` (R235). -/
def ArraySt.elemCode (a : ArraySt) (f : Nat) (r : Ring) (lines w g i t : Nat) : Nat :=
  let at_ := r.head + g * (lines * 4 * w) + i * (4 * w)
  bits (leNum (a.ringBytes f r at_ (4 * w))) (t * w) w

/-- The scaled value of an element (R25, R29, R236). -/
def ArraySt.elemVal (a : ArraySt) (f : Nat) (r : Ring) (sc : Option Ring) (lines ty g i t : Nat) : FVal :=
  let v := tyVal ty (a.elemCode f r lines (tyWidth ty) g i t)
  match sc with
  | none => v
  | some q => scaleVal v (a.ringByte f q (q.head + g * lines + i)).toNat

/-- The rings of a multiply command. -/
structure MulRings where
  ra : Ring
  rb : Ring
  sa : Option Ring
  sb : Option Ring
  deriving DecidableEq, Repr

def Cmd.mulRings (c : Cmd) (t : Turn) : MulRings :=
  let g (k : Nat) : Ring := tgetD ⟨0, 64, 0, 0⟩ t.rings k
  { ra := g c.mRA, rb := g c.mRB, sa := if c.op.scaled c.mTA then some (g c.mRSA) else none,
    sb := if c.op.scaled c.mTB then some (g c.mRSB) else none }

/-- `mma_cell` (R237). -/
def ArraySt.mmaCell (a : ArraySt) (f core : Nat) (c : Cmd) (q : MulRings) (i j acc : Nat) : Nat :=
  let groups := List.range (c.mK / 32)
  if c.mTA = 7 then
    ofSint 32 (groups.foldl (fun x g => (List.range 32).foldl (fun x t =>
      x + sintOf 8 (a.elemCode f q.ra c.mM 8 g i t) * sintOf 8 (a.elemCode f q.rb c.mN 8 g j t)) x) (sintOf 32 acc))
  else
    groups.foldl (fun acc g => arrayGroup core (32 * g) acc ((List.range 32).map (fun t =>
      mulVal (a.elemVal f q.ra q.sa c.mM c.mTA g i t) (a.elemVal f q.rb q.sb c.mN c.mTB g j t)))) acc

/-- The values a microprogram step works on: c, t0, t1, a, b, K0, K1, +0. -/
abbrev Cell := List Nat

/-- One step of a microprogram (R238, R239). DEDUCED: a CSEL reads S1, S2 and S3, whichever value it delivers
(notes/assumptions/19.md). -/
def recStep (core k : Nat) (v : Cell) (w : Nat) : Cell :=
  let op := bits w 28 4
  let d := bits w 26 2
  let n1 := bits w 23 3
  let n2 := bits w 20 3
  let n3 := bits w 17 3
  let x := v.getD n1 0
  let y := v.getD n2 0
  let z := v.getD n3 0
  let less := !fmtF32.isNan x && !fmtF32.isNan y && fpCmp fmtF32 x y == -1
  let r : Nat :=
    match op with
    | 0 => (fpAdd fmtF32 x y).code
    | 1 => (fpAdd fmtF32 x y true).code
    | 2 => (fpMul fmtF32 x y).code
    | 3 => (fpFma fmtF32 false false x y z).code
    | 4 => (fpMinMax fmtF32 true x y).code
    | 5 => (fpMinMax fmtF32 false x y).code
    | 6 => x
    | _ => if less then z else v.getD d 0
  let r' :=
    if fmtF32.isNan r then
      let named := if op = 6 then [n1] else if op = 3 ∨ op = 7 then [n1, n2, n3] else [n1, n2]
      let held := (named.filter (fun n => decide (n < 3))) ++ (if op = 7 ∧ !less then [d] else [])
      let cand := (held.map (fun n => v.getD n 0)).filter fmtF32.isNan
      match cand with
      | [] => arrNan core k
      | c :: cs => cs.foldl (fun b e => if e % 2 ^ 22 < b % 2 ^ 22 then e else b) c
    else r
  v.set d r'

/-- The steps of a microprogram record (R238). -/
def progSteps (w : List Word) : List Nat :=
  (List.range (bits ((w.getD 0 0).toNat) 0 4 + 1)).map (fun s => bits ((w.getD (2 + s / 2) 0).toNat) (32 * (s % 2)) 32)

/-- `t0 := a + b; c := max(c, t0)` (R239). -/
def mmaxSteps : List Nat := [1 * 2 ^ 26 + 3 * 2 ^ 23 + 4 * 2 ^ 20, 4 * 2 ^ 28 + 0 * 2 ^ 23 + 1 * 2 ^ 20]

/-- The FP32 value of an element (R239). -/
def toF32 (ty c : Nat) : Nat := if ty = 0 then c else (convert ty c 0 rneN).code

/-- `mrec_cell` (R239). -/
def ArraySt.recCell (a : ArraySt) (f core : Nat) (c : Cmd) (q : MulRings) (steps : List Nat) (k0 k1 i j acc : Nat) : Nat :=
  ((List.range (c.mK / 32)).foldl (fun v g => (List.range 32).foldl (fun (v : Cell) t =>
    let x := toF32 c.mTA (a.elemCode f q.ra c.mM (tyWidth c.mTA) g i t)
    let y := toF32 c.mTB (a.elemCode f q.rb c.mN (tyWidth c.mTB) g j t)
    steps.foldl (recStep core (32 * g + t)) ((v.set 3 x).set 4 y)) v) [acc, 0, 0, 0, 0, k0, k1, 0]).getD 0 0

/-! ## Effects at completion -/

/-- The accumulator element. -/
def ArraySt.cell (a : ArraySt) (f tile i j : Nat) : Nat := (tgetD 0 a.acc (accKey f tile i j)).toNat

/-- A multiply command is performed (R237, R239, R247): the tile, the heads, and whether a consumed granule is poisoned. -/
def ArraySt.multiply (a : ArraySt) (f core : Nat) (c : Cmd) (t : Turn) : ArraySt × Turn × Bool :=
  let q := c.mulRings t
  let prog := t.prog.getD []
  let w1 := (prog.getD 1 0).toNat
  let val (i j : Nat) : Nat :=
    match c.op with
    | .mmax => a.recCell f core c q mmaxSteps 0 0 i j (a.cell f c.mTile i j)
    | .mrec => a.recCell f core c q (progSteps prog) (bits w1 0 32) (bits w1 32 32) i j (a.cell f c.mTile i j)
    | _ => a.mmaCell f core c q i j (a.cell f c.mTile i j)
  let acc := (List.range c.mM).foldl (fun acc i => (List.range c.mN).foldl (fun acc j =>
    tput 0 acc (accKey f c.mTile i j) (BitVec.ofNat 32 (val i j))) acc) a.acc
  let poison := c.mRings.any (fun r => match tget t.rings r.1 with
    | some g => a.ringPoison f g (c.mK / 32 * r.2)
    | none => false)
  let rings := c.mRings.foldl (fun (rs : Tab Ring) r => match tget rs r.1 with
    | some g => tset rs r.1 { g with head := g.head + c.mK / 32 * r.2 }
    | none => rs) t.rings
  ({ a with acc := acc }, { t with rings := rings }, poison)

/-- Mark the words of a range full or empty. -/
def Barge.setFulls (b : Barge) (off n : Nat) (v : Bool) : Barge := { b with full := fillTab false b.full (off / 8) (n / 8) v }

/-- `MACCRD` (R249): the bytes written. -/
def ArraySt.readBlock (a : ArraySt) (f : Nat) (c : Cmd) (i : Bool) : List Byte :=
  let w := tyWidth c.rTy / 8
  let rm := Rnd.ofCode (bits c.a.toNat 24 3)
  (List.range c.rRows).flatMap (fun r => (List.range c.rCols).flatMap (fun q =>
    let x := a.cell f c.rTile (c.rRow0 + r) (c.rCol0 + q)
    let y := if !i && c.rTy == 0 && fmtF32.isNan x then x else (convert (if i then 5 else 0) x c.rTy rm).code
    leBytes w y))

/-- `MACCWR` (R250): the elements written, and whether one was poisoned. -/
def ArraySt.writeBlock (a : ArraySt) (f : Nat) (c : Cmd) (b : Barge) (e : Tile) : ArraySt × Bool :=
  let w := c.a.toNat
  (List.range (e.rows * e.cols)).foldl (fun (p : ArraySt × Bool) k =>
    let off := e.base + 4 * k
    let bad := b.wordPoison off
    let x := if bad then 0x7FC00000 else leNum (readTab b.window off 4)
    let key := accKey f (bits w 0 3) (bits w 4 7 + k / e.cols) (bits w 12 7 + k % e.cols)
    ({ p.1 with acc := tput 0 p.1.acc key (BitVec.ofNat 32 x) }, p.2 || bad)) (a, false)

/-- Zero every element of the tiles of a mask (R232, R246). -/
def ArraySt.zeroTiles (a : ArraySt) (f tiles : Nat) : ArraySt :=
  (List.range 8).foldl (fun a k =>
    if bits tiles k 1 = 1 then { a with acc := clearRange a.acc (accKey f k 0 0) 12288 } else a) a

/-- The effect of a command that its begin decided is OK (R243 to R250); the status it completes with. -/
def State.matrixEffect (s : State) (r : MRun) : Nat × State :=
  let core := r.core
  let c := r.m.cmd
  let a := c.a.toNat
  let f := flightOf core
  match c.op, tget s.arr.turn core with
  | .mringcfg, some t =>
    let b := c.b.toNat
    (0, s.setTurn core { t with rings := tset t.rings a ⟨bits b 0 21, bits b 32 22, 0, 0⟩ })
  | .mringadv, some t =>
    (0, match tget t.rings (a % 8) with
      | some r => s.setTurn core { t with rings := tset t.rings (a % 8) { r with tail := r.tail + bits a 16 32 } }
      | none => s)
  | .mzero, some _ => (0, s.setArr (s.arr.zeroTiles f a))
  | .mldprog, some t => (0, s.setTurn core { t with prog := some r.prog })
  | .maccrd i, some _ =>
    match s.spad c.barge c.b c.rBytes with
    | none => (6, s)
    | some (k, off) =>
      let bs := s.arr.readBlock f c i
      (0, s.updB k (fun b =>
        let b := b.writeWin off bs
        if c.rFull then b.setFulls off bs.length true else b))
  | .maccwr, some _ =>
    let b := s.barge c.barge
    let r := s.arr.writeBlock f c b (tgetD {} b.tileTab (c.b.toNat % 64))
    (if r.2 then 7 else 0, s.setArr r.1)
  | .mma _, some t => let r := s.arr.multiply f core c t; (if r.2.2 then 7 else 0, (s.setArr r.1).setTurn core r.2.1)
  | .mmax, some t => let r := s.arr.multiply f core c t; (if r.2.2 then 7 else 0, (s.setArr r.1).setTurn core r.2.1)
  | .mrec, some t => let r := s.arr.multiply f core c t; (if r.2.2 then 7 else 0, (s.setArr r.1).setTurn core r.2.1)
  | _, _ => (0, s)

/-- Can the running command of a flight complete? A granted `MTEND` completes with its release (R243). -/
def State.matrixDone (s : State) (f : Nat) : Option MRun :=
  match tget s.arr.running f with
  | none => none
  | some r => if r.m.cmd.op = .mtend ∧ r.status = 0 then none else some r

/-- The running command of a flight completes (R231, R241): its effect, its number; whatever its status, a drain
command's entry is empty (R250). -/
def State.matrixComplete (s : State) (f : Nat) : State :=
  match s.matrixDone f with
  | none => s
  | some r =>
    let c := r.m.cmd
    let e := if r.status = 0 then s.matrixEffect r else (r.status, s)
    let s := e.2
    let s := s.setArr { s.arr with running := tdel s.arr.running f }
    let s := if c.op = .maccwr then s.updB c.barge (fun b => { b with tileTab := tdel b.tileTab (c.b.toNat % 64) }) else s
    ((s.refusal c.ctx e.1).finish (tlKey 1 r.core) r.m.n e.1).reap

/-- Is a sluice command that began with a ring destination in a turn's window in progress (R232)? -/
def State.ringBusy (s : State) (f : Nat) (t : Turn) : Bool :=
  (tgetD [] s.slu.cmds f).any (fun c => c.begun && c.cmd.dsp == 2 &&
    c.cmd.dstRanges.any (fun r => overlaps r.1 r.2 (t.wbase * 65536) (t.wsize * 65536)))

/-- Is a command one of the array's (R240)? -/
def Op.isMatrix : Op → Bool
  | .mturn => true | .mtend => true | .mringcfg => true | .mringadv => true | .mzero => true | .mma _ => true | .mmax => true
  | .mrec => true | .mldprog => true | .maccrd _ => true | .maccwr => true | _ => false

/-- Is a matrix command of a barge's committed regions not finished, in any array or on its way there? -/
def State.matrixPending (s : State) (bid : Nat) : Bool :=
  s.lateCmds.any (fun c => c.barge == bid && c.op.isMatrix) ||
  s.arr.queue.any (fun e => e.2.any (fun m => m.cmd.barge == bid)) || s.arr.running.any (fun e => e.2.m.cmd.barge == bid)

/-- Is a turn at its end (R232): its `MTEND` has begun, or its holder has ended and every matrix command of its regions
has completed? -/
def State.turnEnding (s : State) (t : Turn) : Bool :=
  t.ending.isSome || ((s.barge? t.holder).all (fun b => b.st == .ended) && !s.matrixPending t.holder)

/-- May the array release the turn of a core now? -/
def State.turnReady (s : State) (core : Nat) : Bool :=
  match tget s.arr.turn core with
  | none => false
  | some t => s.turnEnding t && !s.ringBusy (flightOf core) t

/-- The turn of a core ends (R232): its tiles and window are zero, the claim is released, an `MTEND` completes. -/
def State.releaseTurn (s : State) (core : Nat) : State :=
  match tget s.arr.turn core with
  | none => s
  | some t =>
    if s.turnReady core then
      let f := flightOf core
      let a := s.arr.zeroTiles f t.tiles
      let a := { a with
        ring := clearRange a.ring (ringKey f (t.wbase * 65536)) (t.wsize * 65536)
        rpoison := clearRange a.rpoison (rpKey f (t.wbase * 65536)) (t.wsize * 1024)
        turn := tdel a.turn core }
      match t.ending with
      | some n =>
        ((s.setArr { a with running := tdel a.running f }).finish (tlKey 1 core) n 0).reap
      | none => s.setArr a
    else s

/-! ## The array's own steps -/

/-- `MATRIX_COMMAND_BEGIN` (R231). -/
def execMatrixCommandBegin (flight : Nat) (s : State) : Out := .next (s.matrixBegin flight)
/-- `MATRIX_COMMAND_COMPLETE` (R241). -/
def execMatrixCommandComplete (flight : Nat) (s : State) : Out := .next (s.matrixComplete flight)
/-- `TURN_RELEASE` (R232). -/
def execTurnRelease (core : Nat) (s : State) : Out := .next (s.releaseTurn core)

end Sys2Proof.Machine
end

