-- ==== Sys2Proof/Machine/Sluice.lean ====
section
/-! DEFINITION. The sluice (12_sluice R203 to R224, 21_host R368, R370): its words as commands, `SQSTAT`, and the steps that
begin a command, complete it or time it out. A command reads and writes at its completion (notes/assumptions/8.md). -/

namespace Sys2Proof.Machine

/-! ## The words (R206) -/

/-- The timeline of queue `q` on the flight of the issuing barge (R203). -/
def WCtx.queueKey (c : WCtx) (q : Nat) : Nat := tlKey 0 (flightOf c.b.core * 16 + q)

/-- A word that takes a descriptor (R204, R206). -/
def descWord (s : State) (st : Bool) (op : Op) (d a q : Nat) : Out :=
  issue s st (fun c =>
    match c.descriptor (c.x a) with
    | .error w => .exc w
    | .ok ws => c.command op d (c.queueKey q) (c.x a) 0 ws)

/-- `SCOPY` (R207). -/
def execScopy (st : Bool) (d a q : Nat) (s : State) : Out := descWord s st .scopy d a q
/-- `SCOPY2D` (R207). -/
def execScopy2d (st : Bool) (d a q : Nat) (s : State) : Out := descWord s st .scopy2d d a q
/-- `SFILL` (R207). -/
def execSfill (st : Bool) (d a q : Nat) (s : State) : Out := descWord s st .sfill d a q
/-- `SCVT` (R208). -/
def execScvt (st : Bool) (d a q : Nat) (s : State) : Out := descWord s st .scvt d a q
/-- `SHINT` (R209). -/
def execShint (st : Bool) (d a q : Nat) (s : State) : Out := descWord s st .shint d a q
/-- `SQCFG` (R213). -/
def execSqcfg (st : Bool) (d a q : Nat) (s : State) : Out := issue s st (fun c => c.command .sqcfg d (c.queueKey q) (c.x a) 0)
/-- `SQRST` (R214). -/
def execSqrst (st : Bool) (d q : Nat) (s : State) : Out := issue s st (fun c => c.command .sqrst d (c.queueKey q) 0 0)

/-- The word of `SQSTAT` for number `n` on a queue (R212); 15 where the context may not read it. DESIGN CHOICE: DONE has 40 bits, and
a longer count shows its low 40 (notes/assumptions/26.md). -/
def State.sqWord (s : State) (ctx index n : Nat) : Word :=
  let e : Ended := if s.mayWait ctx 0 index n then (s.tl (tlKey 0 index)).status n else ⟨n, 15, 0, 0⟩
  BitVec.ofNat 64 (min e.pgran 255 * 2 ^ 48 + e.code * 2 ^ 44 + e.done % 2 ^ 40)

/-- `SQSTAT` on a queue of the flight (R212). -/
def execSqstat (st : Bool) (d a q : Nat) (s : State) : Out :=
  issue s st (fun c => scalarOut d (c.s.sqWord c.b.ctx (flightOf c.b.core * 16 + q) (c.x a).toNat))
/-- `SQSTAT` on a named queue (R212). -/
def execSqstatNamed (st : Bool) (d a b : Nat) (s : State) : Out :=
  issue s st (fun c =>
    let v := (c.x b).toNat
    scalarOut d (if v < 2560 then c.s.sqWord c.b.ctx v (c.x a).toNat else BitVec.ofNat 64 (15 * 2 ^ 44)))

/-! ## Ranges (R216, R233, R368) -/

/-- A piece of a command's range: global memory (0), a window (1) or ring memory (2); a page that fails (3), or one of a peer
window that no command reaches now (4), at its physical address. `node` is the mapping record that translates it, `va` the address
that the command gives it. -/
structure Piece where
  kind : Nat
  id : Nat
  addr : Nat
  len : Nat
  vc : Nat := 0
  node : Nat := 0
  va : Nat := 0
  deriving DecidableEq, Repr

/-- A range cut at multiples of `z`. -/
def rangeCut (z a n : Nat) : List (Nat × Nat) :=
  if n = 0 then []
  else (List.range ((a + n - 1) / z + 1 - a / z)).map (fun i =>
    let lo := max a ((a / z + i) * z)
    (lo, min (a + n) ((a / z + i + 1) * z) - lo))

/-- A range cut at pages. -/
def rangePages (a n : Nat) : List (Nat × Nat) := rangeCut 4096 a n

/-- A peer window that is enabled and not isolated (R368, R371). -/
def State.peerOk (s : State) (j : Nat) : Bool := (tgetD {} s.lnk.peers j).en && !tgetD false s.slu.isolated (0x200 + j)

/-- The translation cache of a sluice (R310). -/
def slParty (f : Nat) : Nat := 640 + f

/-- One page of a global range as a party translates it: a piece, and the status of its failure, 0 for none. `need` is the
right asked for, if any. DEDUCED: a page on an isolated target, or of a peer that no command reaches now, gives ISOLATED even
where its mapping lacks the right: R215 lets the higher of the two stand (notes/assumptions/26.md). -/
def State.slPage (s : State) (party ctx va len : Nat) (need : Option Right) : Piece × Nat :=
  let bad : Piece := ⟨3, 0, 0, len, 0, 0, va⟩
  if 2 ^ 48 ≤ va then (bad, 3)
  else
    match s.translateAt party ctx va with
    | none => (bad, 3)
    | some (k, n, pa) =>
      let ok := need.all n.has && s.directOk pa
      match peerOf pa with
      | some j => if !s.peerOk j then (⟨4, 0, pa, len, 0, k, va⟩, 7) else if ok then (⟨0, 0, pa, len, 0, k, va⟩, 0) else (bad, 3)
      | none =>
        let st := if s.isIsolated pa then 7 else if ok then 0 else 3
        (if ok then ⟨0, 0, pa, len, s.servedBy n.ctx n.vcid pa, k, va⟩ else bad, st)

/-- One piece of a scratchpad range within a member's 1 MiB (R76, R101). -/
def State.spPiece (s : State) (bid a n : Nat) : Option Piece :=
  (s.spad bid (BitVec.ofNat 64 a) n).map (fun e => ⟨1, e.1, e.2, n, 0, 0, a⟩)

/-- The pieces of a range in a space (0 global, 1 scratchpad, 2 ring), and the statuses of what fails (R216, R233). Of a scratchpad
range that runs on into the next member's window every byte is checked in its own. `SHINT` skips peer pages without a status
(R368). DESIGN CHOICE: a scratchpad address with a bit of 63:24 set, or a ring address with one of 63:21, which R205 says are zero, is
out of bounds (R215), not REFUSED as R248 has it for its own operand (notes/assumptions/26.md). -/
def State.slRange (s : State) (f : Nat) (c : Cmd) (space : Nat) (need : Option Right) (r : Nat × Nat) : List Piece × List Nat :=
  let bad : List Piece × List Nat := ([⟨3, 0, 0, r.2, 0, 0, r.1⟩], [4])
  if r.2 = 0 then ([], [])
  else
    match space with
    | 0 =>
      let l := (rangePages r.1 r.2).map (fun p => s.slPage (slParty f) c.ctx p.1 p.2 need)
      (l.map (·.1), ((l.filter (fun e => c.op != .shint || e.1.kind != 4)).map (·.2)).filter (fun n => n != 0))
    | 1 =>
      if 2 ^ 24 < r.1 + r.2 then bad
      else
        let l := (rangeCut (2 ^ 20) r.1 r.2).map (fun x => s.spPiece c.barge x.1 x.2)
        if l.all Option.isSome then (l.filterMap id, []) else bad
    | _ =>
      match s.turnHeld c.barge with
      | some (core, t) =>
        if flightOf core = flightOf c.core ∧ t.wbase * 65536 ≤ r.1 ∧ r.1 + r.2 ≤ (t.wbase + t.wsize) * 65536 then
          ([⟨2, flightOf core, r.1, r.2, 0, 0, r.1⟩], [])
        else bad
      | none => bad

/-- What a command's ranges resolve to: a list of pieces per range, and the failures. -/
structure Resolved where
  src : List (List Piece)
  dst : List (List Piece)
  fails : List Nat
  deriving DecidableEq, Repr

/-- DESIGN CHOICE: a page of a `SHINT`'s range needs a mapping and no right, R209 naming none (notes/assumptions/26.md). -/
def State.resolve (s : State) (f : Nat) (c : Cmd) : Resolved :=
  let need : Option Right := if c.op = .shint then none else some .r
  let a := c.srcRanges.map (s.slRange f c c.ssp need)
  let b := c.dstRanges.map (s.slRange f c c.dsp (some .w))
  { src := a.map (·.1), dst := b.map (·.1), fails := a.flatMap (·.2) ++ b.flatMap (·.2) }

/-- The pieces of a command's ranges. -/
def Resolved.all (r : Resolved) : List Piece := r.src.flatten ++ r.dst.flatten

/-- The peer whose window holds a piece. -/
def Piece.peer (p : Piece) : Option Nat := if p.kind = 0 ∨ p.kind = 4 then peerOf p.addr else none

/-- The highest status of R215 among failures; 0 for none. -/
def topStatus (l : List Nat) : Nat := (([2, 7, 6, 3, 4, 5] : List Nat).find? (fun x => l.contains x)).getD 0

/-- The rules of R370: both sides in peer windows, a side that leaves one window, a ring destination, or NOTE with a
destination outside a peer window. A page that does not translate lies in none. -/
def linkBad (c : Cmd) (r : Resolved) : Bool :=
  let here (l : List Piece) : List Piece := l.filter (fun p => p.kind != 3)
  let ps := here r.src.flatten
  let pd := here r.dst.flatten
  let far (l : List Piece) : Bool := l.any (fun p => p.peer.isSome)
  let split (l : List Piece) : Bool := far l && !(match l with | [] => true | p :: q => q.all (fun x => x.peer == p.peer))
  c.op != .shint && ((far ps && far pd) || split ps || split pd || (far ps && c.dsp == 2) ||
    (c.note && !(pd.all (fun p => p.peer.isSome))))

/-- The peer of a link command (R370). -/
def linkPeer (c : Cmd) (r : Resolved) : Option Nat := if c.op = .shint then none else r.all.findSome? Piece.peer

/-- The status that a command's checks give (R215): 0 where nothing fails. -/
def State.slVerdict (s : State) (sc : SCmd) (r : Resolved) : Nat :=
  if sc.refused || s.descRefused sc.cmd || linkBad sc.cmd r then 2 else topStatus r.fails

/-! ## Data (R207, R208, R217) -/

/-- A byte and whether it comes from a poisoned granule. -/
abbrev PByte := Byte × Bool

/-- Is any word of the 64-byte granule at a window offset poisoned? DESIGN CHOICE: a source granule of which some words are still
poisoned counts as poisoned whole (R217 speaks of granules, R149 of words; notes/assumptions/26.md). -/
def Barge.granPoison (b : Barge) (off : Nat) : Bool := (List.range 8).any (fun i => tgetD false b.spPoison (off / 64 * 8 + i))

/-- Does a piece lie in this module's memory, behind no peer? -/
def Piece.here (p : Piece) : Bool := p.kind == 0 && p.peer.isNone

/-- The bytes of a source piece; those of a peer are a free value, under a key, until its answer. -/
def State.slRead (s : State) (key : List Nat) (p : Piece) : List PByte :=
  if p.peer.isSome then (List.range p.len).map (fun i => (Config.peerByte key (p.va + i), false))
  else if p.kind = 0 then
    let d := s.homeDie p.vc p.addr
    (s.bytesAt d p.addr p.len).zipIdx.map (fun e => (e.1, s.poisonedAt d (p.addr + e.2)))
  else if 3 ≤ p.kind then List.replicate p.len (0, false)
  else
    let b := s.barge p.id
    (readTab b.window p.addr p.len).zipIdx.map (fun e => (e.1, b.granPoison (p.addr + e.2)))

/-- The bytes of a `SFILL` (R207). -/
def fillBytes (c : Cmd) : List PByte :=
  (List.range c.len).map (fun i => (BitVec.ofNat 8 (bits c.aux0 (8 * (i % 8)) 8), false))

/-- One block of a `SCVT` (R208, R217): `cnt` elements from their bytes and their scale byte; the element bytes and the
scale of the result. -/
def cvtBlock (c : Cmd) (cnt : Nat) (src : List PByte) (sc : Option PByte) : List PByte × PByte :=
  let ws := tyWidth c.stype
  let wd := tyWidth c.dtype
  let bad := src.any (·.2) || (match sc with | some b => b.2 | none => false)
  let x := leNum (src.map (·.1))
  let code (j : Nat) : Nat := bits x (j * ws) ws
  let val (j : Nat) : FVal :=
    match sc with
    | some b => scaleVal (tyVal c.stype (code j)) b.1.toNat
    | none => tyVal c.stype (code j)
  let e := if c.dbs then blockScale ((List.range cnt).map val) c.dtype else 127
  let out (j : Nat) : Nat :=
    if c.dbs then
      (if e = 255 then 0
       else match val j with
         | .fin n m k => encodeVal (.fin n m (k - ((e : Int) - 127))) c.dtype c.rm
         | v => encodeVal v c.dtype c.rm)
    else if c.sbs then encodeVal (val j) c.dtype c.rm
    else (convert c.stype (code j) c.dtype c.rm).code
  let num := if bad then 0 else ((List.range cnt).map (fun j => out j % 2 ^ wd * 2 ^ (j * wd))).sum
  ((leBytes (cnt * wd / 8) num).map (fun b => (b, bad)), (BitVec.ofNat 8 e, false))

/-- A `SCVT` from its source bytes and scales (R208): elements, then scales where DBS is set. -/
def cvtBytes (c : Cmd) (src scales : List PByte) : List (List PByte) :=
  let ws := tyWidth c.stype
  let blocks := (List.range ((c.len + 31) / 32)).map (fun k =>
    cvtBlock c (min 32 (c.len - 32 * k)) ((src.drop (4 * ws * k)).take (4 * ws))
      (if c.sbs then scales[k]? else none))
  blocks.flatMap (·.1) :: (if c.dbs then [blocks.map (·.2)] else [])

/-- What a command writes, a list of bytes per destination range, from the bytes of its source ranges. -/
def Cmd.outputs (c : Cmd) (src : List (List PByte)) : List (List PByte) :=
  match c.op with
  | .sfill => [fillBytes c]
  | .scvt => cvtBytes c (src.getD 0 []) (src.getD 1 [])
  | .shint => []
  | _ => src

/-! ## Writing (R205, R210, R216, R217) -/

/-- Lay bytes over pieces in order. -/
def placeBytes {α : Type} : List Piece → List α → List (Piece × List α)
  | [], _ => []
  | p :: ps, bs => (p, bs.take p.len) :: placeBytes ps (bs.drop p.len)

/-- Allocate the lines of a range in the virtual cache that serves it, whatever its policy (R209, R210). -/
def State.warm (s : State) (vc pa n : Nat) : State :=
  if vc = 0 then s else (granules pa n).foldl (fun s g => s.touchLine (vc - 1) (64 * g) false false true) s

/-- Drop the lines that hold a byte of a range, a dirty one written back first (R209). -/
def State.cool (s : State) (vc pa n : Nat) : State :=
  match (if vc = 0 then none else tget s.com.vc (vc - 1)) with
  | none => s
  | some v => s.setLines (s.com.lines.filter (fun e => !(e.1 / 2 ^ 46 + 1 == vc && overlaps (lineAddr e.1) v.line pa n)))

/-- Write a piece: poisoned bytes of a window or a ring are written as zero. `fe` says that FEDST acts on it. -/
def State.slWrite (s : State) (c : Cmd) (fe : Bool) (p : Piece) (bs : List PByte) : State :=
  let raw := bs.map (·.1)
  let zeroed := bs.map (fun b => if b.2 then (0 : Byte) else b.1)
  if p.kind = 0 then
    if raw.isEmpty || s.homeStopped p.vc p.addr then s
    else
      let s := s.touchWrite (if c.tier = 2 then 0 else p.vc) p.addr raw.length
      let s := if c.tier = 1 then s.warm p.vc p.addr raw.length else s
      s.putMem p.addr raw
  else if p.kind = 1 then
    s.updB p.id (fun b =>
      let b := b.writeWin p.addr zeroed
      if fe && c.fedst != 0 then b.setFulls p.addr zeroed.length (c.fedst == 1) else b)
  else if p.kind = 2 then s.setArr { s.arr with ring := writeTab s.arr.ring (ringKey p.id p.addr) zeroed }
  else s

/-- Do the pieces cover every byte of `[a, a + n)` of a kind and id? -/
def covers (ps : List Piece) (kind id a n : Nat) : Bool :=
  (List.range n).all (fun i => ps.any (fun p => p.kind == kind && p.id == id && decide (p.addr ≤ a + i) && decide (a + i < p.addr + p.len)))

/-- A command's writes clear the poison of what they cover whole (R149, R217). -/
def State.unpoison (s : State) (ps : List Piece) : State :=
  let s := s.setPoison (s.mem.poison.filter (fun e => !covers ps 0 0 (64 * e.1) 64))
  let s := s.setArr { s.arr with
    rpoison := s.arr.rpoison.filter (fun e => !covers ps 2 (e.1 / 2 ^ 15) (e.1 % 2 ^ 15 * 64) 64) }
  ((ps.filter (fun p => p.kind == 1)).map (·.id)).eraseDups.foldl (fun s m =>
    s.updB m (fun b => { b with spPoison := b.spPoison.filter (fun e => !covers ps 1 m (8 * e.1) 8) })) s

/-- The granules that receive a poisoned byte, by kind, id and number. DEDUCED: of rows that overlap each counts, though a later one
overwrites the byte (R217, R207; notes/assumptions/26.md). -/
def badGrans (w : List (Piece × List PByte)) : List (Nat × Nat × Nat) :=
  (w.flatMap (fun e => (e.2.zipIdx.filter (·.1.2)).map (fun b => (e.1.kind, e.1.id, (e.1.addr + b.2) / 64)))).eraseDups

/-- Mark a granule poisoned (R217). -/
def State.markGran (s : State) (g : Nat × Nat × Nat) : State :=
  if g.1 = 0 then s.poisonRange (64 * g.2.2) 64
  else if g.1 = 1 then s.updB g.2.1 (fun b => { b with spPoison := fillTab false b.spPoison (8 * g.2.2) 8 true })
  else s.setArr { s.arr with rpoison := tput false s.arr.rpoison (g.2.1 * 2 ^ 15 + g.2.2) true }

/-- Write a list of pieces per destination range: the new state and the number of granules poisoned. DESIGN CHOICE: the scale bytes
of a `SCVT`, its second range, are written after its elements, which shows where the two overlap (R208 gives no order;
notes/assumptions/26.md). -/
def State.deliver2 (s : State) (c : Cmd) (w : List (List (Piece × List PByte))) : State × Nat :=
  let s := w.zipIdx.foldl (fun s e =>
    let fe := c.op != .scvt || e.2 == 0
    e.1.foldl (fun s x => s.slWrite c fe x.1 x.2) s) s
  let s := s.unpoison ((w.flatten.filter (fun e => !e.2.isEmpty)).map (·.1))
  let bad := badGrans w.flatten
  (bad.foldl State.markGran s, bad.length)

/-- Deliver a command's bytes to its destination pieces. -/
def State.deliverBytes (s : State) (c : Cmd) (dst : List (List Piece)) (out : List (List PByte)) : State × Nat :=
  s.deliver2 c (List.zipWith placeBytes dst out)

/-! ## A command that ends early (R215, R218)

Each byte of its destination holds its old value or the new one, each aligned 8-byte word whole (R222). -/

/-- Which bytes that a command would write come from bytes that it did not read. -/
def Cmd.missing (c : Cmd) (src : List (List Bool)) : List (List Bool) :=
  match c.op with
  | .sfill => [List.replicate c.len false]
  | .scvt =>
    let blocks := (List.range ((c.len + 31) / 32)).map (fun k =>
      (((src.getD 0 []).drop (4 * tyWidth c.stype * k)).take (4 * tyWidth c.stype)).any id || (src.getD 1 []).getD k false)
    (blocks.zipIdx.flatMap (fun b => List.replicate (min 32 (c.len - 32 * b.2) * tyWidth c.dtype / 8) b.1)) ::
      (if c.dbs then [blocks] else [])
  | _ => src

/-- Is the byte at an index one of a destination word all of whose bytes are kept? -/
def wholeWord (addr : Nat) (keep : List Bool) (i : Nat) : Bool :=
  (List.range 8).all (fun k =>
    let a := (addr + i) / 8 * 8 + k
    decide (a < addr) || keep.getD (a - addr) true)

/-- The pieces of the kept bytes of a piece, from index `i`. -/
def keptRuns (p : Piece) : Nat → List (PByte × Bool) → List (Piece × List PByte)
  | _, [] => []
  | i, (b, keep) :: r =>
    let rest := keptRuns p (i + 1) r
    if !keep then rest
    else
      match rest with
      | (q, bs) :: t =>
        if q.addr = p.addr + i + 1 then ({ q with addr := p.addr + i, len := q.len + 1, va := p.va + i }, b :: bs) :: t
        else ({ p with addr := p.addr + i, len := 1, va := p.va + i }, [b]) :: rest
      | [] => [({ p with addr := p.addr + i, len := 1, va := p.va + i }, [b])]

/-- What a command that ends early has written, from the bytes of its source: of the words whose source it read, those that
`keep` picks by piece and index. The new state, the granules poisoned here, the bytes written here and at a peer. -/
def State.deliverPart (s : State) (c : Cmd) (r : Resolved) (src : List (List PByte)) (unread keep : Piece → Nat → Bool) :
    State × Nat × Nat :=
  let miss := c.missing (r.src.map (fun ps => ps.flatMap (fun p =>
    (List.range p.len).map (fun i => p.kind == 3 || unread p i))))
  let w := (List.zip r.dst (List.zip (c.outputs src) miss)).map (fun e =>
    (placeBytes e.1 (List.zip e.2.1 e.2.2)).flatMap (fun x =>
      if x.1.kind = 3 then []
      else
        let k := x.2.zipIdx.map (fun b => !b.1.2 && keep x.1 b.2)
        keptRuns x.1 0 (x.2.zipIdx.map (fun b => (b.1.1, wholeWord x.1.addr k b.2)))))
  let d := s.deliver2 c (w.map (fun l => l.filter (fun x => x.1.peer.isNone)))
  (d.1, d.2, (w.flatten.map (fun e => e.2.length)).sum)

/-- Has a byte's word been written, where the spec leaves that open (R215)? By the address that the command gives it, which R6 has in
the launch. -/
def partOf (key : List Nat) (p : Piece) (i : Nat) : Bool := Config.partWord key ((p.va + i) / 8)

/-- The key of what a command that ends early with a status leaves open. XLATE falls within R7 (R215): its key is the issuer's
record, the command's place among the issuer's and its descriptor, which every run has alike (notes/assumptions/26.md). -/
def State.partKey (s : State) (c : Cmd) (code : Nat) : List Nat :=
  if code = 3 then [c.ctx, (s.barge c.barge).recVa, c.ord] ++ c.args.map (·.toNat) else [s.fresh]

/-! ## Choosing the next command (R203, R224) -/

/-- The first command of a queue, in order of acceptance, that can begin: one with AFTER waits for every lower number, one that
`held` picks for what its core released before it (R180), and each holds back what it does not wait for. -/
def slNext (held : SCmd → Bool) (completed q : Nat) : List SCmd → Option Nat → Option SCmd
  | [], _ => none
  | c :: r, top =>
    if c.q != q || c.begun then slNext held completed q r top
    else
      let free := match top with | none => true | some t => decide (c.n < t)
      if free && (!c.cmd.after || decide (c.n ≤ completed + 1)) && !held c then some c
      else slNext held completed q r (some (match top with | none => c.n | some t => min t c.n))

def State.slNextOf (s : State) (f q : Nat) : Option SCmd :=
  slNext (fun c => s.coreWaits c.cmd.barge c.cmd.core) (s.tl (tlKey 0 (f * 16 + q))).completed q (tgetD [] s.slu.cmds f) none

/-- The queue that the round-robin serves next, where a command of it can begin and fewer than 64 are in progress. -/
def State.slPick (s : State) (f : Nat) : Option Nat :=
  let l := tgetD [] s.slu.cmds f
  if 64 ≤ (l.filter (fun c => c.begun)).length then none
  else
    let last := tgetD 15 s.slu.last f
    let ready (q : Nat) : Bool := (s.slNextOf f q).isSome
    if decide (0 < tgetD 0 s.slu.credit f) && ready last then some last
    else ((List.range 16).map (fun k => (last + 1 + k) % 16)).find? ready

/-! ## Begin, completion and time-out -/

/-- Replace a command of a sluice. -/
def State.updSc (s : State) (f q n : Nat) (g : SCmd → SCmd) : State :=
  s.setSluice f ((tgetD [] s.slu.cmds f).map (fun c => if c.q = q ∧ c.n = n then g c else c))

def State.findSc (s : State) (f q n : Nat) : Option SCmd :=
  (tgetD [] s.slu.cmds f).find? (fun c => c.q == q && c.n == n)

/-- Offset of a physical address in its peer window (R349). -/
def peerOff (pa : Nat) : Nat := (pa - 0x500000000000) % 2 ^ 40

/-- The bytes of a command's source ranges. -/
def State.slSource (s : State) (key : List Nat) (r : Resolved) : List (List PByte) :=
  r.src.map (fun ps => ps.flatMap (s.slRead key))

/-- The reads of pieces reach their homes, where they touch the lines as loads do (R263, R274). -/
def State.slTouch (s : State) (ps : List Piece) : State :=
  ps.foldl (fun s p => if p.here && !s.isIsolated p.addr then s.touchRead p.vc p.addr p.len else s) s

/-- Does a link command read from its peer? -/
def Resolved.pulls (r : Resolved) : Bool := r.src.flatten.any (fun p => p.peer.isSome)

/-- Send the requests of a link command (R370): reads for a source in the window; writes, with their bytes, for a destination
in it, the last with the words of the notification. -/
def State.sendLink (s : State) (f : Nat) (sc : SCmd) (j : Nat) (r : Resolved) : State :=
  let c := sc.cmd
  let key := tlKey 0 (f * 16 + sc.q)
  let reqs : List LinkReq :=
    if r.pulls then
      (r.src.flatten.filter (fun p => p.peer.isSome)).map (fun p =>
        { peer := j, key := key, n := sc.n, off := peerOff p.addr, len := p.len })
    else
      let w := (List.zipWith placeBytes r.dst (c.outputs (s.slSource [s.fresh] r))).flatten
      let st := if w.any (fun e => e.2.any (·.2)) then 5 else 0
      let first := match w with | e :: _ => peerOff e.1.addr | [] => 0
      let note : List Word :=
        [BitVec.ofNat 64 s.lnk.mid, BitVec.ofNat 64 first, BitVec.ofNat 64 c.delivered, BitVec.ofNat 64 st, 0, 0]
      w.zipIdx.map (fun e =>
        { peer := j, key := key, n := sc.n, off := peerOff e.1.1.addr, len := e.1.1.len, bytes := e.1.2.map (·.1)
          bad := (e.1.2.zipIdx.filter (·.1.2)).map (·.2)
          note := if c.note && e.2 + 1 == w.length then some note else none })
  let s : State := { (s.slTouch r.src.flatten) with lnk := { s.lnk with out := s.lnk.out ++ reqs } }
  s.updSc f sc.q sc.n (fun c => { c with sent := true, sentAt := s.cycle })

/-- The key under which a command's accesses wait for leased granules (R163), apart from those of barges. -/
def SCmd.waitKey (f : Nat) (c : SCmd) : Nat := 2 ^ 64 + tlKey 0 (f * 16 + c.q) * 2 ^ 48 + c.n

/-- The granules of a command that a lease, or an earlier request for them, holds back (R163). -/
def State.slWaits (s : State) (f : Nat) (sc : SCmd) (r : Resolved) : List Nat :=
  if sc.cmd.op = .shint then [] else (r.all.filter Piece.here).flatMap (fun p => s.blockedIn (sc.waitKey f) p.addr p.len)

/-- May a command go on: nothing holds its accesses back, or it has yet to queue behind what does (R163)? -/
def State.slArrives (s : State) (f : Nat) (sc : SCmd) (w : List Nat) : Bool := w.isEmpty || s.requeues (sc.waitKey f) w

/-- The target that leaves a read of a source byte unanswered, an isolated one apart (R218, R359). -/
def State.slHang (s : State) (p : Piece) (i : Nat) : Option Nat :=
  if p.here && !s.isIsolated p.addr then s.stalled p.vc (p.addr + i) 1 else none

/-- The target that leaves a read of a command unanswered. -/
def State.slStalled (s : State) (r : Resolved) : Option Nat := r.src.flatten.findSome? (fun p => s.slHang p (p.len - 1))

/-- Does a command read or write memory: of the hints, `WARM` alone reads (R209). -/
def Cmd.accesses (c : Cmd) : Bool := c.op != .shint || c.tier == 1

/-- A command that its checks at begin end with nothing written (R215). -/
def SCmd.untouched (c : SCmd) : Bool := c.verdict == 2 || c.verdict == 4 || c.verdict == 7

/-- Is the next act of a link command to send its requests? A link write reads its source first. -/
def State.slSends (s : State) (f : Nat) (sc : SCmd) (r : Resolved) : Bool :=
  sc.peer.isSome && !sc.sent && topStatus r.fails == 0 &&
    (r.pulls || ((s.slWaits f sc r).isEmpty && (s.slStalled r).isNone))

/-- The next command of a queue begins (R203, R180, R216): the effects before it are performed at .M, its ranges are
translated and checked, and a link command sends its requests if it can. DESIGN CHOICE: R180 and R222 order what its issuer has
released and seen; the model performs at .M what every core has released (notes/assumptions/6.md). -/
def State.slBegin (s : State) (f q : Nat) : State :=
  match s.slNextOf f q with
  | none => s
  | some sc =>
    let s := s.drainAll
    let cr := tgetD 0 s.slu.credit f
    let w := (tgetD {} s.slu.cfg (f * 16 + q)).weight
    let same := tgetD 15 s.slu.last f == q && decide (0 < cr)
    let s := { s with slu := { s.slu with
      last := tput 15 s.slu.last f q, credit := tput 0 s.slu.credit f (if same then cr - 1 else w - 1) } }
    let r := s.resolve f sc.cmd
    let v := s.slVerdict sc r
    let peer := if v = 0 then linkPeer sc.cmd r else none
    let s := (s.updSc f q sc.n (fun c => { c with begun := true, start := s.cycle, verdict := v, peer := peer })).fill (slParty f)
      ((r.all.filter (fun p => p.kind == 0)).map (·.node))
    match peer with
    | none => s
    | some j => if s.slSends f { sc with peer := peer } r then s.sendLink f { sc with peer := peer } j r else s

/-- A command completes (R215, R221, R211): its barrier, its tile entry, its number. -/
def State.slFinish (s : State) (f : Nat) (sc : SCmd) (code pgran done : Nat) : State :=
  let c := sc.cmd
  let s := s.setSluice f ((tgetD [] s.slu.cmds f).filter (fun x => !(x.q == sc.q && x.n == sc.n)))
  let s := match s.cmdBar c with
    | some (m, off) => s.updB m (fun b => b.barChange off none c.delivered)
    | none => s
  let s := if sc.counted then
      s.updB c.barge (fun b =>
        let t := tgetD {} b.tileTab c.tile
        let t := { t with filled := t.filled + 1 }
        let t := if t.st = .filling ∧ t.filled = t.fills then { t with st := .ready } else t
        { b with tileTab := tput {} b.tileTab c.tile t })
    else s
  let s := (s.unqueue (sc.waitKey f)).serveLeaseQ
  (((s.count c.ctx 3 done).refusal c.ctx code).finish (tlKey 0 (f * 16 + sc.q)) sc.n code pgran done).reap

/-- A link command that has sent nothing when its peer is isolated, or a byte of it no longer translates: it touches nothing
(R219). -/
def SCmd.unsent (c : SCmd) (r : Resolved) : Bool := c.peer.isSome && !c.sent && topStatus r.fails != 0

/-- Does a command that began do nothing more than end: its checks at begin end it, or all its accesses can be performed? -/
def State.slReady (s : State) (f : Nat) (sc : SCmd) (r : Resolved) : Bool :=
  sc.begun && (sc.untouched || sc.unsent r || ((sc.peer.isNone || sc.resp.isSome) &&
    (topStatus r.fails == 7 || !sc.cmd.accesses || (s.slStalled r).isNone) && s.slArrives f sc (s.slWaits f sc r)))

/-- Can a command that began take a step (SLUICE_COMMAND_COMPLETE)? -/
def State.slDone (s : State) (f : Nat) (sc : SCmd) : Bool :=
  let r := s.resolve f sc.cmd
  sc.begun && (s.slSends f sc r || s.slReady f sc r)

/-- Apply a hint to the lines of a range (R209). -/
def State.hint (s : State) (c : Cmd) (r : Resolved) : State :=
  r.src.flatten.foldl (fun s p =>
    if !p.here then s
    else if c.tier = 1 then s.warm p.vc p.addr p.len
    else if c.tier = 2 then s.cool p.vc p.addr p.len
    else s) s

/-- The bytes of source ranges in a peer window, from what the peer returned (R370); poisoned too where the window's granule has
been given an error (R359). -/
def State.farBytes (s : State) : List (List Piece) → List PByte → List (List PByte)
  | [], _ => []
  | ps :: r, bs =>
    (placeBytes ps bs).flatMap (fun e => e.2.zipIdx.map (fun b => (b.1.1, b.1.2 || s.poisonedAt (memHomeDie s (e.1.addr + b.2)) (e.1.addr + b.2)))) ::
      s.farBytes r (bs.drop ((ps.map (·.len)).sum))

/-- A command ends with some words written that the spec does not name (R215: ISOLATED after its begin, XLATE). -/
def State.slPartly (s : State) (f : Nat) (sc : SCmd) (code : Nat) (r : Resolved) (src : List (List PByte)) : State :=
  let d := (s.slTouch r.src.flatten).deliverPart sc.cmd r src (fun _ _ => false) (partOf (s.partKey sc.cmd code))
  let t := d.1.drainAll
  State.slFinish { t with fresh := if code = 3 then s.fresh else s.fresh + 1 } f sc code d.2.1 d.2.2

/-- A command has all its bytes and writes them (R207, R208, R217). -/
def State.slWhole (s : State) (f : Nat) (sc : SCmd) (r : Resolved) (src : List (List PByte)) : State :=
  let d := (s.slTouch r.src.flatten).deliverBytes sc.cmd r.dst (sc.cmd.outputs src)
  d.1.drainAll.slFinish f sc (if d.2 = 0 then 0 else 5) d.2 sc.cmd.delivered

/-- A link command whose peer has answered with a status (R370). -/
def State.slAnswered (s : State) (f : Nat) (sc : SCmd) (r : Resolved) (data : List PByte) (st : Nat) : State :=
  let src := s.farBytes r.src data
  if r.pulls then
    if st = 0 ∨ st = 5 then s.slWhole f sc r src
    else if st = 6 ∨ st = 3 ∨ st = 7 then s.slPartly f sc st r src
    else s.slFinish f sc st 0 0
  else if st = 0 ∨ st = 5 then
    let w := (List.zipWith placeBytes r.dst (sc.cmd.outputs (s.slSource [s.fresh] r))).flatten
    let n := (badGrans w).length
    let s := (w.foldl (fun s e => s.unpoisoned e.1.addr e.1.len) s).drainAll
    s.slFinish f sc (if n = 0 then st else 5) n sc.cmd.delivered
  else s.slFinish f sc st 0 0

/-- A command that began ends, or queues behind a lease, or a link command sends (SLUICE_COMMAND_COMPLETE). -/
def State.slComplete (s : State) (f q n : Nat) : State :=
  match s.findSc f q n with
  | none => s
  | some sc =>
    let r := s.resolve f sc.cmd
    let w := s.slWaits f sc r
    let v := topStatus (sc.verdict :: r.fails)
    if !s.slDone f sc then s
    else if sc.untouched then s.slFinish f sc sc.verdict 0 0
    else if sc.unsent r then s.slFinish f sc v 0 0
    else if s.slSends f sc r then (match sc.peer with | some j => s.sendLink f sc j r | none => s)
    else if !w.isEmpty then s.enqueue (sc.waitKey f) w
    else if sc.cmd.op = .shint then (if v = 0 then s.hint sc.cmd r else s).slFinish f sc v 0 0
    else
      match sc.resp with
      | some (data, st) => if v = 0 then s.slAnswered f sc r data st else s.slPartly f sc v r (s.farBytes r.src data)
      | none =>
        let src := s.slSource (s.partKey sc.cmd v) r
        if v = 0 then s.slWhole f sc r src else s.slPartly f sc v r src

/-- Has a command that began waited 2^TOUT µs (R218)? DEDUCED: the time runs from its begin, at which its requests are sent
(notes/assumptions/26.md). -/
def State.slLate (s : State) (sc : SCmd) : Bool := sc.begun && decide (sc.start + 2 ^ sc.tout * 3000 ≤ s.cycle)

/-- The host or expander whose answer a command awaits (R218): one that leaves a read unanswered; otherwise any that a range
of it names, since nothing says when a host or an expander acknowledges. -/
def State.slTarget (s : State) (r : Resolved) : Option Nat :=
  match s.slStalled r with
  | some t => if t < 0x300 then some t else none
  | none =>
    let l := ((r.all.filter (fun p => p.here && !s.isIsolated p.addr)).filterMap (fun p => targetOf p.addr)).eraseDups
    l[Config.choose s.fresh % l.length]?

/-- Can a command time out now? -/
def State.slExpires (s : State) (f : Nat) (sc : SCmd) : Bool :=
  let r := s.resolve f sc.cmd
  s.slLate sc && !sc.untouched && (sc.peer.isNone || !sc.sent || (r.pulls && sc.resp.any (fun a => a.2 == 0 || a.2 == 5))) &&
    sc.cmd.accesses && topStatus r.fails != 7 &&
    (s.slTarget r).isSome && s.slArrives f sc (s.slWaits f sc r)

/-- A host or expander access of a command has timed out (R218, R219): the target is isolated and the command completes
TIMEOUT. Its other accesses have ended, and what they read is written. Of a target that leaves reads unanswered the bytes
below the stall were read; of another, and of what was written to it, the words are open. -/
def State.slTimeout (s : State) (f q n : Nat) : State :=
  match s.findSc f q n with
  | none => s
  | some sc =>
    let r := s.resolve f sc.cmd
    let w := s.slWaits f sc r
    match s.slTarget r with
    | none => s
    | some t =>
      if !s.slExpires f sc then s
      else if !w.isEmpty then s.enqueue (sc.waitKey f) w
      else
        let hung := (s.slStalled r).isSome
        let mine (p : Piece) : Bool := p.here && targetOf p.addr == some t
        let d := (s.slTouch r.src.flatten).deliverPart sc.cmd r (match sc.resp with | some (data, _) => s.farBytes r.src data | none => s.slSource [s.fresh] r)
          (fun p i => (s.slHang p i).isSome || (!hung && mine p && !partOf [s.fresh] p i))
          (fun p i => !mine p || partOf [s.fresh + 1] p i)
        let u := d.1.drainAll
        (State.isolateFor { u with fresh := s.fresh + 2 } t 218).slFinish f sc 6 d.2.1 d.2.2

/-! ## The sluice's own steps -/

/-- `SLUICE_COMMAND_BEGIN` (R203). -/
def execSluiceCommandBegin (flight q : Nat) (s : State) : Out := .next (s.slBegin flight q)
/-- `SLUICE_COMMAND_COMPLETE` (R215). -/
def execSluiceCommandComplete (flight q n : Nat) (s : State) : Out := .next (s.slComplete flight q n)
/-- `SLUICE_TIMEOUT` (R218). -/
def execSluiceTimeout (flight q n : Nat) (s : State) : Out := .next (s.slTimeout flight q n)

end Sys2Proof.Machine
end

