-- ==== Sys2Proof/Machine/Composer.lean ====
section
/-! DEFINITION. The cache composer (16_composer R257 to R277): its words as commands, `CQUERY`, and the steps that perform a
command, move a line of a resize and withdraw a share. -/

namespace Sys2Proof.Machine

/-! ## The words (R265) -/

/-- The timeline of a virtual cache (R266). -/
def vcKey (vcid : Nat) : Nat := tlKey 2 vcid

/-- `CDEF` (R265, R268): the record is read at issue and gives the VCID. -/
def execCdef (st : Bool) (d a : Nat) (s : State) : Out :=
  issue s st (fun c =>
    match c.descriptor (c.x a) with
    | .error w => .exc w
    | .ok ws => c.command .cdef d (vcKey (bits (ws.getD 0 0).toNat 0 10)) (c.x a) 0 ws)
/-- `CRSZ` (R269). -/
def execCrsz (st : Bool) (d a : Nat) (s : State) : Out :=
  issue s st (fun c => c.command .crsz d (vcKey (bits (c.x a).toNat 0 10)) (c.x a) 0)
/-- `CFLUSH` (R270). -/
def execCflush (st : Bool) (d a b : Nat) (s : State) : Out :=
  issue s st (fun c => c.command .cflush d (vcKey (bits (c.x a).toNat 54 10)) (c.x a) (c.x b))
/-- `CINVAL` (R270). -/
def execCinval (st : Bool) (d a b : Nat) (s : State) : Out :=
  issue s st (fun c => c.command .cinval d (vcKey (bits (c.x a).toNat 54 10)) (c.x a) (c.x b))
/-- `CPLACE` (R271). -/
def execCplace (st : Bool) (d a b : Nat) (s : State) : Out :=
  issue s st (fun c => c.command .cplace d (vcKey (bits (c.x a).toNat 0 10)) (c.x a) (c.x b))
/-- `CDROP` (R272). -/
def execCdrop (st : Bool) (d a : Nat) (s : State) : Out :=
  issue s st (fun c => c.command .cdrop d (vcKey (bits (c.x a).toNat 0 10)) (c.x a) 0)

/-- LIMIT and USED of a partition on a die (R258). -/
def State.limitOf (s : State) (part die : Nat) : Nat := tgetD 0 s.com.limit (part * 4 + die)
def State.usedOf (s : State) (part die : Nat) : Nat := tgetD 0 s.com.used (part * 4 + die)

/-- The state word of a virtual cache (R273). -/
def VCache.stateWord (v : VCache) : Word :=
  BitVec.ofNat 64 (bits v.defw.toNat 0 32 * 2 ^ 32 + v.shares.length * 2 ^ 16 + v.faults * 2 ^ 8 + v.state)

/-- `CQUERY` (R273). An id above 1,023 is none of the partition's; an operand that the table gives as 0 and that is not, or a
die above 3, leaves the result open (notes/assumptions/14.md). -/
def execCquery (st : Bool) (d a b l : Nat) (s : State) : Out :=
  issue s st (fun c =>
    let q := (c.x a).toNat
    let n := (c.x b).toNat
    let part := (c.s.ctx c.b.ctx).partition
    let own : Option VCache := (if q < 1024 then tget c.s.com.vc q else none).filter (fun v => v.owner == part)
    match l with
    | 0 =>
      scalarOut d (statusWord
        (if 1024 ≤ q ∨ !c.s.mayWait c.b.ctx 2 q n then ⟨n, 15, 0, 0⟩ else (c.s.tl (vcKey q)).status n))
    | 1 =>
      if q < 1024 ∧ n ≠ 0 then openResult d (20 + l) (c.x a) (c.x b)
      else scalarOut d (match own with | some v => v.stateWord | none => 0)
    | 2 =>
      if 4 ≤ q ∨ n ≠ 0 then openResult d (20 + l) (c.x a) (c.x b)
      else scalarOut d (BitVec.ofNat 64 (c.s.limitOf part q + c.s.usedOf part q * 2 ^ 16))
    | _ =>
      scalarOut d (match own.bind (fun v => v.shares[n]?) with
        | some k => BitVec.ofNat 64 k
        | none => BitVec.allOnes 64))

/-! ## The record (R259) -/

/-- Does a PLACE word break R259 for a die? -/
def placeBad (die place : Nat) : Bool :=
  (List.range 4).any (fun i =>
    let f := bits place (16 * i) 16
    bits f 10 5 != 0 || (bits f 15 1 == 1 && bits f 0 10 / 160 != die))

/-- Does a record given to `CDEF` break R259? -/
def recordRefused (w : List Word) : Bool :=
  let d := (w.getD 0 0).toNat
  let n := bits d 32 13
  let pol := bits d 17 3
  bits d 45 19 != 0 || bits d 22 10 != 0 || n == 0 || decide (6360 < n) || decide (1 < bits d 20 2) || decide (4 < pol) ||
    decide (4 < bits d 14 3) || (pol == 4 && (bits d 12 5 != 0 || bits d 20 2 != 0)) || w.getD 1 0 != 0 ||
    placeBad (bits d 10 2) (w.getD 2 0).toNat || (w.drop 3).any (fun x => x != 0)

/-! ## Shares (R257, R260) -/

def shareKey (die k : Nat) : Nat := die * 8192 + k

/-- The anchor cores of a PLACE word, counted within the die; the first core where none is valid (R259). -/
def anchors (die place : Nat) : List Nat :=
  match ((List.range 4).map (fun i => bits place (16 * i) 16)).filter (fun f => bits f 15 1 == 1) with
  | [] => [0]
  | l => l.map (fun f => bits f 0 10 - 160 * die)

/-- The class of R260 in which a share is taken. -/
def shareClass (as : List Nat) (k : Nat) : Nat :=
  let slice := k / 40
  if as.contains slice then 0
  else if as.any (fun a => a / 4 == slice / 4) then 1
  else if as.any (fun a => a / 80 == slice / 80) then 2
  else 3

/-- The free shares of a die outside its reserve, in the order in which a cache with these anchors takes them. -/
def State.freeShares (s : State) (die place : Nat) : List Nat :=
  let free := (List.range 6360).filter (fun k => tgetD 0 s.com.share (shareKey die k) == 0)
  let as := anchors die place
  (List.range 4).flatMap (fun c => free.filter (fun k => shareClass as k == c))

def State.setVc (s : State) (vcid : Nat) (v : VCache) : State := { s with com := { s.com with vc := tset s.com.vc vcid v } }

/-- Mark shares as held by `h` (1 + VCID), free (0) or withdrawn (2,000). -/
def State.markShares (s : State) (die h : Nat) (l : List Nat) : State :=
  { s with com := { s.com with share := l.foldl (fun t k => tput 0 t (shareKey die k) h) s.com.share } }

/-- Change USED of a partition on a die. -/
def State.updUsed (s : State) (part die : Nat) (f : Nat → Nat) : State :=
  { s with com := { s.com with used := tupd 0 s.com.used (part * 4 + die) f } }

/-! ## Direct storage (R262) -/

def directAddr (vcid : Nat) : Nat := directBase + vcid * 2 ^ 32

/-- Every view of the granules that `p` picks is zero, their poison cleared, their copies in L1 caches gone, of data and of code
(R192). -/
def State.wipe (s : State) (p : Nat → Bool) : State :=
  let s := s.drainAll
  let keep (m : Memory) : Memory := m.filter (fun e => !p (e.1 / 64))
  { s with mem := { s.mem with
      view0 := keep s.mem.view0, view1 := keep s.mem.view1, view2 := keep s.mem.view2, view3 := keep s.mem.view3
      poison := s.mem.poison.filter (fun e => !p e.1), l1 := s.mem.l1.filter (fun e => !p (e.1 % 2 ^ 46))
      icache := s.mem.icache.map (fun e => (e.1, e.2.filter (fun g => !p g))) } }

/-- The granules of a direct window. -/
def inWindow (vcid g : Nat) : Bool := decide (directAddr vcid / 64 ≤ g) && decide (g < directAddr (vcid + 1) / 64)

/-! ## `CFLUSH` and `CINVAL` (R270) -/

/-- The translation cache of a die's composer (R310). -/
def comParty (die : Nat) : Nat := 800 + die

/-- The virtual addresses at which a context sees a granule through pages that name a virtual cache, are served by it and, where
`wr`, have the right W, as the composer of a die translates. -/
def State.namedAt (s : State) (die ctx vcid g : Nat) (wr : Bool) : List Nat :=
  (s.nodesFor (comParty die) ctx).flatMap (fun e =>
    let n := e.2
    let pg := g / 64
    if n.vcid == some vcid && (n.w || !wr) && s.servedBy ctx n.vcid (64 * g) == vcid + 1 && !(ctx == 0 && s.confGranule pg) then
      (s.reaches n pg).map (fun i => (n.vgn + i) * 4096 + 64 * g % 4096)
    else [])

/-- Does the range hold a byte of a granule? -/
def State.rangeHas (s : State) (die ctx vcid base len g : Nat) : Bool :=
  (s.namedAt die ctx vcid g false).any (fun va => overlaps va 64 base len)

/-- Does the range hold a granule whole, through pages that the context may write: what `CINVAL` of a direct cache writes (R270,
R290)? -/
def State.rangeWhole (s : State) (die ctx vcid base len g : Nat) : Bool :=
  (s.namedAt die ctx vcid g true).any (fun va => decide (base ≤ va) && decide (va + 64 ≤ base + len))

/-- Does `CFLUSH` or `CINVAL` of a range reach a granule of a non-direct cache: one in the range, or one of a line that holds a
byte of it? -/
def State.flushes (s : State) (ctx vcid base len : Nat) (v : VCache) (g : Nat) : Bool :=
  let has := s.rangeHas v.die ctx vcid base len
  has g || (match tget s.com.lines (lineKey v vcid (64 * g)) with
    | some _ => (lineGrans v (lineKey v vcid (64 * g))).any has
    | none => false)

/-- Write back, and with `drop` invalidate, the lines of a non-direct cache that hold a byte of a range, and the L1 copies of their
granules, of data and of code (R192): one in M is written back to the home first. The directory holds L1 copies of granules with no line
in the banks too (R261, R174). -/
def State.flushLines (s : State) (ctx vcid base len : Nat) (v : VCache) (drop : Bool) : State :=
  let s := s.giveBack (fun k => s.flushes ctx vcid base len v (k % 2 ^ 46))
  let hit := s.flushes ctx vcid base len v
  let l1 := s.mem.l1
  let mine (e : Nat × Line) : Bool := e.1 / 2 ^ 46 == vcid && hit (e.1 % 2 ^ 46)
  let s := if drop then s.setMem { s.mem with icache := s.mem.icache.map (fun e => (e.1, e.2.filter (fun g => !hit g))) } else s
  (s.setL1 (if drop then l1.filter (fun e => !hit (e.1 % 2 ^ 46))
    else l1.map (fun e => if e.2 == .m && hit (e.1 % 2 ^ 46) then (e.1, L1St.e) else e))).setLines
    (if drop then s.com.lines.filter (fun e => !mine e)
     else s.com.lines.map (fun e => if mine e then (e.1, { e.2 with dirty := false }) else e))

/-- The status that `CFLUSH` or `CINVAL` (`drop`) of a range word and a length gives a partition: 3 DENIED, 2 REFUSED, 0. -/
def State.rangeStatus (s : State) (part : Nat) (w len : Nat) (drop : Bool) : Nat :=
  let v := tget s.com.vc (bits w 54 10)
  if v.any (fun v => v.owner != part) then 3
  else if bits w 48 6 != 0 || decide (2 ^ 48 ≤ len) || (v.any (fun v => v.policy == 4) && !drop) then 2
  else 0

/-- `CFLUSH` or `CINVAL` over a range in a context (R270, R344); the composer keeps the translations that it used. -/
def State.maintain (s : State) (ctx w len : Nat) (drop : Bool) : State :=
  let vcid := bits w 54 10
  let base := bits w 0 48
  match tget s.com.vc vcid with
  | none => s
  | some v =>
    let used := (s.nodesFor (comParty v.die) ctx).filter (fun e => overlaps (4096 * e.2.vgn) (4096 * e.2.count) base len)
    let t := if v.policy = 4 then s.wipe (s.rangeWhole v.die ctx vcid base len) else s.flushLines ctx vcid base len v drop
    t.fill (comParty v.die) (used.map (·.1))

/-- The key under which the commands of a virtual cache wait for leases. -/
def comWait (vcid : Nat) : Nat := 2 ^ 128 + vcid

/-- The granules that `p` picks for which an engine's command has to wait, under a key (R163). -/
def State.awaits (s : State) (key : Nat) (p : Nat → Bool) : List Nat := s.busyGrans.filter (fun g => p g && s.blockedAt key g)

/-- The granules that `CFLUSH` or `CINVAL` under a key has to wait for (R163): a copy that it takes away, or one in M that it reduces. -/
def State.maintWaits (s : State) (key ctx w len : Nat) (drop : Bool) : List Nat :=
  let vcid := bits w 54 10
  let base := bits w 0 48
  match tget s.com.vc vcid with
  | none => []
  | some v =>
    if s.rangeStatus (s.ctx ctx).partition w len drop != 0 then []
    else if v.policy = 4 then s.awaits key (s.rangeWhole v.die ctx vcid base len)
    else
      let inM (g : Nat) : Bool := s.mem.l1.any (fun e => e.1 % 2 ^ 46 == g && e.2 == .m)
      s.awaits key (fun g => (drop || inM g) && s.flushes ctx vcid base len v g)

/-- A command that has to wait for the granules `w`: it queues for those, and goes on once there is none. -/
def State.behindLeases (s : State) (key : Nat) (w : List Nat) (go : State → State) : Option State :=
  if w.isEmpty then some (go (s.unqueue key)).serveLeaseQ
  else if s.requeues key w then some (s.enqueue key w)
  else none

/-! ## Commands (R266 to R272) -/

/-- The status of a command (R267), from the definition it finds. -/
def State.comStatus (s : State) (vcid : Nat) (c : Cmd) : Nat :=
  let part := (s.ctx c.ctx).partition
  let v := tget s.com.vc vcid
  let a := c.a.toNat
  let grows (die place k : Nat) : Bool :=
    decide ((s.freeShares die place).length < k) || decide (s.limitOf part die < s.usedOf part die + k)
  if v.any (fun v => v.owner != part) then 3
  else
    match c.op, v with
    | .cdef, some _ => 2
    | .cdef, none =>
      let w0 := c.arg 0
      if recordRefused c.args then 2 else if grows (bits w0 10 2) (c.arg 2) (bits w0 32 13) then 4 else 0
    | .cflush, _ => s.rangeStatus part a c.b.toNat false
    | .cinval, _ => s.rangeStatus part a c.b.toNat true
    | _, none => 2
    | .crsz, some v =>
      let m := bits a 16 13
      let n := v.shares.length
      if bits a 10 6 != 0 || bits a 29 35 != 0 || m == 0 || decide (6360 < m) then 2
      else if m = n then 0
      else if v.policy == 4 && decide (m < n) then 2
      else if decide (n < m) && grows v.die v.place.toNat (m - n) then 4
      else 0
    | .cplace, some v => if decide (1024 ≤ a) || placeBad v.die c.b.toNat then 2 else 0
    | _, some _ => if 1024 ≤ a then 2 else 0

/-- Take `k` shares for a virtual cache: they are appended to its list (R260). -/
def State.takeShares (s : State) (vcid : Nat) (v : VCache) (k : Nat) : VCache × State :=
  let l := (s.freeShares v.die v.place.toNat).take k
  ({ v with shares := v.shares ++ l }, (s.markShares v.die (vcid + 1) l).updUsed v.owner v.die (· + k))

/-- The first command of a virtual cache leaves its queue with a status. -/
def State.comFinish (s : State) (vcid : Nat) (code : Nat) : State :=
  match tgetD [] s.com.queue vcid with
  | [] => s
  | (n, c) :: r =>
    let s := { s with com := { s.com with queue := tput [] s.com.queue vcid r } }
    (s.refusal c.ctx code).finish (vcKey vcid) n code

/-- `CDEF` takes effect (R268). -/
def State.define (s : State) (vcid n : Nat) (c : Cmd) : State :=
  let w0 := c.args.getD 0 0
  let v : VCache := { defw := w0, place := c.args.getD 2 0, owner := (s.ctx c.ctx).partition, shares := [], cdefN := n }
  let r := s.takeShares vcid v (bits w0.toNat 32 13)
  let s := r.2.setVc vcid r.1
  if v.policy = 4 then s.wipe (inWindow vcid) else s

/-- A resize begins (R274 step 1 and 2): the lines stand under the old function. -/
def State.beginResize (s : State) (vcid n m : Nat) (v : VCache) : State :=
  let k := v.shares.length
  let r := if k < m then s.takeShares vcid v (m - k) else ({ v with shares := v.shares.take m }, s)
  let v' := { r.1 with old := v.shares, state := if v.policy = 4 then 1 else 2, crszN := if v.policy = 4 then 0 else n }
  let s := r.2.setVc vcid v'
  s.setLines (s.com.lines.map (fun e => if e.1 / 2 ^ 46 = vcid then (e.1, { e.2 with moved := false }) else e))

/-- Has the walk moved every line? -/
def State.walked (s : State) (vcid : Nat) : Bool := (s.linesOf vcid).all (fun e => e.2.moved)

/-- The old function is retired and the shares that the cache gave up are free (R274 step 4). -/
def State.retire (s : State) (vcid : Nat) (v : VCache) : State :=
  let gone := v.old.filter (fun k => !v.shares.contains k && tgetD 0 s.com.share (shareKey v.die k) == vcid + 1)
  let s := (s.markShares v.die 0 gone).updUsed v.owner v.die (· - gone.length)
  let s := s.setVc vcid { v with old := [], state := 1, crszN := 0 }
  if v.crszN = 0 then s else s.comFinish vcid 0

/-- `CDROP` completes (R272). -/
def State.dropVc (s : State) (vcid : Nat) (v : VCache) : State :=
  let mine := v.shares.filter (fun k => tgetD 0 s.com.share (shareKey v.die k) == vcid + 1)
  let s := (s.markShares v.die 0 mine).updUsed v.owner v.die (· - v.shares.length)
  let s := s.setLines (s.com.lines.filter (fun e => e.1 / 2 ^ 46 != vcid))
  let s := if v.policy = 4 then s.wipe (inWindow vcid) else s
  { s with com := { s.com with vc := tdel s.com.vc vcid } }

/-- Does the composer that a command needs stand on a die that has failed or tripped (R277, R366)? -/
def State.comStopped (s : State) (v : Option VCache) (c : Option Cmd) : Bool :=
  match v, c with
  | some v, _ => s.dieStopped v.die
  | none, some c => c.op == .cdef && s.dieStopped (bits (c.arg 0) 10 2)
  | none, none => false

/-- The composer's next step for a virtual cache: `none` where it has nothing to do now. A resize in progress goes on to
its end before the next command (R266). The effects before a command are performed at .M first, whatever its status (R180): it waits
for one that a lease holds back. -/
def State.comNext (s : State) (vcid : Nat) : Option State :=
  let v := tget s.com.vc vcid
  if s.comStopped v ((tgetD [] s.com.queue vcid).head?.map (·.2)) then none
  else
    match v.filter (fun v => v.state == 2) with
    | some v => if s.walked vcid then some (s.retire vcid v) else none
    | none =>
      match tgetD [] s.com.queue vcid with
      | [] => none
      | (n, c) :: _ =>
        if s.coreWaits c.barge c.core then none
        else
        let code := s.comStatus vcid c
        let s := s.drainAll
        let upkeep (drop : Bool) : Option State :=
          s.behindLeases (comWait vcid) (s.maintWaits (comWait vcid) c.ctx c.a.toNat c.b.toNat drop) (fun s =>
            (s.maintain c.ctx c.a.toNat c.b.toNat drop).comFinish vcid 0)
        if code ≠ 0 then some (s.comFinish vcid code)
        else
          match c.op, v with
          | .cdef, _ => some ((s.define vcid n c).comFinish vcid 0)
          | .crsz, some v =>
            let m := bits c.a.toNat 16 13
            if m = v.shares.length then some (s.comFinish vcid 0)
            else if v.policy = 4 then some ((s.beginResize vcid n m v).comFinish vcid 0)
            else some (s.beginResize vcid n m v)
          | .cplace, some v => some ((s.setVc vcid { v with place := c.b }).comFinish vcid 0)
          | .cdrop, some v =>
            if v.state = 3 then
              s.behindLeases (comWait vcid) (if v.policy = 4 then s.awaits (comWait vcid) (inWindow vcid) else []) (fun s =>
                (s.dropVc vcid v).comFinish vcid 0)
            else some (s.setVc vcid { v with state := 3 })
          | .cflush, _ => upkeep false
          | .cinval, _ => upkeep true
          | _, _ => none

/-! ## The walk (R274, R275) -/

/-- Does the walk pass over a line: a granule of it is leased, and a probe of it waits for that lease (R275)? -/
def State.passedOver (s : State) (vcid : Nat) (v : VCache) (key : Nat) : Bool :=
  s.linePinned v key && s.mem.leaseQ.any (fun r => match r with
    | .probe k g => k == vcid && (lineGrans v key).contains g && s.granLeased g | _ => false)

/-- The line that the walk comes to next: the first, in order of old set and then of way, that it does not pass over. -/
def State.walkLine (s : State) (vcid : Nat) : Option (Nat × Line) :=
  match tget s.com.vc vcid with
  | none => none
  | some v =>
    if s.dieStopped v.die then none
    else
      let l := (s.linesOf vcid).filter (fun e => !e.2.moved && !s.passedOver vcid v e.1)
      let place (e : Nat × Line) : Nat := v.setOf v.old.length (lineAddr e.1) * 16 + e.2.way
      l.foldl (fun (b : Option (Nat × Line)) e =>
        match b with | none => some e | some x => if place e < place x then some e else b) none

/-- The walk moves one line. Of one with a leased granule it sends the probes, which stand behind the lease and before every request for
the granule that comes later (R163, R275). -/
def State.moveLine (s : State) (vcid : Nat) : State :=
  match tget s.com.vc vcid, s.walkLine vcid with
  | some v, some (key, l) =>
    if s.linePinned v key then ((lineGrans v key).filter s.granLeased).foldl (fun s g => s.lastInLine (.probe vcid g)) s
    else s.shiftLine vcid v key l
  | _, _ => s

/-! ## Bank-share faults (R277) -/

/-- A list whose element `k` changes places with the last. -/
def toEnd (l : List Nat) (k : Nat) : List Nat :=
  match l.getLast? with
  | none => l
  | some z => if l.contains k then (l.map (fun x => if x = k then z else x)).dropLast ++ [k] else l

/-- The cache gives up a share (R277): it stands last in the old list and in no new one. A cache that is being dropped stays so
(R272). -/
def VCache.giveUp (v : VCache) (k : Nat) : VCache :=
  if v.state = 2 ∨ v.old ≠ [] then { v with old := toEnd v.old k, shares := if v.shares.contains k then (toEnd v.shares k).dropLast else v.shares }
  else { v with old := toEnd v.shares k, shares := (toEnd v.shares k).dropLast, state := if v.state = 3 then 3 else 2 }

/-- The lines of a cache that a share keeps (R261). -/
def State.linesIn (s : State) (vcid : Nat) (v : VCache) (share : Nat) : List (Nat × Line) :=
  (s.linesOf vcid).filter (fun e =>
    let l := if !v.old.isEmpty && !e.2.moved then v.old else v.shares
    l.getD (v.setOf l.length (lineAddr e.1) % max 1 l.length) 9999 == share)

/-- The lines of a failed share leave: a dirty line's granules that no L1 holds in M are poisoned. -/
def State.loseLines (s : State) (vcid : Nat) (v : VCache) (share : Nat) : State :=
  let lost := s.linesIn vcid v share
  let inM (g : Nat) : Bool := s.mem.l1.any (fun e => e.1 % 2 ^ 46 == g && e.2 == .m)
  let bad := ((lost.filter (fun e => e.2.dirty)).flatMap (fun e => lineGrans v e.1)).filter (fun g => !inM g)
  let s := bad.foldl (fun s g => s.poisonRange (64 * g) 64) s
  let keys := lost.map (·.1)
  s.setLines (s.com.lines.filter (fun e => !keys.contains e.1))

/-- Insert a line in order of set and way of the index function that a cache has. -/
def VCache.inOrder (v : VCache) (e : Nat × Line) : List (Nat × Line) → List (Nat × Line)
  | [] => [e]
  | x :: r =>
    let place (e : Nat × Line) : Nat := v.setOf v.shares.length (lineAddr e.1) * 16 + e.2.way
    if place e < place x then e :: x :: r else x :: v.inOrder e r

/-- The new function of a resize in progress loses a share: the lines that stand under it move again, in order of set and way. A
line with a leased granule cannot answer a probe now and leaves the cache, written back (R275, notes/assumptions/27.md). -/
def State.shiftAgain (s : State) (vcid : Nat) (v v' : VCache) : State :=
  let l := (s.linesOf vcid).filter (fun e => e.2.moved)
  let s := s.setLines (s.com.lines.filter (fun e => !(e.1 / 2 ^ 46 == vcid && e.2.moved)))
  (l.foldr v.inOrder []).foldl (fun s e => if s.linePinned v e.1 then s else s.shiftLine vcid v' e.1 e.2) s

/-- A non-direct cache shrinks by a share (R274, R277). -/
def State.shrinkBy (s : State) (vcid : Nat) (v : VCache) (share : Nat) : State :=
  let v' := v.giveUp share
  let s := (s.setVc vcid v').updUsed v.owner v.die (· - 1)
  if v.state = 2 ∨ v.old ≠ [] then (if v'.shares.length < v.shares.length then s.shiftAgain vcid v v' else s)
  else s.setLines (s.com.lines.map (fun e => if e.1 / 2 ^ 46 = vcid then (e.1, { e.2 with moved := false }) else e))

/-- The share that replaces a failed one of a direct cache: of the reserve, else a free one (R277). DEDUCED: R277 says which share of
the reserve no more than that; the model takes the lowest-numbered that is free, the order in which R260 takes shares of one class
(notes/assumptions/27.md). -/
def State.spareShare (s : State) (die place : Nat) : Option Nat :=
  match ((List.range 40).map (· + 6360)).find? (fun k => tgetD 0 s.com.share (shareKey die k) == 0) with
  | some k => some k
  | none => (s.freeShares die place).head?

/-- The lowest-numbered non-direct virtual cache of a die that has a share to give, and its last share. -/
def State.donor (s : State) (die : Nat) : Option (Nat × VCache × Nat) :=
  s.com.vc.findSome? (fun e =>
    if e.2.die == die && e.2.policy != 4 then e.2.shares.getLast?.map (fun k => (e.1, e.2, k)) else none)

/-- A share of a direct cache fails: `share` stands where `k` stood, its granules poisoned. -/
def State.replaceShare (s : State) (vcid : Nat) (v : VCache) (k share : Nat) : State :=
  let s := (s.markShares v.die (vcid + 1) [share]).setVc vcid
    { v with shares := v.shares.map (fun x => if x = k then share else x), faults := min 255 (v.faults + 1) }
  s.poisonRange (directAddr vcid + v.shares.idxOf k * 16384) 16384

/-- A share is withdrawn (R277). -/
def State.withdrawShare (s : State) (die k : Nat) : State :=
  let h := tgetD 0 s.com.share (shareKey die k)
  if 6400 ≤ k ∨ 4 ≤ die ∨ h = 2000 then s
  else
    let s := s.logBoth evShareWd k k
    let s0 := s.markShares die 2000 [k]
    match (if h = 0 then none else tget s.com.vc (h - 1)) with
    | none => s0
    | some v =>
      let id := h - 1
      if v.policy ≠ 4 then
        (s0.loseLines id v k).shrinkBy id { v with faults := min 255 (v.faults + 1) } k
      else
        match s0.spareShare die v.place.toNat with
        | some z => s0.replaceShare id v k z
        | none =>
          match s0.donor die with
          | some (j, w, z) => (s0.shrinkBy j w z).replaceShare id v k z
          | none =>
            let s := s0.setVc id { v with faults := min 255 (v.faults + 1) }
            ({ s with com := { s.com with failed := if s.com.failed.contains die then s.com.failed else die :: s.com.failed } }).logBoth
              evDieFail die die

/-! ## The composer's own steps -/

/-- `COMPOSER_COMMAND_COMPLETE` (R266, R267): the composer takes its next step for a virtual cache. -/
def execComposerCommandComplete (vcid : Nat) (s : State) : Out := .next ((s.comNext vcid).getD s)
/-- `RESIZE_LINE_MOVE` (R274). -/
def execResizeLineMove (vcid : Nat) (s : State) : Out := .next (s.moveLine vcid)
/-- `BANK_SHARE_FAULT` (R277). -/
def execBankShareFault (die share : Nat) (s : State) : Out := .next (s.withdrawShare die share)

end Sys2Proof.Machine
end

