-- ==== Sys2Proof/Machine/Control.lean ====
section
/-! DEFINITION. Control transfers, repeat frames and prefixes (06_core_scalar R120 to R126, 04_encoding R79 to R82) and
the system words `CKPT`, `YIELD`, `TRAP`, `BKPT` (R125, R126, R191, R192). Each ends its run, but a prefix. -/

namespace Sys2Proof.Machine

/-- A transfer to a target (R123): its run ends there, or takes the fetch-alignment fault at the transferring word. -/
def transfer (l : List Item) (t : Word) : WOut :=
  if t.toNat % 4 = 0 ∧ t.toNat < 2 ^ 48 then .fin l (.next t.toNat) else .exc ⟨2, 0, t⟩

/-- A conditional branch (R120); one that is not taken never faults on its target. -/
def branch (s : State) (a x : Nat) (taken : Word → Bool) : Out :=
  issue s true (fun c =>
    if taken (c.x a) then transfer [] (BitVec.ofNat 64 c.pc + sextW 17 x * 4) else .fin [] (.next (c.pc + 4)))

/-- `BEQZ` (R120, R74). -/
def execBeqz (a x : Nat) (s : State) : Out := branch s a x (fun v => v == 0)
/-- `BNEZ` (R120, R74). -/
def execBnez (a x : Nat) (s : State) : Out := branch s a x (fun v => v != 0)
/-- `BLTZ` (R120, R74). -/
def execBltz (a x : Nat) (s : State) : Out := branch s a x (fun v => decide (v.toInt < 0))
/-- `BGEZ` (R120, R74). -/
def execBgez (a x : Nat) (s : State) : Out := branch s a x (fun v => decide (0 ≤ v.toInt))
/-- `BGTZ` (R120, R74). -/
def execBgtz (a x : Nat) (s : State) : Out := branch s a x (fun v => decide (0 < v.toInt))
/-- `BLEZ` (R120, R74). -/
def execBlez (a x : Nat) (s : State) : Out := branch s a x (fun v => decide (v.toInt ≤ 0))
/-- `BODD` (R120, R74). -/
def execBodd (a x : Nat) (s : State) : Out := branch s a x (fun v => v.toNat % 2 == 1)

/-- `J` (R121). -/
def execJ (x : Nat) (s : State) : Out := issue s true (fun c => transfer [] (BitVec.ofNat 64 c.pc + sextW 25 x * 4))
/-- `JL` (R121). -/
def execJl (x : Nat) (s : State) : Out :=
  issue s true (fun c => transfer [.sreg 31 (BitVec.ofNat 64 (c.pc + 4))] (BitVec.ofNat 64 c.pc + sextW 25 x * 4))
/-- `JLR` (R122). -/
def execJlr (d a i : Nat) (s : State) : Out :=
  issue s true (fun c => transfer [.sreg d (BitVec.ofNat 64 (c.pc + 4))] (c.x a + c.imm i))

/-- `RPT` (R81): the frame's runs follow. Its legality was decided when the run was fetched (R82). -/
def execRpt (c l x y z e : Nat) (s : State) : Out :=
  issue s true (fun w => .fin [] (.frame { rpt := w.pc, n := c + 1, len := l + 1, dstep := x, astep := y, bstep := z, en := e }))

/-- `PREFIX` (R79). -/
def execPfx (p : Nat) (s : State) : Out := issue s false (fun _ => .pfx p)

/-- `CKPT` (R125). -/
def execCkpt (s : State) : Out := issue s true (fun _ => .fin [] (.commit .plain))
/-- `YIELD` (R126). -/
def execYield (s : State) : Out := issue s true (fun _ => .fin [] (.commit .yield))
/-- `TRAP` (R191). -/
def execTrap (a b c : Nat) (s : State) : Out := issue s true (fun w => .fin [] (.commit (.trap c (w.x a) (w.x b))))
/-- `BKPT` (R192). -/
def execBkpt (s : State) : Out := issue s true (fun _ => .fin [] (.commit .bkpt))

end Sys2Proof.Machine
end

