-- ==== Sys2Proof/Machine/Mapping.lean ====
section
/-! DEFINITION. The mapping engine (18_mapping R281 to R314): its words, the steps of the mapping tree, messages, replies and
bindings, a context that dies (R307), and the shoot-downs that a withdrawal waits for (10_core_faults R197, R310, R311). -/

namespace Sys2Proof.Machine

/-! ## The words (R292) -/

/-- s1 to s6 as read at issue (R291). -/
def WCtx.six (c : WCtx) : List Word := [c.x 1, c.x 2, c.x 3, c.x 4, c.x 5, c.x 6]

/-- A command on the context's mapping timeline (R292). -/
def mapWord (s : State) (st : Bool) (op : Op) (d : Nat) (a b : WCtx → Word) (six : Bool) : Out :=
  issue s st (fun c => c.command op d (tlKey 3 c.b.ctx) (a c) (b c) (if six then c.six else []))

/-- `MAP` (R295). -/
def execMap (st : Bool) (d a : Nat) (s : State) : Out := mapWord s st .map d (fun c => c.x a) (fun _ => 0) true
/-- `GRANT` (R296). -/
def execGrant (st : Bool) (d a : Nat) (s : State) : Out := mapWord s st .grant d (fun c => c.x a) (fun _ => 0) true
/-- `UNMAP` (R297). -/
def execUnmap (st : Bool) (d a b : Nat) (s : State) : Out :=
  mapWord s st .unmap d (fun c => c.x a) (fun c => c.x b) false
/-- `UNMAPX` (R297). -/
def execUnmapx (st : Bool) (d a b : Nat) (s : State) : Out :=
  mapWord s st .unmapx d (fun c => c.x a) (fun c => c.x b) false
/-- `SEND` (R295). -/
def execSend (st : Bool) (d a : Nat) (s : State) : Out := mapWord s st .send d (fun c => c.x a) (fun _ => 0) true
/-- `REPLY` (R301). -/
def execReply (st : Bool) (d a : Nat) (s : State) : Out := mapWord s st .reply d (fun c => c.x a) (fun _ => 0) true
/-- `EPDROP` (R302). -/
def execEpdrop (st : Bool) (d a : Nat) (s : State) : Out := mapWord s st .epdrop d (fun c => c.x a) (fun _ => 0) false
/-- `CHBIND` (R303). -/
def execChbind (st : Bool) (d a b : Nat) (s : State) : Out :=
  mapWord s st .chbind d (fun c => c.x a) (fun c => c.x b) false

/-- `RECV` (R298): the receipt address is checked at issue. -/
def execRecv (a b : Nat) (p : Bool) (s : State) : Out :=
  issue s true (fun c =>
    match c.winAt (c.x b) 4 16 with
    | .error w => .exc w
    | .ok (m, off) =>
      let n := (c.x a).toNat
      .fin [] (.commit (.held (.recv (if n < 65536 then some n else none) m off p))))
/-- `CALL` (R300). -/
def execCall (a b : Nat) (s : State) : Out :=
  issue s true (fun c =>
    match c.winAt (c.x b) 4 16 with
    | .error w => .exc w
    | .ok (m, off) => .fin [] (.commit (.held (.call (c.x a) m off c.six none))))

/-- What `EPINFO` reports of a handle (R302). -/
def State.epInfo (s : State) (ctx : Nat) (h : Word) : Word :=
  match s.endpoint ctx h with
  | some e => BitVec.ofNat 64 (2 ^ 63 + e.gen * 2 ^ 16 + e.g.toNat * 4 + e.m.toNat * 2 + e.s.toNat)
  | none => 0
/-- `EPINFO` (R302). -/
def execEpinfo (st : Bool) (d a : Nat) (s : State) : Out :=
  issue s st (fun c => scalarOut d (c.s.epInfo c.b.ctx (c.x a)))

/-- The word of `MQUERY` sel 1 for the node that translates an address (R304). -/
def Node.info (n : Node) (vcid : Nat) : Word :=
  BitVec.ofNat 64 (2 ^ 63 + n.x.toNat * 2 ^ 62 + n.w.toNat * 2 ^ 61 + n.r.toNat * 2 ^ 60 + vcid * 2 ^ 48 + n.stamp % 2 ^ 40)

/-- The context that `MQUERY` asks about (R304): none where the issuer may not ask. -/
def queryCtx (ctx c : Nat) : Option Nat := if c = 0 then some ctx else if ctx = 0 then some c else none

/-- `MQUERY` (R304): of the node that translates an address, whatever R361 keeps from accesses. An operand that the table gives
as 0 and that is not leaves the result open, and so does the VCID of a root node, which names none (notes/assumptions/14.md). -/
def execMquery (st : Bool) (d a b l : Nat) (s : State) : Out :=
  issue s st (fun c =>
    let q := (c.x a).toNat
    let k := (c.x b).toNat
    let ctx := c.b.ctx
    match l with
    | 0 =>
      if k ≠ 0 then openResult d (30 + l) (c.x a) (c.x b)
      else scalarOut d (statusWord ((c.s.tl (tlKey 3 ctx)).status q))
    | 1 =>
      match (queryCtx ctx k).bind (fun x => c.s.lookup x q) with
      | none => scalarOut d 0
      | some (_, n, _) =>
        scalarOut d (n.info (n.vcid.getD ((Config.openWord (30 + l) (c.x a) (c.x b)).toNat % 1024)))
    | 2 =>
      let r := c.s.ctx ctx
      if q ≠ 0 ∨ k ≠ 0 then openResult d (30 + l) (c.x a) (c.x b)
      else scalarOut d (BitVec.ofNat 64 (r.scope + r.measured.toNat * 8 + r.scopecnt * 2 ^ 16))
    | _ =>
      match (if ctx = 0 then (queryCtx ctx k).bind (fun x => c.s.lookup x q) else none) with
      | some (_, _, pa) => scalarOut d (BitVec.ofNat 64 pa)
      | none => scalarOut d (BitVec.allOnes 64))

/-! ## The mapping tree (R288, R289) -/

def State.node (s : State) (k : Nat) : Node := tgetD { vgn := 0, ctx := 0, pgn := 0, count := 0 } s.map.nodes k
def State.setNode (s : State) (k : Nat) (n : Node) : State := { s with map := { s.map with nodes := tset s.map.nodes k n } }

/-- The rights of a node as three bits (R288). -/
def Node.rights (n : Node) : Nat := n.r.toNat + 2 * n.w.toNat + 4 * n.x.toNat
def Node.setRights (n : Node) (r : Nat) : Node := { n with r := bits r 0 1 == 1, w := bits r 1 1 == 1, x := bits r 2 1 == 1 }

/-- The least record index from `k` that no record uses. -/
def lowestFree : Tab Node → Nat → Nat
  | [], k => k
  | (j, _) :: r, k => if j = k then lowestFree r (k + 1) else if k < j then k else lowestFree r k

/-- The first record that is not kept for root nodes (R281, R349). -/
def firstRecord : Nat := 44

/-- Free records of the store (R287). -/
def State.freeRecords (s : State) : Nat := 2 ^ 24 - firstRecord - (s.map.nodes.filter (fun e => decide (firstRecord ≤ e.1))).length

/-- A piece of a range of a context's granules: the node that covers it, the offset in the node, the granules. -/
structure MapPiece where
  key : Nat
  off : Nat
  cnt : Nat
  deriving DecidableEq, Repr

/-- The pieces of live nodes that cover `[g, e)` from `g` on, and whether they cover all of it. -/
def State.cover (s : State) (ctx : Nat) : Nat → Nat → Nat → List MapPiece × Bool
  | 0, g, e => ([], decide (e ≤ g))
  | f + 1, g, e =>
    if e ≤ g then ([], true)
    else
      match s.nodeAt ctx g with
      | none => ([], false)
      | some (k, n) =>
        let m := min e (n.vgn + n.count) - g
        let r := s.cover ctx f (g + m) e
        (⟨k, g - n.vgn, m⟩ :: r.1, r.2)

/-- The cover of `c` granules from `g`. -/
def State.coverOf (s : State) (ctx g c : Nat) : List MapPiece × Bool := s.cover ctx (s.map.nodes.length + 1) g (g + c)

/-- Does a live root node of a context meet a range? -/
def State.rootIn (s : State) (ctx g c : Nat) : Bool :=
  s.map.nodes.any (fun e => e.2.root && e.2.st == .live && e.2.ctx == ctx && overlaps e.2.vgn e.2.count g c)

/-- Live children of a node. -/
def State.children (s : State) (k : Nat) : List Nat :=
  (s.map.nodes.filter (fun e => e.2.parent == k && e.2.st == .live && !e.2.root)).map (·.1)

/-- The live subtrees of nodes, to a depth. -/
def State.subtrees (s : State) : Nat → List Nat → List Nat
  | 0, l => l
  | f + 1, l =>
    let next := l.flatMap s.children
    if next.isEmpty then l else l ++ s.subtrees f next

/-- Nodes with everything derived from them. -/
def State.subtree (s : State) (l : List Nat) : List Nat := (s.subtrees s.map.nodes.length l).eraseDups

/-- The boundaries of a piece inside its node (R296). -/
def State.cuts (s : State) (p : MapPiece) : List Nat :=
  ([p.off, p.off + p.cnt]).filter (fun x => decide (0 < x) && decide (x < (s.node p.key).count))

/-- Does a child of a node cross one of these boundaries (R296)? DEDUCED: a live one; R296 says "a child" of nodes that are there
already, and one that is being withdrawn is left on the side where it begins (notes/assumptions/22.md). -/
def State.crosses (s : State) (k : Nat) (cuts : List Nat) : Bool :=
  (s.children k).any (fun c =>
    let n := s.node c
    let a := n.pgn - (s.node k).pgn
    cuts.any (fun x => decide (a < x) && decide (x < a + n.count)))

/-- Split the node `k` at one boundary: the upper part takes a new record, with the children whose physical range it
holds (R296). -/
def State.splitAt (s : State) (k cut seq : Nat) : Nat × State :=
  let n := s.node k
  let j := lowestFree s.map.nodes firstRecord
  let up : Node := { n with vgn := n.vgn + cut, pgn := n.pgn + cut, count := n.count - cut, stamp := seq }
  let nodes := s.map.nodes.map (fun e =>
    if e.2.parent = k ∧ up.pgn ≤ e.2.pgn ∧ !e.2.root then (e.1, { e.2 with parent := j }) else e)
  let nodes := tset (tset nodes k { n with count := cut, stamp := seq }) j up
  (j, { s with map := { s.map with nodes := nodes } })

/-- Cut a piece out of its node: the record that maps exactly the piece. -/
def State.carve (s : State) (p : MapPiece) (seq : Nat) : Nat × State :=
  let r := if p.off = 0 then (p.key, s) else s.splitAt p.key p.off seq
  if p.cnt < (r.2.node r.1).count then (r.1, (r.2.splitAt r.1 p.cnt seq).2) else r

/-! ## Shoot-downs and completion (R197, R310, R311) -/

/-- A resident region that used one of these nodes. -/
def Barge.usesAny (b : Barge) (l : List Nat) : Bool := b.st == .resident && b.used.any (fun k => l.contains k)

/-- The parties whose translation caches hold one of these nodes, and the cores whose resident regions used one (R311). -/
def State.holders (s : State) (l : List Nat) : List Nat :=
  let a := (s.mem.tcache.filter (fun e => e.2.any (fun t => l.contains t.key))).map (·.1)
  let b := (s.barges.filter (fun e => e.2.usesAny l)).map (fun e => e.2.core)
  (a ++ b).eraseDups

/-- Shoot down `nodes` for command `n` of a context, `free` to be freed at its completion (R311). A lease on one of them that was
granted before ends TLEASE cycles from now at the latest, TLEASE as read now (R310). -/
def State.shoot (s : State) (ctx n : Nat) (free nodes : List Nat) (zero : List (Nat × Nat)) : State :=
  let p : Pending := { ctx := ctx, n := n, free := free, nodes := nodes, parties := s.holders nodes,
                       deadline := s.cycle + s.map.tlease, zero := zero }
  let cut (t : TEntry) : TEntry := if nodes.contains t.key then { t with ends := min t.ends p.deadline } else t
  { s with
    map := { s.map with pending := s.map.pending ++ [p] }
    mem := { s.mem with tcache := s.mem.tcache.map (fun e => (e.1, e.2.map cut)) } }

/-- The nodes that a party has been asked to give up. -/
def State.asked (s : State) (party : Nat) : List Nat :=
  (s.map.pending.filter (fun p => p.parties.contains party)).flatMap (·.nodes)

/-- Abort the resident regions of a core that used one of these nodes (R197). -/
def State.abortUsers (s : State) (core : Nat) (l : List Nat) : State :=
  ((s.barges.filter (fun e => e.2.core == core && e.2.usesAny l)).map (·.1)).foldl (fun s b => s.abortRegion b) s

def State.setTcache (s : State) (core : Nat) (l : List TEntry) : State :=
  { s with mem := { s.mem with tcache := tput [] s.mem.tcache core l } }

/-- A party drops the named translations; a core aborts the regions that used them (R197 items 1 and 2, R216). -/
def State.shootdown (s : State) (core : Nat) : State :=
  let l := s.asked core
  let s := s.setTcache core ((tgetD [] s.mem.tcache core).filter (fun t => !l.contains t.key))
  s.abortUsers core l

/-- May an address lie in the range of a node: in its physical pages, or, where those are behind a host port, behind that port
(R349, R353)? -/
def State.inNode (s : State) (k pa : Nat) : Bool :=
  let n := s.node k
  (decide (n.pgn ≤ pa / 4096) && decide (pa / 4096 < n.pgn + n.count)) ||
    (hostPort (4096 * n.pgn)).any (fun p => hostPort pa == some p)

/-- Is a request that waits behind a lease a write through a translation: of a core, or of a record by the wharf (R310, R319)? -/
def LeaseReq.writes : LeaseReq → Bool
  | .store _ _ _ _ _ _ _ _ => true | .effect _ _ _ => true | .ownWrite _ _ _ _ => true | _ => false

/-- Does a write through one of these nodes, of a core where one is named, wait behind a lease still (R163, R197 item 3, R310
item 3)? -/
def State.writeDue (s : State) (l : List Nat) (core : Option Nat) : Bool :=
  let here (g : Nat) : Bool := l.any (fun k => s.inNode k (64 * g))
  s.mem.leaseQ.any (fun r => r.writes && core.all r.byCore && here r.gran) ||
    s.barges.any (fun e => core.all (fun c => e.2.core == c) && e.2.late.any (fun x => x.global.any here))

/-- Is an atomic that a commit released to a granule of these nodes, on a core where one is named, still to be performed (R310 item
3)? -/
def State.atomicDue (s : State) (l : List Nat) (core : Option Nat) : Bool :=
  s.barges.any (fun e => core.all (fun c => e.2.core == c) && (match e.2.held with
    | some ⟨_, .amo _ _ _ _ _ pa _ _ _, _, _, _⟩ => l.any (fun k => s.inNode k pa)
    | _ => false))

/-- Is a request that a link command, of a flight where one is named, sent into a peer window through one of these nodes still to be
answered (R310 item 3, R314)? -/
def State.linkDue (s : State) (l : List Nat) (flight : Option Nat) : Bool :=
  s.lnk.out.any (fun r => flight.all (fun f => r.key / 16 == f) && l.any (fun k =>
    let n := s.node k
    overlaps (4096 * n.pgn) (4096 * n.count) (0x500000000000 + r.peer * 2 ^ 40 + r.off) r.len))

/-- Is an access that a party itself released through one of these nodes still on its way (R310 item 3, R197, R216)? -/
def State.partyDue (s : State) (l : List Nat) (party : Nat) : Bool :=
  s.writeDue l (some party) || s.atomicDue l (some party) || (decide (640 ≤ party) && s.linkDue l (some (party - 640)))

/-- May a party acknowledge (R197, R216, R311)? -/
def State.mayAck (s : State) (core : Nat) : Bool :=
  let l := s.asked core
  !l.isEmpty && !(tgetD [] s.mem.tcache core).any (fun t => l.contains t.key) &&
    !s.barges.any (fun e => e.2.core == core && e.2.usesAny l) && !s.partyDue l core

/-- A party acknowledges: the effects it released are performed at their homes (R197 item 3). -/
def State.ack (s : State) (core : Nat) : State :=
  if s.mayAck core then
    let s := s.drainAll
    let ps := s.map.pending.map (fun p => { p with parties := p.parties.filter (fun x => x != core) })
    { s with map := { s.map with pending := ps } }
  else s

/-- The conditions of R310 for a withdrawal or move. -/
def State.settled (s : State) (p : Pending) : Bool :=
  (p.parties.isEmpty || decide (p.deadline ≤ s.cycle)) && !s.barges.any (fun e => e.2.usesAny p.nodes) &&
    !s.atomicDue p.nodes none && !s.linkDue p.nodes none && !s.writeDue p.nodes none

/-- Write the granules of a confidential context zero (R362). -/
def State.zeroRanges (s : State) (l : List (Nat × Nat)) : State :=
  if l.isEmpty then s
  else s.wipe (fun g => l.any (fun r => decide (r.1 * 64 ≤ g) && decide (g < (r.1 + r.2) * 64)))

/-- A withdrawal or move completes: its records are free, its granules zero where they must be. -/
def State.settle (s : State) (p : Pending) : State :=
  let s := s.drainAll.zeroRanges p.zero
  { s with map := { s.map with
      nodes := p.free.foldl (fun t k => tdel t k) s.map.nodes
      pending := s.map.pending.erase p } }

/-! ## Withdrawal, and a context that dies (R307, R361) -/

/-- The confidential contexts whose nodes are in a list. -/
def State.confOf (s : State) (l : List Nat) : List Nat :=
  ((l.map (fun k => (s.node k).ctx)).filter s.confidential).eraseDups

/-- The granules that must be written zero when these nodes are withdrawn: root children of confidential contexts. -/
def State.zeroOf (s : State) (l : List Nat) : List (Nat × Nat) :=
  (l.filter (fun k => let n := s.node k; s.confidential n.ctx && (s.node n.parent).root)).map
    (fun k => ((s.node k).pgn, (s.node k).count))

/-- Nodes become withdrawing. -/
def State.withdraw (s : State) (l : List Nat) : State :=
  { s with map := { s.map with
      nodes := s.map.nodes.map (fun e => if l.contains e.1 then (e.1, { e.2 with st := .withdrawing }) else e) } }

/-- The queues of a confidential context enter ERROR and TDIERR is logged (R361): the cause is the model's number for
the event, 2 a withdrawal. -/
def State.tdiErrors (s : State) (ctx cause : Nat) : State :=
  let qs := (s.hst.queues.filter (fun e => e.2.bound && e.2.ctx == ctx && (e.2.tdi == .locked || e.2.tdi == .run))).map (·.1)
  qs.foldl (fun s k =>
    let q := tgetD {} s.hst.queues k
    let s := { s with hst := { s.hst with queues := tset s.hst.queues k { q with tdi := .error } } }
    s.logEvent (k / 64) evTdiErr (k % 64) (Config.causeCode evTdiErr cause)) s

/-- The waits of calls to a context end DEAD (R300, R301). -/
def State.callsDead (s : State) (ctx : Nat) : State :=
  (s.map.tokens.filter (fun e => !e.2.isFault && e.2.target == ctx)).foldl (fun s e =>
    let s := s.useToken e.1
    match (s.barge e.2.barge).held with
    | some ⟨_, .call _ wb off _ _, _, _, _⟩ => s.emptyReceipt e.2.barge wb off 11
    | _ => s) s

/-- The nodes of a context, each with everything derived from it. -/
def State.ownGone (s : State) (c : Nat) : List Nat :=
  s.subtree ((s.map.nodes.filter (fun e => e.2.ctx == c && e.2.st == .live && !e.2.root)).map (·.1))

/-- A context becomes dying (R307): its barges end, its slots are invalid, its channels' messages are discarded, calls to
it end DEAD, its nodes are withdrawn, `zero` written zero too. The confidential contexts that lose a node, and the new
state. -/
def State.dying (s : State) (c : Nat) (zero : List (Nat × Nat)) : List Nat × State :=
  let s : State := s.updCtx c (fun x => { x with st := .dying })
  let bs := (s.barges.filter (fun e => e.2.ctx == c && e.2.st != .ended)).map (·.1)
  let s : State := bs.foldl (fun s b => (s.abortRegion b).endBarge b true) s
  let s : State := { s with map := { s.map with
    eps := s.map.eps.map (fun e => if e.1 / 1024 = c then (e.1, { e.2 with valid := false }) else e)
    chans := s.map.chans.map (fun e => if e.2.owner = some c then (e.1, { e.2 with queue := [] }) else e) } }
  let s := s.callsDead c
  let gone := s.ownGone c
  let hit := s.confOf gone
  let zero := (zero ++ s.zeroOf gone).eraseDups
  let s : State := if gone.isEmpty then s else { s with map := { s.map with seq := s.map.seq + 1 } }
  (hit, (s.withdraw gone).shoot c 0 gone gone zero)

/-- A live context becomes dying; a confidential context that loses a node by it dies too (R361), `fuel` deep. -/
def State.kill : Nat → State → Nat → List (Nat × Nat) → State
  | 0, s, _, _ => s
  | f + 1, s, c, zero =>
    if (s.ctx c).st != .live then s
    else
      let r := s.dying c zero
      r.1.foldl (fun s x => State.kill f (s.tdiErrors x 2) x (s.zeroOf (s.ownGone x))) r.2

/-- Enough for every queue's context. -/
def State.killCtx (s : State) (c : Nat) (zero : List (Nat × Nat) := []) : State := s.kill 130 c zero

/-- A step of the tree withdraws nodes for command `n` of a context. -/
def State.withdrawStep (s : State) (ctx n : Nat) (gone changed : List Nat) : State :=
  let hit := s.confOf gone
  let zero := s.zeroOf gone
  let s := (s.withdraw gone).shoot ctx n gone (gone ++ changed) zero
  hit.foldl (fun s x => (s.tdiErrors x 2).killCtx x (s.zeroOf (s.ownGone x))) s

/-! ## Items (R291, R294 to R296, R363) -/

/-- A map or grant item. -/
structure MapItem where
  svgn : Nat
  count : Nat
  dvgn : Nat
  rights : Nat
  vcid : Nat
  rsv : Nat
  deriving DecidableEq, Repr

def itemOf (w : List Word) : MapItem :=
  let a := (w.getD 4 0).toNat
  let b := (w.getD 5 0).toNat
  { svgn := bits a 0 36, count := bits a 36 28, dvgn := bits b 0 36, rights := bits b 36 3, vcid := bits b 39 10
    rsv := bits b 49 15 }

/-- The physical ranges of pieces, in granules. -/
def State.piecePhys (s : State) (l : List MapPiece) : List (Nat × Nat) := l.map (fun p => ((s.node p.key).pgn + p.off, p.cnt))

/-- The rule of WX (R294, R363). DEDUCED: root nodes, which hold every right over everything, are not counted among the nodes
with W (notes/assumptions/22.md). -/
def State.wx (s : State) (tctx : Nat) (it : MapItem) (phys : List (Nat × Nat)) : Bool :=
  let w := bits it.rights 1 1 == 1
  let x := bits it.rights 2 1 == 1
  let m := (s.ctx tctx).measured
  let meets (n : Node) : Bool := phys.any (fun r => overlaps n.pgn n.count r.1 r.2)
  (m && w && x) ||
    (m && x && s.map.nodes.any (fun e => e.2.st == .live && !e.2.root && e.2.w && meets e.2)) ||
    (w && s.map.nodes.any (fun e => e.2.st == .live && e.2.x && (s.ctx e.2.ctx).measured && meets e.2))

/-- Does a range meet a live or withdrawing node of a context (R294)? -/
def State.occupied (s : State) (ctx g c : Nat) : Bool :=
  decide (2 ^ 36 < g + c) || s.map.nodes.any (fun e => e.2.ctx == ctx && overlaps e.2.vgn e.2.count g c)

/-- The status of `SEND`, `MAP` and `GRANT` (R294). -/
def State.itemStatus (s : State) (c : Cmd) : Nat :=
  let it := itemOf c.args
  let isItem := c.op != .send
  if isItem && (it.rsv != 0 || it.count == 0 || it.rights == 0) then 2
  else
    match s.endpoint c.ctx c.a with
    | none => 3
    | some e =>
      let right := match c.op with | .send => e.s | .map => e.m | _ => e.g
      if !right then 3
      else if (s.ctx e.tctx).st != .live || (s.liveOwner e.chan).isNone then 11
      else
        let full := !s.hasRoom e.chan
        if !isItem then (if full then 6 else 0)
        else
          let cov := s.coverOf c.ctx it.svgn it.count
          let grant := c.op == .grant
          if grant && s.rootIn c.ctx it.svgn it.count then 10
          else if !cov.2 || cov.1.any (fun p => it.rights &&& (s.node p.key).rights != it.rights) then 4
          else if grant && cov.1.any (fun p => s.crosses p.key (s.cuts p)) then 8
          else if s.wx e.tctx it (s.piecePhys cov.1) then 9
          else if s.occupied e.tctx it.dvgn it.count then 5
          else if full then 6
          else if s.freeRecords < (if grant then (cov.1.flatMap s.cuts).length else cov.1.length) then 7
          else 0

/-- The tree step of `MAP` (R295): a child for each piece. -/
def State.mapStep (s : State) (tctx : Nat) (it : MapItem) (l : List MapPiece) : State :=
  let seq := s.map.seq + 1
  let s := { s with map := { s.map with seq := seq } }
  (l.foldl (fun (a : State × Nat) p =>
    let n := a.1.node p.key
    let child : Node := { vgn := it.dvgn + a.2, ctx := tctx, vcid := some it.vcid, pgn := n.pgn + p.off, count := p.cnt
                          parent := p.key, stamp := seq }
    (a.1.setNode (lowestFree a.1.map.nodes firstRecord) (child.setRights it.rights), a.2 + p.cnt)) (s, 0)).1

/-- The tree step of `GRANT` (R296): the pieces move; the nodes it changed. -/
def State.grantStep (s : State) (tctx : Nat) (it : MapItem) (l : List MapPiece) : List Nat × State :=
  let seq := s.map.seq + 1
  let s := { s with map := { s.map with seq := seq } }
  let r := l.foldl (fun (a : (List Nat × State) × Nat) p =>
    let q := a.1.2.carve p seq
    let n := q.2.node q.1
    let moved : Node := { n.setRights it.rights with
      ctx := tctx, vgn := it.dvgn + a.2, vcid := some it.vcid, stamp := seq }
    let s := q.2.setNode q.1 moved
    let below := ((s.subtree [q.1]).erase q.1).filter (fun k => it.rights &&& (s.node k).rights != (s.node k).rights)
    let s := below.foldl (fun s k => s.setNode k ((s.node k).setRights (it.rights &&& (s.node k).rights))) s
    ((a.1.1 ++ [p.key, q.1] ++ below, s), a.2 + p.cnt)) (([], s), 0)
  (r.1.1.eraseDups, r.1.2)

/-! ## `UNMAP` and `UNMAPX` (R297) -/

/-- The children of the covering nodes that meet the covered range, each with its subtree. -/
def State.derived (s : State) (l : List MapPiece) : List Nat :=
  s.subtree (l.flatMap (fun p =>
    let n := s.node p.key
    (s.children p.key).filter (fun k => overlaps (s.node k).pgn (s.node k).count (n.pgn + p.off) p.cnt)))

/-- The status of `UNMAP`, or `UNMAPX` (`ex`). -/
def State.unmapStatus (s : State) (c : Cmd) (ex : Bool) : Nat :=
  let base := c.a.toNat
  let n := c.b.toNat
  if base % 4096 != 0 || decide (2 ^ 48 ≤ base) || n == 0 || decide (2 ^ 28 ≤ n) then 2
  else
    let cov := s.coverOf c.ctx (base / 4096) n
    if ex && s.rootIn c.ctx (base / 4096) n then 10
    else if !cov.2 then 4
    else if ex && decide (s.freeRecords < (cov.1.flatMap s.cuts).length) then 7
    else 0

/-- The tree step: the nodes withdrawn, the nodes otherwise changed. -/
def State.unmapStep (s : State) (c : Cmd) (ex : Bool) : List Nat × List Nat × State :=
  let l := (s.coverOf c.ctx (c.a.toNat / 4096) c.b.toNat).1
  let gone := s.derived l
  if !ex then (gone, [], if gone.isEmpty then s else { s with map := { s.map with seq := s.map.seq + 1 } })
  else
    let seq := s.map.seq + 1
    let s := { s with map := { s.map with seq := seq } }
    let r := (l.filter (fun p => !gone.contains p.key)).foldl (fun (a : List Nat × State) p =>
      let q := a.2.carve p seq
      (a.1 ++ [q.1], q.2)) ([], s)
    ((gone ++ r.1).eraseDups, l.map (·.key), r.2)

/-! ## Replies, drops and bindings (R301 to R303) -/

/-- `REPLY`: its status and what it leaves (R301, R189). -/
def State.replyCmd (s : State) (c : Cmd) : Nat × State :=
  let tok := c.a.toNat
  if 2 ^ 32 ≤ tok then (2, s)
  else
    match tget s.map.tokens tok with
    | none => (12, s)
    | some t =>
      if t.receiver != some c.ctx then (12, s)
      else if t.isFault then
        match s.replyFault t.barge c.args with
        | none => (12, s)
        | some s => (0, s.useToken tok)
      else
        match (s.barge t.barge).held with
        | some ⟨_, .call _ wb off _ _, _, _, _⟩ =>
          let s := s.useToken tok
          let s := s.updB t.barge (fun b => { b.setCarry c.args with held := none })
          (0, s.updB wb (fun b => b.writeWin off (receipt 0 5 0 (Config.openBadge 5 0))))
        | _ => (12, s)

/-- `EPDROP` (R302). -/
def State.epdropCmd (s : State) (c : Cmd) : Nat × State :=
  match s.endpoint c.ctx c.a with
  | none => (3, s)
  | some e =>
    let k := epKey c.ctx (c.a.toNat % 1024)
    (0, { s with map := { s.map with eps := tset s.map.eps k { e with valid := false, gen := (e.gen + 1) % 65536 } } })

/-- A binding of a context is withdrawn: its fault messages that are held for room through it are undeliverable (R187). -/
def State.unbind (s : State) (t : Nat) (pager : Bool) : State :=
  let lose (h : HeldFault) : HeldFault :=
    if (s.barge h.bid).ctx = t ∧ (h.pager != 0) = pager then { h with lost := true } else h
  { s with map := { s.map with chans := s.map.chans.map (fun e => (e.1, { e.2 with heldFaults := e.2.heldFaults.map lose })) } }

/-- `CHBIND` (R303). DEDUCED: to bind again is no withdrawal, and what is held stays held (R187, notes/assumptions/30.md). DEDUCED:
DEAD tests the context named in s[a] alone; whether a channel has an owner is asked when a fault goes to it (R187, R294,
notes/assumptions/22.md). -/
def State.chbindCmd (s : State) (c : Cmd) : Nat × State :=
  let a := c.a.toNat
  let b := c.b.toNat
  let t := bits a 0 12
  let role := bits a 12 2
  if 2 ^ 14 ≤ a ∨ (c.ctx ≠ 0 ∧ t ≠ c.ctx) ∨ role = 3 ∨ (role = 0 ∧ 65536 ≤ b) ∨ (role = 2 ∧ b ≠ 0) then (2, s)
  else if role = 1 ∧ b ≠ 0 ∧ !((s.endpoint t c.b).any (fun e => e.s)) then (3, s)
  else if (s.ctx t).st != .live then (11, s)
  else
    (0, (if role = 2 then s.unbind t false else if role = 1 ∧ b = 0 then s.unbind t true else s).updCtx t (fun x =>
      if role = 0 then { x with super := some b } else if role = 1 then { x with pager := c.b } else { x with super := none }))

/-! ## The engine's steps (R293, R306) -/

/-- The first command of a context leaves its queue with a status. -/
def State.mapFinish (s : State) (ctx code : Nat) : State :=
  match tgetD [] s.map.queue ctx with
  | [] => s
  | (n, _) :: r =>
    let s := { s with map := { s.map with queue := tput [] s.map.queue ctx r } }
    (s.refusal ctx code).finish (tlKey 3 ctx) n code

/-- Is the first command of a context one that has begun and waits (R293)? -/
def State.mapBusy (s : State) (ctx n : Nat) : Bool := s.map.pending.any (fun p => p.ctx == ctx && p.n == n)

/-- The engine begins a context's next command: `none` where there is none to begin, or where what was released before it waits
behind a lease still (R163, R180). -/
def State.mapNext (s : State) (ctx : Nat) : Option State :=
  match tgetD [] s.map.queue ctx with
  | [] => none
  | (n, c) :: _ =>
    if s.mapBusy ctx n || s.coreWaits c.barge c.core then none
    else
      let s := s.drainAll
      match c.op with
      | .unmap | .unmapx =>
        let ex := c.op == .unmapx
        let st := s.unmapStatus c ex
        if st ≠ 0 then some (s.mapFinish ctx st)
        else
          let r := s.unmapStep c ex
          if r.1.isEmpty then some (r.2.2.mapFinish ctx 0) else some (r.2.2.withdrawStep ctx n r.1 r.2.1)
      | .reply => let r := s.replyCmd c; some (r.2.mapFinish ctx r.1)
      | .epdrop => let r := s.epdropCmd c; some (r.2.mapFinish ctx r.1)
      | .chbind => let r := s.chbindCmd c; some (r.2.mapFinish ctx r.1)
      | _ =>
        let st := s.itemStatus c
        if st ≠ 0 then some (s.mapFinish ctx st)
        else
          match s.endpoint ctx c.a with
          | none => some (s.mapFinish ctx 3)
          | some e =>
            let it := itemOf c.args
            let l := (s.coverOf ctx it.svgn it.count).1
            match c.op with
            | .send => some ((s.post e.chan ⟨c.args, e.badge, 0, 0⟩).mapFinish ctx 0)
            | .map => some (((s.mapStep e.tctx it l).post e.chan ⟨c.args, e.badge, 3, 0⟩).mapFinish ctx 0)
            | _ =>
              let r := s.grantStep e.tctx it l
              some ((r.2.shoot ctx n [] r.1 []).post e.chan ⟨c.args, e.badge, 4, 0⟩)

/-- The withdrawal or move of a context's command that can complete now. -/
def State.mapDone (s : State) (ctx : Nat) : Option Pending :=
  s.map.pending.find? (fun p => p.ctx == ctx && p.n != 0 && s.settled p)

/-- A grant or withdrawal completes (R310). -/
def State.mapComplete (s : State) (ctx : Nat) : State :=
  match s.mapDone ctx with | none => s | some p => (s.settle p).mapFinish ctx 0

/-- The withdrawal of a dying context that can complete now (R307). -/
def State.ctxDone (s : State) (ctx : Nat) : Option Pending :=
  if (tgetD [] s.map.queue ctx).isEmpty then s.map.pending.find? (fun p => p.ctx == ctx && p.n == 0 && s.settled p) else none

/-- A dying context becomes free and its key is erased (R307, R362). -/
def State.ctxFree (s : State) (ctx : Nat) : State :=
  match s.ctxDone ctx with
  | none => s
  | some p =>
    let s := (s.settle p).updCtx ctx (fun x => { x with st := .free })
    { s with tru := { s.tru with keys := tdel s.tru.keys ctx, measures := tdel s.tru.measures ctx } }

/-! ## Held fault messages (R187) -/

/-- Can a held message still be delivered: none of the three events has befallen it? -/
def State.stillBound (s : State) (chan : Nat) (h : HeldFault) : Bool :=
  !h.lost && (s.liveOwner chan).isSome && (h.pager == 0 || (s.endpoint (s.barge h.bid).ctx h.pager).isSome)

/-- What happens next to the fault messages held at a channel: one that has become undeliverable ends its barge; else
the oldest enters the channel when it has room. -/
def State.heldNext (s : State) (chan : Nat) : Option State :=
  let l := (s.chan chan).heldFaults
  match l.find? (fun h => !s.stillBound chan h) with
  | some h => some (s.endBarge h.bid true)
  | none =>
    match l with
    | [] => none
    | h :: r =>
      if (s.chan chan).queue.length < 64 then some ((s.updChan chan (fun c => { c with heldFaults := r })).post chan h.msg)
      else none

/-! ## The engine's own steps -/

/-- `MAPPING_COMMAND_BEGIN` (R306). -/
def execMappingCommandBegin (ctx : Nat) (s : State) : Out := .next ((s.mapNext ctx).getD s)
/-- `MAPPING_COMMAND_COMPLETE` (R310). -/
def execMappingCommandComplete (ctx : Nat) (s : State) : Out := .next (s.mapComplete ctx)
/-- `CONTEXT_FREE` (R307). -/
def execContextFree (ctx : Nat) (s : State) : Out := .next (s.ctxFree ctx)
/-- `HELD_FAULT_QUEUE` (R187). -/
def execHeldFaultQueue (chan : Nat) (s : State) : Out := .next ((s.heldNext chan).getD s)
/-- `SHOOTDOWN` (R197). -/
def execShootdown (party : Nat) (s : State) : Out := .next (s.shootdown party)
/-- `SHOOTDOWN_ACK` (R197). -/
def execShootdownAck (party : Nat) (s : State) : Out := .next (s.ack party)

end Sys2Proof.Machine
end

