-- ==== Sys2Proof/Machine/Wharf.lean ====
section
/-! DEFINITION. The wharf (20_wharf R319 to R345): its words, dispatch and move-out, pre-emption requests, the weir, flight
moves and slot boundaries. Creation, decrements and ending are in Pool and Accept. -/

namespace Sys2Proof.Machine

/-! ## The words (R322, R323) -/

/-- A wharf command: it reserves no number and is performed at its commit (R323). -/
def wharfWord (s : State) (st : Bool) (op : Op) (a : Nat) : Out :=
  issue s st (fun c => c.bufferOne (.eff (.cmd 0 0 { op := op, barge := c.bid, ctx := c.b.ctx, core := c.b.core, a := c.x a })))

/-- A spawn word: its descriptor is read at issue (R321). -/
def spawnWord (s : State) (st : Bool) (op : Op) (a : Nat) : Out :=
  issue s st (fun c =>
    match c.descriptor (c.x a) with
    | .error w => .exc w
    | .ok ws =>
      c.bufferOne (.eff (.cmd 0 0
        { op := op, barge := c.bid, ctx := c.b.ctx, core := c.b.core, a := c.x a, args := ws })))

/-- `SPAWN` (R324). -/
def execSpawn (st : Bool) (a : Nat) (s : State) : Out := spawnWord s st .spawn a
/-- `SPAWNG` (R324). -/
def execSpawng (st : Bool) (a : Nat) (s : State) : Out := spawnWord s st .spawng a
/-- `PDEC` (R327). -/
def execPdec (st : Bool) (a : Nat) (s : State) : Out := wharfWord s st .pdec a
/-- `CHPRI` (R330). -/
def execChpri (st : Bool) (a : Nat) (s : State) : Out := wharfWord s st .chpri a
/-- `AFFIN` (R331). -/
def execAffin (st : Bool) (a : Nat) (s : State) : Out := wharfWord s st .affin a
/-- `END` (R328). -/
def execEndOp (s : State) : Out := issue s true (fun _ => .fin [] (.commit .end_))

/-- What `GINFO` reports of a member (R332). -/
def State.ginfo (s : State) (bid : Nat) (v : Word) : Word :=
  let m := v.toNat
  if 16 ≤ m ∨ (s.barge bid).gsize < m then 15
  else match s.member bid m with | some k => BitVec.ofNat 64 (s.barge k).st.code | none => 15
/-- `GINFO` (R332). -/
def execGinfo (st : Bool) (d a : Nat) (s : State) : Out :=
  issue s st (fun c => scalarOut d (c.s.ginfo c.bid (c.x a)))

/-- What `WSTAT` sel 3 reports of a record address (R333). -/
def State.poolWord (s : State) (ctx : Nat) (va : Word) : Word :=
  match (s.recAddr ctx va).bind s.poolAt with
  | none => 0
  | some k =>
    let b := s.barge k
    if b.ctx = ctx then BitVec.ofNat 64 (2 ^ 63 + b.st.code * 2 ^ 32 + b.pred) else 0
/-- `WSTAT` (R333). -/
def execWstat (st : Bool) (d a l : Nat) (s : State) : Out :=
  issue s st (fun c =>
    let v := c.x a
    let t := (c.s.ctx c.b.ctx).partition
    scalarOut d (match l with
      | 3 => c.s.poolWord c.b.ctx v
      | 0 => if v ≠ 0 then 0 else BitVec.ofNat 64 (tgetD 0 c.s.whf.lastServed (t * 4 + dieOf c.b.core) / 4096 * 4096)
      | 1 => if v ≠ 0 then 0 else c.s.slotWord c.b.ctx
      | _ => if v ≠ 0 then 0 else BitVec.ofNat 64 (tgetD 0 c.s.whf.errs c.b.ctx)))

/-! ## Dispatch (R334, R335) -/

/-- The barges resident on a core. -/
def State.resident (s : State) (core : Nat) : List (Nat × Barge) :=
  s.barges.filter (fun e => e.2.st == .resident && e.2.core == core)

/-- Is a slot kept for a member of a gang: it is READY after a `YIELD`, and another member is resident (R126, R336)? -/
def State.keeps (s : State) (bid : Nat) (b : Barge) : Bool :=
  b.kept && b.st == .ready && (s.gangOf bid).any (fun m => (s.barge m).st == .resident)

/-- The barges that take up a core's slots, window storage and tiles: the residents, and those for which a slot is kept. -/
def State.occupants (s : State) (core : Nat) : List (Nat × Barge) :=
  s.barges.filter (fun e => e.2.core == core && (e.2.st == .resident || s.keeps e.1 e.2))

def State.freeSlots (s : State) (core : Nat) : List Nat :=
  (List.range 8).filter (fun k => !(s.occupants core).any (fun e => e.2.slot == k))

/-- Does something that a barge released where it ran still wait behind a lease there? It can go on at no other core: what it has
released it sees (R159, R163). -/
def State.tied (s : State) (bid : Nat) (b : Barge) : Bool := b.ran && s.coreWaits bid b.core

/-- Whether a tenant may use a die (R338). -/
def Tenant.onDie (r : Tenant) (die : Nat) : Bool := bits r.dies die 1 == 1

/-- May a barge be dispatched to a core (R334, R101), on a die that its tenant may use (R338)? One for which a slot is kept has room there, and nowhere else. -/
def State.allowed (s : State) (bid : Nat) (b : Barge) (core : Nat) : Bool :=
  let r := (s.occupants core).filter (fun e => e.1 != bid)
  let c := s.ctx b.ctx
  let f := flightOf core
  (if s.keeps bid b then core == b.core else !(s.freeSlots core).isEmpty) && (!s.tied bid b || core == b.core) && r.all (fun e => e.2.ctx == b.ctx) &&
    decide ((r.map (fun e => e.2.spf)).sum + b.spf ≤ 256) && decide ((r.map (fun e => e.2.tiles)).sum + b.tiles ≤ 256) &&
    s.inCut b.ctx f && (tgetD {} s.whf.tenants c.partition).onDie (dieOf core) && bits c.flights f 1 == 1 && s.eligibleIn c.partition (s.slotAt s.now) &&
    (s.turnHeld bid).all (fun t => t.1 == core) && !s.dieStopped (dieOf core)

def coresOf (die : Nat) : List Nat := (List.range 160).map (· + 160 * die)

/-- The class of a core for a barge's affinity word (R335): 0 the best. -/
def affClass (aff : Word) (core : Nat) : Nat :=
  let a := aff.toNat
  let level := bits a 12 2
  let anchor := bits a 0 10
  if level = 1 ∧ core = anchor then 0
  else if (level = 1 ∨ level = 2) ∧ flightOf core = flightOf anchor then 1
  else if level ≠ 0 ∧ spanOf core = spanOf anchor then 2
  else 3

/-- The core that a stage chooses among candidates: the best class, then most free slots, then the lowest number. -/
def State.choosePlace (s : State) (bid : Nat) (b : Barge) (cores : List Nat) : Option Nat :=
  (cores.filter (s.allowed bid b)).foldl (fun (best : Option Nat) c =>
    match best with
    | none => some c
    | some k =>
      let x := affClass b.aff c
      let y := affClass b.aff k
      if x < y ∨ (x = y ∧ (s.freeSlots k).length < (s.freeSlots c).length) then some c else best) none

/-- A barge takes a slot of a core: it starts at its resume address (R14), a held operation presented again, behind those that
wait already (R151). What it has seen and released where it ran before it sees here (R159, R168, R174). -/
def State.seat (s : State) (bid core : Nat) : State :=
  let b := s.barge bid
  let n := s.whf.readySeq
  let s := if b.ran then s.setMem (s.mem.follow b.core core) else s
  let slot := if s.keeps bid b then b.slot else (s.freeSlots core).headD 0
  { s.setB bid { b.restart with
      st := .resident, ran := true, kept := false, core := core, slot := slot, held := b.held.map (fun h => { h with since := n }) } with
    whf := { s.whf with readySeq := n + 1 } }

/-- The barges that are dispatched together with a ready or waiting barge (R336): none while a member of its gang is
still on its way out, or, where none is resident, while one is parked; one for which a slot is kept comes back alone (R126). -/
def State.together (s : State) (bid : Nat) : List Nat :=
  let g := s.gangOf bid
  let out := !g.any (fun m => (s.barge m).st == .resident)
  if g.any (fun m => (s.barge m).st == .created || ((s.barge m).st == .resident && (s.barge m).preempt) ||
      (out && (s.barge m).st == .parked)) then []
  else if s.keeps bid (s.barge bid) then [bid]
  else g.filter (fun m => ((s.barge m).st == .ready || (s.barge m).st == .waiting) && !s.keeps m (s.barge m))

/-- Seat each of a list of barges among some cores, or none. -/
def State.seatAll (s : State) (cores : List Nat) : List Nat → Option State
  | [] => some s
  | m :: r =>
    match s.choosePlace m (s.barge m) cores with
    | none => none
    | some c => (s.seat m c).seatAll cores r

/-- The spans of a die in the order of a barge's affinity, or the span where members of its gang stand (R336). -/
def State.spansFor (s : State) (bid die : Nat) : List Nat :=
  match (s.gangOf bid).find? (fun m => (s.barge m).st == .resident) with
  | some m => ([spanOf (s.barge m).core]).filter (fun x => x / 2 == die)
  | none =>
    let a := spanOf (bits (s.barge bid).aff.toNat 0 10)
    if bits (s.barge bid).aff.toNat 12 2 ≠ 0 ∧ a = 2 * die + 1 then [2 * die + 1, 2 * die] else [2 * die, 2 * die + 1]

/-- Place a barge, or a whole gang, on a die: `none` where there is no room. -/
def State.placeOn (s : State) (bid die : Nat) : Option State :=
  let l := s.together bid
  if l.isEmpty then none
  else if (s.barge bid).gang = 0 then s.seatAll (coresOf die) l
  else
    let s := if s.keeps bid (s.barge bid) then s else l.foldl (fun s m => s.updB m (fun b => { b with kept := false })) s
    (s.spansFor bid die).findSome? (fun sp => s.seatAll ((List.range 80).map (· + 80 * sp)) l)

/-- The stages to which a barge is offered, the first first (R335). -/
def diesFrom (anchor : Nat) : List Nat := (List.range 4).map (fun k => (anchor + k) % 4)

/-- Is the stage of a die the one that places a barge? -/
def State.offered (s : State) (bid die : Nat) : Bool :=
  (diesFrom (dieOf (bits (s.barge bid).aff.toNat 0 10))).find? (fun d => (s.placeOn bid d).isSome) == some die

/-- A READY barge, or one that waits outside its slot (R320). -/
def Barge.wants (b : Barge) (waiting : Bool) : Bool := if waiting then b.st == .waiting else b.st == .ready

/-- The choice of a die's stage at one priority (R335): the barge, its channel. -/
def State.pickAt (s : State) (die : Nat) (waiting : Bool) (p : Nat) : Option (Nat × Nat) :=
  let l := s.barges.filter (fun e => e.2.wants waiting && e.2.pri == p && s.offered e.1 die)
  let least (l : List (Nat × Barge)) : Option Nat :=
    l.foldl (fun (m : Option Nat) e => match m with | none => some e.2.chan | some x => some (min x e.2.chan)) none
  let ptr := tgetD 0 s.whf.ptr (die * 8 + p)
  match (match least (l.filter (fun e => decide (ptr < e.2.chan))) with | some c => some c | none => least l) with
  | none => none
  | some ch =>
    ((l.filter (fun e => e.2.chan == ch)).foldl (fun (m : Option (Nat × Barge)) e =>
      match m with | none => some e | some x => if e.2.readySeq < x.2.readySeq then some e else m) none).map (fun e => (e.1, ch))

/-- One dispatch by a die's stage: a READY barge first, else one that waits outside its slot. -/
def State.dispatch (s : State) (die : Nat) : Option State :=
  let go (waiting : Bool) : Option State :=
    (([7, 6, 5, 4, 3, 2, 1, 0] : List Nat).findSome? (fun p => (s.pickAt die waiting p).map (fun x => (p, x)))).bind
      (fun x => (s.placeOn x.2.1 die).map (fun s =>
        { s with whf := { s.whf with ptr := tput 0 s.whf.ptr (die * 8 + x.1) x.2.2 } }))
  if s.dieStopped die then none
  else match go false with | some t => some t | none => go true

/-- A barge leaves its slot while it waits (R337, R196): it is WAITING and keeps its held operation. -/
def State.leaveSlot (s : State) (bid : Nat) : State :=
  let n := s.whf.readySeq
  let s := (s.unwait bid).updB bid (fun b => { b.restart with st := .waiting, preempt := false, readySeq := n })
  { s with whf := { s.whf with readySeq := n + 1 } }

/-- Does a barge wait in its slot at a suspension point (R13)? An atomic is none. -/
def Barge.suspended (b : Barge) : Bool :=
  b.st == .resident && (match b.held with | none => false | some ⟨_, .amo _ _ _ _ _ _ _ _ _, _, _, _⟩ => false | some _ => true)

/-- The barge outside a gang that has waited longest in a slot of a core, counted from its suspension, moves since then included (R337). -/
def State.longest (s : State) (core : Nat) : Option Nat :=
  (((s.resident core).filter (fun e => e.2.suspended && e.2.gang == 0)).foldl (fun (m : Option (Nat × Barge)) e =>
    match m with
    | none => some e
    | some x => if ((e.2.held.map (·.waited)).getD 0) < ((x.2.held.map (·.waited)).getD 0) then some e else m) none).map (·.1)

/-- A move-out on a die (R337): on a core without a free slot, for a READY barge that could stand there. -/
def State.moveOut (s : State) (die : Nat) : Option State :=
  if s.dieStopped die || !s.barges.any (fun e => e.2.st == .ready) then none
  else
    (coresOf die).findSome? (fun core =>
      if (s.freeSlots core).isEmpty then
        match s.longest core with
        | none => none
        | some w =>
          let t := s.leaveSlot w
          if s.barges.any (fun e => e.2.st == .ready && !t.keeps e.1 e.2 && t.allowed e.1 e.2 core && !(t.together e.1).isEmpty) then some t else none
      else none)

/-- What the stage of a die does next. -/
def State.stageNext (s : State) (die : Nat) : Option State :=
  match s.dispatch die with | some t => some t | none => s.moveOut die

/-! ## Pre-emption (R195, R196, R336, R343) -/

/-- The wharf asks for a barge's slot, and for those of its whole gang; no slot of the gang is kept any more. -/
def State.requestPreempt (s : State) (bid : Nat) : State :=
  (s.gangOf bid).foldl (fun s m => s.updB m (fun b => { b with preempt := b.preempt || b.st == .resident, kept := false })) s

/-- The barges that have entered a slot without being eligible in it. -/
def State.slotTurn (s : State) : State :=
  let slot := s.slotAt s.now
  let l := (s.barges.filter (fun e => e.2.st == .resident && !s.eligibleIn (s.ctx e.2.ctx).partition slot)).map (·.1)
  l.foldl (fun s b => s.requestPreempt b) { s with whf := { s.whf with curSlot := slot } }

/-! ## The weir (R339, R340) -/

def flightsOf (die : Nat) : List Nat := (List.range 40).map (· + 40 * die)

/-- The flights of a die in a tenant's cut. -/
def State.cutOf (s : State) (t die : Nat) : List Nat := (flightsOf die).filter (fun f => tgetD 0 s.whf.cut f == t + 1)

/-- How many flights of a die a tenant holds or is about to receive. -/
def State.holds (s : State) (t die : Nat) : Nat :=
  (s.cutOf t die).length + (s.whf.moves.filter (fun m => m.dst == t && m.flight / 40 == die)).length

/-- Flights that no tenant holds. -/
def State.unowned (s : State) (die : Nat) : List Nat :=
  (flightsOf die).filter (fun f => tgetD 0 s.whf.cut f == 0 && !s.whf.moves.any (fun m => m.flight == f))

/-- The highest-numbered flight of a tenant on a die whose array carries no turn of the tenant. -/
def State.givable (s : State) (t die : Nat) : Option Nat :=
  (s.cutOf t die).reverse.find? (fun f =>
    !s.arr.turn.any (fun e => flightOf e.1 == f && (s.ctx (s.barge e.2.holder).ctx).partition == t))

def State.tenantOf (s : State) (bid : Nat) : Nat := (s.ctx (s.barge bid).ctx).partition

/-- A flight starts to move (R340): it leaves the donor's cut and the donor's barges on it are pre-empted. -/
def State.startMove (s : State) (f : Nat) (src : Option Nat) (dst : Nat) : State :=
  let s : State := { s with whf := { s.whf with cut := tdel s.whf.cut f, moves := s.whf.moves ++ [⟨f, src, dst⟩] } }
  match src with
  | none => s
  | some t =>
    ((s.barges.filter (fun e => (e.2.st == .resident || s.keeps e.1 e.2) && flightOf e.2.core == f && s.tenantOf e.1 == t)).map
        (·.1)).foldl
      (fun s b => s.requestPreempt b) s

/-- Has a tenant a READY, or with `res` a resident, barge (on the die where it stands)? A READY barge counts on every
die that its tenant may use. -/
def State.active (s : State) (t die : Nat) (res : Bool) : Bool :=
  s.barges.any (fun e => s.tenantOf e.1 == t && (e.2.st == .ready || (res && e.2.st == .resident && dieOf e.2.core == die)))

def clampI (x lo hi : Int) : Int := max lo (min x hi)

/-- One tenant's entry of a weir period: its `want`, and its error, kept with 4,096 added. -/
def State.want (s : State) (die t : Nat) (r : Tenant) : Int × Nat :=
  if !s.active t die true then (r.min, 4096)
  else
    let served := tgetD 0 s.whf.served (t * 4 + die)
    let e0 : Int := Int.ofNat (tgetD 4096 s.whf.err (t * 4 + die)) - 4096
    let e := clampI (e0 + r.target - (served * 256 / 65536 : Nat)) (-4096) 4096
    (clampI (((r.target : Int) + e + 128) / 256) r.min r.max, (e + 4096).toNat)

/-- At most `n` moves of a period: a flight that no tenant holds is given first (notes/assumptions/15.md). -/
def State.weirMoves (s : State) (die : Nat) (wants : List (Nat × Int)) : Nat → State
  | 0 => s
  | n + 1 =>
    match wants.find? (fun w => decide ((s.holds w.1 die : Int) < w.2)) with
    | none => s
    | some w =>
      match (s.unowned die).getLast? with
      | some f => (s.startMove f none w.1).weirMoves die wants n
      | none =>
        match wants.findSome? (fun d =>
            if d.2 < ((s.cutOf d.1 die).length : Int) then (s.givable d.1 die).map (fun f => (d.1, f)) else none) with
        | some d => (s.startMove d.2 (some d.1) w.1).weirMoves die wants n
        | none => s

/-- A weir period on a die (R339). DEDUCED: a tenant that may not use the die, and holds flights of it still, wants none there
(R338; notes/assumptions/15.md). -/
def State.weir (s : State) (die : Nat) : State :=
  let ts := s.whf.tenants.filter (fun e => e.2.onDie die)
  let ws := ts.map (fun e => (e.1, s.want die e.1 e.2))
  let key (t : Nat) : Nat := t * 4 + die
  let err := ws.foldl (fun a w => tput 4096 a (key w.1) w.2.2) s.whf.err
  let last := (s.whf.lastServed.filter (fun e => e.1 % 4 != die)) 
  let last := (s.whf.served.filter (fun e => e.1 % 4 == die)).foldl (fun a e => tput 0 a e.1 e.2) last
  let s : State := { s with whf := { s.whf with
    err := err, lastServed := last, served := s.whf.served.filter (fun e => e.1 % 4 != die)
    nextWeir := tput 65536 s.whf.nextWeir die (tgetD 65536 s.whf.nextWeir die + 65536) } }
  s.weirMoves die (s.whf.tenants.map (fun e => (e.1, ((ws.find? (fun w => w.1 == e.1)).map (·.2.1)).getD 0))) 4

/-- The tenant of a die that receives a flight at once (R339): it has a READY barge and holds fewer than MIN. -/
def State.short (s : State) (die : Nat) : Option Nat :=
  (s.whf.tenants.find? (fun e => e.2.onDie die && s.active e.1 die false && decide (s.holds e.1 die < e.2.min))).map (·.1)

/-- The flight that it receives: one that no tenant holds, else of a tenant that holds more than its MIN, or any on a die that it may
not use. -/
def State.urgent (s : State) (die : Nat) : Option State :=
  match s.short die with
  | none => none
  | some t =>
    match (s.unowned die).getLast? with
    | some f => some (s.startMove f none t)
    | none =>
      s.whf.tenants.findSome? (fun e =>
        if (if e.2.onDie die then e.2.min else 0) < (s.cutOf e.1 die).length then (s.givable e.1 die).map (fun f => s.startMove f (some e.1) t) else none)

/-- The move of a flight that can end now (R340): no donor barge is resident on it, and its cores acknowledge, nothing that was released
there waiting behind a lease still (R197, R311). -/
def State.joinable (s : State) (f : Nat) : Option Move :=
  (s.whf.moves.find? (fun m => m.flight == f)).filter (fun m =>
    !s.barges.any (fun e => e.2.st == .resident && flightOf e.2.core == f && some (s.tenantOf e.1) == m.src) &&
      !s.barges.any (fun e => flightOf e.2.core == f && !e.2.late.isEmpty) &&
      !([0, 1, 2, 3] : List Nat).any (fun k => s.mem.leaseQ.any (fun r => r.byCore (4 * f + k))))

/-- The flight joins the receiver's cut; the donor's translations are gone from its four cores (R340, R311). -/
def State.join (s : State) (f : Nat) : State :=
  match s.joinable f with
  | none => s
  | some m =>
    let s := s.drainAll
    let mine (n : Node) : Bool := some (s.ctx n.ctx).partition == m.src
    let tc := s.mem.tcache.map (fun e =>
      if e.1 / 4 = f then (e.1, e.2.filter (fun (t : TEntry) => !mine t.node)) else e)
    { s with
      mem := { s.mem with tcache := tc.filter (fun e => !e.2.isEmpty) }
      whf := { s.whf with cut := tput 0 s.whf.cut f (m.dst + 1), moves := s.whf.moves.erase m } }

/-- Flight-cycles of one cycle (R333, R364): each flight counts for the tenant whose barges are resident on it. -/
def State.serve (s : State) : State :=
  let l := ((s.barges.filter (fun e => e.2.st == .resident)).map (fun e => (s.tenantOf e.1, flightOf e.2.core))).eraseDups
  l.foldl (fun s x => { s with
    whf := { s.whf with served := tupd 0 s.whf.served (x.1 * 4 + x.2 / 40) (· + 1) }
    hst := { s.hst with exact := tupd 0 s.hst.exact (x.1 * 8) (· + 1) } }) s

/-! ## The wharf's own steps -/

/-- `SLOT_DISPATCH` (R335, R337). -/
def execSlotDispatch (die : Nat) (s : State) : Out := .next ((s.stageNext die).getD s)
/-- `WEIR_PERIOD` (R339): at the end of a period; before it, a tenant below its MIN receives a flight. -/
def execWeirPeriod (die : Nat) (s : State) : Out :=
  .next (if tgetD 65536 s.whf.nextWeir die ≤ s.cycle then s.weir die else (s.urgent die).getD s)
/-- `FLIGHT_JOIN` (R340). -/
def execFlightJoin (flight : Nat) (s : State) : Out := .next (s.join flight)
/-- `SLOT_BOUNDARY` (R343). -/
def execSlotBoundary (s : State) : Out := .next (if s.slotAt s.now = s.whf.curSlot then s else s.slotTurn)

end Sys2Proof.Machine
end

