-- ==== Sys2Proof/Machine/System.lean ====
section
/-! DEFINITION. What happens to a barge from outside its own words: held operations that become possible (08_core_memory
R150, R151), the end of a lease (R165), a pre-emption that is taken (10_core_faults R195, R196), a request that meets a
lease (R163), translation leases (18_mapping R308, R310), a target that does not answer (21_host R357), and a view that
applies a write (09_core_ordering R177). Each abort comes at a boundary before the run in progress, none of whose results
stands (R127). -/

namespace Sys2Proof.Machine

/-! ## Held operations -/

/-- Can the held operation of a barge go on now? -/
def State.canGo (s : State) (bid : Nat) (b : Barge) (h : Held) : Bool :=
  match h.op with
  | .ldf _ wb off _ => (s.barge wb).isFull off && s.feFirst bid h
  | .ldfn _ wb off _ => (s.barge wb).isFull off && s.feFirst bid h
  | .ste wb off _ => !(s.barge wb).isFull off && s.feFirst bid h && !s.coreWaits bid b.core
  | .bwait wb off p => ((s.barge wb).barRec off).phase != p
  | .tlwait k n => decide (n ≤ (s.tl k).completed)
  | .ttwait t => (tgetD {} b.tileTab t).st == .ready
  | .recv none _ _ _ => true
  | .recv (some c) _ _ poll =>
    poll || (s.chan c).owner != some b.ctx || !(s.chan c).queue.isEmpty || !(s.chan c).waiters.contains bid
  | .call _ _ _ _ tok => tok.isNone && !s.coreWaits bid b.core
  | .amo _ wide sc _ _ pa vc _ _ =>
    let n := if wide then 8 else 4
    !s.blocked bid pa n &&
      (s.isIsolated pa || (match b.unanswered with
        | none => decide (s.effScope b.ctx sc = 0) || !s.coreWaits bid b.core
        | some (t, _) => (s.stalled vc pa n).isNone && s.answers t))

/-- A held operation is attempted once it can go on, full/empty ones in the order of their requests (R150). -/
def State.goOn (s : State) (bid : Nat) : State :=
  match s.barge? bid with
  | none => s
  | some b =>
    match b.held with
    | none => s
    | some h => if b.st == .resident && s.canGo bid b h then s.wakeHeld bid else s

/-! ## Leases, pre-emption, unanswered accesses -/

/-- Has a lease of a barge run out (R165)? -/
def State.leaseOut (s : State) (b : Barge) : Bool := b.st == .resident && b.leases.any (fun l => decide (l.until_ ≤ s.cycle))

/-- The region of a barge whose lease has run out aborts; of one that is being committed only the leases end (R14, R165). -/
def State.expire (s : State) (bid : Nat) : State :=
  let b := s.barge bid
  if !s.leaseOut b then s
  else if b.commit.isSome then (s.endLeases bid (fun b => { b with leases := [] })).goCommit bid
  else s.abortRegion bid

/-- May a requested pre-emption be taken (R195, R196): no lease is held, no region is being committed, no atomic is being performed? -/
def Barge.mayLeave (b : Barge) : Bool :=
  b.st == .resident && b.preempt && b.commit.isNone && b.leases.isEmpty && (b.suspended || b.held.isNone)

/-- A pre-emption is taken: a barge that waits at a suspension point is WAITING with its held operation, any other aborts
its region and is READY. -/
def State.preempted (s : State) (bid : Nat) : State :=
  let b := s.barge bid
  if !b.mayLeave then s
  else if b.suspended then s.leaveSlot bid
  else ((s.abortRegion bid).updB bid (fun b => { b with preempt := false })).makeReady bid

/-- The cycles of 1,024 µs (R357, notes/assumptions/3.md). -/
def hostTimeout : Nat := 3072000

/-- Has an access of a barge gone unanswered for 1,024 µs? -/
def State.unansweredOut (s : State) (b : Barge) : Option Nat :=
  match b.unanswered with
  | some (t, c) => if decide (t < 0x300) && decide (c + hostTimeout ≤ s.cycle) then some t else none
  | none => none

/-- The target is isolated; the access that waited now meets an isolated target and raises the poison fault (R357). -/
def State.accessTimeout (s : State) (bid : Nat) : State :=
  match s.unansweredOut (s.barge bid) with
  | none => s
  | some t =>
    let s := (s.isolateFor t 357).updB bid (fun b => { b with unanswered := none })
    s.goOn bid

/-! ## Translations (R308, R310) -/

/-- A walk fills a core's translation cache with the node that translates an address. -/
def State.walk (s : State) (core ctx va : Nat) : State :=
  match s.translate ctx va with
  | none => s
  | some (k, _, _) => s.fill core [k]

/-- Does a node translate as it did: neither withdrawn, moved nor changed (R310)? -/
def Node.translatesAs (n m : Node) : Bool := { n with parent := 0, stamp := 0 } == { m with parent := 0, stamp := 0 }

/-- Has the node of a lease been withdrawn, moved or changed (R310)? -/
def State.nodeGone (s : State) (t : TEntry) : Bool :=
  s.map.pending.any (fun p => p.nodes.contains t.key) || !(tget s.map.nodes t.key).any (fun n => n.translatesAs t.node)

/-- The translation lease of a party on a node, where it has come to its end. -/
def State.tleaseOut (s : State) (party k : Nat) : Option TEntry :=
  (tgetD [] s.mem.tcache party).find? (fun t => t.key == k && s.leaseGone t)

/-- A translation lease ends: it is renewed while a resident region of the core uses a node that stands; else it is
gone, and a region that uses a node withdrawn, moved or changed aborts. -/
def State.tleaseEnd (s : State) (party k : Nat) : State :=
  match s.tleaseOut party k with
  | none => s
  | some t =>
    let l := tgetD [] s.mem.tcache party
    let dropped := s.setTcache party (l.filter (fun e => e.key != k))
    if s.nodeGone t then dropped.abortUsers party [k]
    else if s.barges.any (fun e => e.2.core == party && e.2.usesAny [k]) then
      s.setTcache party (l.map (fun e => if e.key = k then { e with ends := s.cycle + s.map.tlease } else e))
    else dropped

/-! ## The steps -/

/-- `FE_HELD_PERFORM` (R150, R151): a held operation that can go on is attempted. -/
def execFeHeldPerform (b : Nat) (s : State) : Out := .next (s.goOn b)
/-- `LEASE_EXPIRY` (R165). -/
def execLeaseExpiry (b : Nat) (s : State) : Out := .next (s.expire b)
/-- `PREEMPTION` (R195). -/
def execPreemption (b : Nat) (s : State) : Out := .next (s.preempted b)
/-- `BACK_INVALIDATE` (R163). -/
def execBackInvalidate (core granule : Nat) (drop : Bool) (s : State) : Out := .next (s.request (.inval core granule drop))
/-- `TRANSLATION_WALK` (R308). -/
def execTranslationWalk (core ctx va : Nat) (s : State) : Out := .next (s.walk core ctx va)
/-- `TRANSLATION_LEASE_EXPIRY` (R310). -/
def execTranslationLeaseExpiry (core node : Nat) (s : State) : Out := .next (s.tleaseEnd core node)
/-- `HOST_ACCESS_TIMEOUT` (R357). -/
def execHostAccessTimeout (b : Nat) (s : State) : Out := .next (s.accessTimeout b)
/-- `VIEW_APPLIES_WRITE` (R175, R177): a write that the view of a die does not hold yet goes a stage further toward it. -/
def execViewAppliesWrite (die k : Nat) (s : State) : Out := .next (s.setMem (s.mem.move die k))

end Sys2Proof.Machine
end

