-- ==== Sys2Proof/Machine/Host.lean ====
section
/-! DEFINITION. The host edge (21_host R348 to R359): the notify page, reading, checking and passing packets, their
completion and interrupts, the ADMIN operations, and the accesses of the hosts to device memory. -/

namespace Sys2Proof.Machine

/-! ## Queues -/

def qiOf (port q : Nat) : Nat := port * 64 + q
def State.hq (s : State) (qi : Nat) : HQueue := tgetD {} s.hst.queues qi
def State.setHq (s : State) (qi : Nat) (q : HQueue) : State := { s with hst := { s.hst with queues := tset s.hst.queues qi q } }
/-- The timeline of a queue interface (R15). -/
def qKey (qi : Nat) : Nat := tlKey 4 qi
def State.setPackets (s : State) (l : List Packet) : State := { s with hst := { s.hst with packets := l } }

/-! ## Packets (R353, R359) -/

/-- TYPE of a packet, and 100 + subcode of an ADMIN packet. -/
def packetKind (w : List Word) : Nat :=
  let t := (w.getD 0 0).toNat % 256
  if t = 5 then 100 + (w.getD 1 0).toNat % 256 else t

/-- A target operand (R359): a value that names a target. -/
def targetCode (x : Nat) : Bool :=
  decide (x < 16) || x == 0x100 || x == 0x101 || (decide (0x200 ≤ x) && decide (x < 0x210))

/-- Word `i` of a packet below a bound. -/
def below (w : List Word) (i n : Nat) : Bool := decide ((w.getD i 0).toNat < n)

/-- The bits of an ADMIN packet's operands that the table assigns (R359): no other is set. DESIGN CHOICE: STATE (bits 25:24) of
CTXCREATE's CTL word is assigned and has no effect, whatever its code, since the packet itself makes the context live; the vector
of INTRSET has 11 bits, since a port has 2,048 (R348, R355) (notes/assumptions/25.md). -/
def adminBits (w : List Word) : Bool :=
  let x (i : Nat) : Nat := (w.getD i 0).toNat
  let zero (l : List Nat) : Bool := l.all (fun i => x i == 0)
  let port := below w 2 2
  match x 1 with
  | 1 => bits (x 2) 26 38 == 0 && below w 5 (2 ^ 32) && zero [6, 7]
  | 2 => below w 2 4096 && zero [3, 4, 5, 6, 7]
  | 3 => port && below w 3 64 && below w 5 (2 ^ 20) && below w 6 4096 && below w 7 8
  | 4 => port && below w 3 64 && zero [4, 5, 6, 7]
  | 5 => port && below w 3 64 && zero [4, 5, 6, 7]
  | 6 => below w 2 256 && below w 3 4 && below w 4 8192 && zero [5, 6, 7]
  | 7 =>
    below w 2 256 && bits (x 3) 22 2 == 0 && bits (x 3) 30 2 == 0 && bits (x 3) 35 1 == 0 && bits (x 3) 40 24 == 0 &&
      zero [4, 5, 6, 7]
  | 8 => below w 2 64 && zero [7]
  | 9 => below w 2 4096 && below w 3 1024 && bits (x 4) 31 1 == 0 && bits (x 4) 48 15 == 0 && zero [6, 7]
  | 10 => below w 2 65536 && below w 3 4096 && zero [4, 5, 6, 7]
  | 11 => targetCode (x 2) && zero [3, 4, 5, 6, 7]
  | 12 => below w 4 2 && zero [5, 6, 7]
  | 13 => port && below w 3 2048 && below w 4 2048 && below w 5 (2 ^ 20) && below w 6 2 && zero [7]
  | 14 => port && zero [5, 6, 7]
  | 15 => targetCode (x 2) && zero [6, 7]
  | 16 => below w 2 65536 && below w 3 16 && below w 4 65536 && below w 5 (2 ^ 18) && below w 6 2 && zero [7]
  | 17 => below w 2 16 && below w 3 4096 && bits (x 6) 2 14 == 0 && bits (x 6) 32 32 == 0
  | _ => false

/-- Has the CTL or the AFF word of a spawn a reserved bit set? A core above 639 counts as one (R321, R331). -/
def spawnBits (ctl aff : Word) : Bool := decide (2 ^ 17 ≤ ctl.toNat) || !affOk aff

/-- Step 2 of R353: is a bit or a TYPE set that may not be? -/
def packetBad (ctx : Nat) (w : List Word) : Bool :=
  let h := (w.getD 0 0).toNat
  let zero (l : List Nat) : Bool := l.all (fun i => w.getD i 0 == 0)
  bits h 9 3 != 0 || bits h 32 32 != 0 ||
    (match h % 256 with
     | 1 => !zero [7] || spawnBits (w.getD 2 0) (w.getD 6 0)
     | 2 => !zero [7] || spawnBits (w.getD 2 0) (w.getD 6 0)
     | 3 => !zero [1, 2, 3, 4, 5, 6, 7]
     | 4 => bits (w.getD 1 0).toNat 48 6 != 0 || !below w 2 (2 ^ 48) || !below w 3 2 || !zero [4, 5, 6, 7]
     | 5 => ctx != 0 || !adminBits w
     | _ => true)

/-- The status of the host edge's own check (R353, R361): 10 PASID, 2 REFUSED, 0 where the packet proceeds. -/
def HQueue.check (q : HQueue) (w : List Word) : Nat :=
  if bits (w.getD 0 0).toNat 12 20 != q.pasid || q.revoked || q.tdi == .locked || q.tdi == .error then 10
  else if packetBad q.ctx w then 2 else 0

/-! ## Completion (R354, R355) -/

/-- The oldest interrupt of a queue that has not been sent. -/
def State.nextIrq (s : State) (qi : Nat) : Option Nat :=
  (s.hst.irqs.filter (fun e => e.1 == qi)).foldl (fun (m : Option Nat) e =>
    match m with | none => some e.2 | some x => some (min x e.2)) none

/-- One interrupt is sent, or dropped and logged (R355). -/
def State.interrupt (s : State) (qi : Nat) : State :=
  let q := s.hq qi
  let port := qi / 64
  let r := tgetD {} s.hst.remap (port * 2048 + q.intr)
  if q.intrEn && r.en && r.pasid == q.pasid then
    { s with hst := { s.hst with interrupts := s.hst.interrupts ++ [(port, r.vector)] } }
  else s.logEvent port evIntDrop (qi % 64) q.intr

/-- Can a queue's next interrupt, number `k`, be sent: its number is complete, and every record that the port has written has
reached host memory (R354)? -/
def State.irqDue (s : State) (qi k : Nat) : Bool := (s.tl (qKey qi)).finished k && !s.edgeBusy (qi / 64)

/-- Interrupts of a queue are sent in number order, each after its record (R354, R355). -/
def State.sendIrqs (s : State) (qi : Nat) : Nat → State
  | 0 => s
  | n + 1 =>
    match s.nextIrq qi with
    | none => s
    | some k =>
      if s.irqDue qi k then
        let s : State := { s with hst := { s.hst with irqs := s.hst.irqs.erase (qi, k) } }
        (s.interrupt qi).sendIrqs qi n
      else s

/-- A packet's number completes: its record, through ATS (R353), then its interrupt (R354, R355, R19). A refused one, or one of a wrong PASID, is
logged. -/
def State.completePacket (s : State) (qi n status extra : Nat) : State :=
  let s := s.drainAll
  let s := if status = 2 ∨ status = 10 then s.logEvent (qi / 64) evPktRef (qi % 64) n else s
  let q := s.hq qi
  let a := q.cpl + 16 * (n % 256)
  let s := (s.atsUse (qi / 64) q.pasid a).hostWrite (qi / 64) (s.ats (qi / 64) q.pasid a)
    (leBytes 8 n ++ leBytes 4 status ++ leBytes 4 extra)
  let s := s.setPackets (s.hst.packets.filter (fun p => !(p.qi == qi && p.n == n)))
  (s.finish (qKey qi) n status).sendIrqs qi (s.hst.irqs.length)

/-! ## Reading (R351, R352) -/

/-- Is a RESETQ of a queue waiting for the queue's numbers (R359)? -/
def State.stopped (s : State) (qi : Nat) : Bool :=
  s.hst.packets.any (fun p => p.passed && packetKind p.words == 104 &&
    qiOf (p.words.getD 2 0).toNat (p.words.getD 3 0).toNat == qi)

/-- The host address of the entry at a queue's HEAD, through ATS under the queue's PASID (R353). -/
def State.entryAddr (s : State) (qi : Nat) : Nat := let q := s.hq qi; s.ats (qi / 64) q.pasid (q.ring + 64 * q.head)

/-- Does a queue interface hold unread entries: up to TAIL, or from before a TAIL that ran round the ring (R351)? -/
def HQueue.unread (q : HQueue) : Bool := q.head != q.tail || decide (0 < q.lapped)

/-- The queue whose turn it is at a port: the highest priority among those with unread packets, then round-robin, one packet a turn
(R352). -/
def State.turnOf (s : State) (port : Nat) : Option Nat :=
  let l := (List.range 64).filter (fun q =>
    let h := s.hq (qiOf port q)
    h.bound && h.unread && !s.stopped (qiOf port q))
  let top := l.foldl (fun m q => max m (s.hq (qiOf port q)).prio) 0
  let c := l.filter (fun q => (s.hq (qiOf port q)).prio == top)
  match c.find? (fun q => decide (tgetD 0 s.hst.lastRead (port * 8 + top) ≤ q)) with | some q => some q | none => c.head?

/-- The queue that a port reads from next: that whose turn it is, once the read of its entry is answered. -/
def State.readTurn (s : State) (port : Nat) : Option Nat :=
  (s.turnOf port).filter (fun q => !s.edgeWaits port (s.entryAddr (qiOf port q)) 64)

/-- HEAD past the entry that it stands at. An entry read where HEAD meets TAIL is one of a whole ring that a TAIL ran over. -/
def HQueue.advance (q : HQueue) : HQueue :=
  { q with head := (q.head + 1) % 2 ^ q.logsize, lapped := if q.head = q.tail then q.lapped - 2 ^ q.logsize else q.lapped }

/-- The entry at a queue's HEAD. -/
def State.entryAt (s : State) (qi : Nat) : List Word :=
  wordsOf 8 (s.hostRead (qi / 64) (s.entryAddr qi) 64)

/-- The host edge reads a queue's next packet: it takes a number, and is refused or waits to be passed (R18 steps 1, 2). -/
def State.consume (s : State) (qi : Nat) : State :=
  let q := s.hq qi
  let w := s.entryAt qi
  let s := (s.atsUse (qi / 64) q.pasid (q.ring + 64 * q.head)).setHq qi q.advance
  let s : State := { s with hst := { s.hst with lastRead := tput 0 s.hst.lastRead (qi / 64 * 8 + q.prio) (qi % 64 + 1) } }
  let r := s.reserve (qKey qi) q.ctx
  let n := r.1
  let s : State := if bits (w.getD 0 0).toNat 8 1 = 1 then
      { r.2 with hst := { r.2.hst with irqs := r.2.hst.irqs ++ [(qi, n)] } } else r.2
  let st := q.check w
  if st ≠ 0 then s.completePacket qi n st 0
  else s.setPackets (s.hst.packets ++ [{ qi := qi, n := n, words := w }])

/-- A write of `size` bytes at an offset of a port's notify page (R351): nothing while no verified image is held (R360). A TAIL
that runs round the ring over unread entries adds a whole ring to what is to be consumed, one entry a turn, before the entries up to it
(R352; notes/assumptions/25.md). -/
def State.notify (s : State) (port off size : Nat) (v : Word) : State :=
  let qi := qiOf port (off / 64)
  let q := s.hq qi
  if !s.tru.verified then s
  else if size != 8 || off % 64 != 0 || decide (4096 ≤ off) || !q.bound || decide (65536 ≤ v.toNat) then
    s.logEvent port evNotify (off / 64) off
  else
    let n := 2 ^ q.logsize
    let t := v.toNat % n
    let round := decide (n ≤ (q.tail + n - q.head) % n + (t + n - q.tail) % n)
    s.setHq qi { q with tail := t, lapped := if round then q.lapped + n else q.lapped }

/-! ## ADMIN (R359) -/

/-- An interface enters ERROR (R361): TDIERR is logged and its context dies. -/
def State.tdiError (s : State) (qi cause : Nat) : State :=
  let q := s.hq qi
  let zero := s.zeroOf (s.ownGone q.ctx)
  let s := (s.setHq qi { q with tdi := .error }).logEvent (qi / 64) evTdiErr (qi % 64) (Config.causeCode evTdiErr cause)
  s.killCtx q.ctx zero

/-- An attempt on a queue whose interface is not in CONFIG_UNLOCKED: refused; on a frozen item it enters ERROR (R361). -/
def State.frozen (s : State) (qi : Nat) : Option (Nat × State) :=
  match (s.hq qi).tdi with
  | .unlocked => none
  | .error => some (2, s)
  | _ => some (2, s.tdiError qi 1)

/-- CTXCREATE: the context is live, with a fresh key and timelines at zero (R15, R282, R362). -/
def State.ctxcreate (s : State) (w : List Word) : Nat × State :=
  let x (i : Nat) : Nat := (w.getD i 0).toNat
  let c := bits (x 2) 0 12
  if (s.ctx c).st != .free || decide (5 < bits (x 2) 20 3) then (2, s)
  else
    let r : Ctx := { partition := bits (x 2) 12 8, scope := bits (x 2) 20 3, measured := bits (x 2) 23 1 == 1, st := .live
                     flights := x 3 + x 4 * 2 ^ 64 + x 5 * 2 ^ 128 }
    let s := s.updCtx c (fun _ => r)
    let tls := (tdel s.tls (tlKey 3 c)).map (fun e => (e.1, { e.2 with latest := tdel e.2.latest c }))
    let ps := s.hst.packets.map (fun p => { p with cmds := p.cmds.filter (fun e => e.1 != tlKey 3 c) })
    (0, { (s.setPackets ps) with
      tls := tls, fresh := s.fresh + 1
      tru := { s.tru with keys := tset s.tru.keys c s.fresh }
      whf := { s.whf with errs := tdel s.whf.errs c } })

/-- CTXDESTROY (R307). -/
def State.ctxdestroy (s : State) (c : Nat) : Nat × State :=
  if c == 0 || (s.ctx c).st != .live then (2, s) else (0, s.killCtx c)

/-- The QCB in the host's layout (R350). -/
def HQueue.bytes (q : HQueue) : List Byte :=
  leBytes 8 q.ring ++ leBytes 8 q.logsize ++ leBytes 8 q.cpl ++ leBytes 8 (q.intr + q.intrEn.toNat * 2048) ++
    leBytes 8 q.pasid ++ leBytes 8 (q.ctx + q.prio * 4096) ++ List.replicate 16 0

/-- BINDQ (R350). DEDUCED: the interface keeps its timeline over a rebind (R15, R16, notes/assumptions/25.md). -/
def State.bindQ (s : State) (w : List Word) : Nat × State :=
  let x (i : Nat) : Nat := (w.getD i 0).toNat
  let port := x 2
  let qi := qiOf port (x 3)
  match s.frozen qi with
  | some r => r
  | none =>
    let q := s.hq qi
    let c := wordsOf 8 (s.hostRead port (x 4) 64)
    let y (i : Nat) : Nat := (c.getD i 0).toNat
    if (q.bound && !q.revoked) || !hostAddrOk (x 4) || y 0 % 4096 != 0 || !hostAddrOk (y 0) || decide (y 1 < 4) ||
        decide (16 < y 1) || y 2 % 4096 != 0 || !hostAddrOk (y 2) || decide (4096 ≤ y 3) || y 6 != 0 || y 7 != 0 then (2, s)
    else
      (0, s.setHq qi { bound := true, qcb := x 4, ring := y 0, logsize := y 1, cpl := y 2, intr := bits (y 3) 0 11,
                       intrEn := bits (y 3) 11 1 == 1, pasid := x 5, ctx := x 6, prio := x 7 })

/-- The packets of a queue that have not passed to the wharf complete RESET. -/
def State.resetLine (s : State) (qi : Nat) : State :=
  ((s.hst.packets.filter (fun p => p.qi == qi && !p.passed)).map (·.n)).foldl (fun s n => s.completePacket qi n 11 0) s

/-- Entries that a TAIL ran over, and that count as consumed (R351), take their numbers and complete RESET. -/
def State.resetLapped (s : State) (qi : Nat) : Nat → State
  | 0 => s
  | n + 1 => let r := s.reserve (qKey qi) (s.hq qi).ctx; (r.2.completePacket qi r.1 11 0).resetLapped qi n

/-- RESETQ begins (R359): unpassed numbers complete RESET, unread entries are discarded, the QCB is compared. DEDUCED: unread entries
that a TAIL ran over have been consumed (R351), and their numbers complete RESET too (notes/assumptions/25.md). -/
def State.resetQ (s : State) (port q : Nat) : Nat × State :=
  let qi := qiOf port q
  if !(s.hq qi).bound || (s.hq qi).tdi != .unlocked then (2, s)
  else
    let s := (s.resetLine qi).resetLapped qi (s.hq qi).lapped
    let h := s.hq qi
    let s := s.setHq qi { h with head := h.tail, lapped := 0 }
    let there := s.hostRead port h.qcb 64
    let diff := ((List.zipWith (fun a b => decide (a ≠ b)) there h.bytes).zipIdx.map (fun e => e.1.toNat * 2 ^ e.2)).sum
    let s := if diff = 0 then s else s.logEvent port evQcbMis q diff
    (0, s.hostWrite port (h.qcb + 32) ((h.bytes.drop 32).take 16))

/-- UNBINDQ. -/
def State.unbindQ (s : State) (port q : Nat) : Nat × State :=
  let qi := qiOf port q
  match s.frozen qi with
  | some r => r
  | none => if (s.hq qi).bound then (0, s.setHq qi { s.hq qi with revoked := true }) else (2, s)

/-- SETLIMIT (R258). -/
def State.setLimit (s : State) (part die limit : Nat) : Nat × State :=
  (0, { s with com := { s.com with limit := tput 0 s.com.limit (part * 4 + die) limit } })

/-- TENANT (R338): refused where MIN or MAX breaks its range or the MIN sum of a die exceeds 40. -/
def State.setTenant (s : State) (part v : Nat) : Nat × State :=
  let r : Tenant := { target := bits v 0 16, min := bits v 16 6, max := bits v 24 6, primax := bits v 32 3, dies := bits v 36 4 }
  let ts := tput {} s.whf.tenants part r
  let sum (die : Nat) : Nat := ((ts.filter (fun e => e.2.onDie die)).map (fun e => e.2.min)).sum
  if 40 < r.min ∨ r.max < r.min ∨ 40 < r.max ∨ (List.range 4).any (fun d => decide (40 < sum d)) then (2, s)
  else (0, { s with whf := { s.whf with tenants := ts } })

/-- SLOTSET (R341). -/
def State.setSlot (s : State) (k : Nat) (w : List Word) : Nat × State :=
  let x (i : Nat) : Nat := (w.getD i 0).toNat
  let v : BitVec 256 := BitVec.ofNat 256 (x 3 + x 4 * 2 ^ 64 + x 5 * 2 ^ 128 + x 6 * 2 ^ 192)
  (0, { s with whf := { s.whf with slots := tput (BitVec.allOnes 256) s.whf.slots k v } })

/-- EPSET (R285): GEN advances over a valid slot. -/
def State.epSet (s : State) (c slot v : Nat) (badge : Word) : Nat × State :=
  if slot == 0 || (s.ctx c).st != .live then (2, s)
  else
    let old := tgetD {} s.map.eps (epKey c slot)
    let e : Endpoint := { chan := bits v 0 16, tctx := bits v 16 12, s := bits v 28 1 == 1, m := bits v 29 1 == 1
                          g := bits v 30 1 == 1, gen := if old.valid then (old.gen + 1) % 65536 else old.gen
                          valid := true, badge := badge }
    (0, { s with map := { s.map with eps := tset s.map.eps (epKey c slot) e } })

/-- CHOWN (R286): barges of another context wait there no longer (R298, R326). -/
def State.chown (s : State) (chan owner : Nat) : Nat × State :=
  let out := (s.chan chan).waiters.filter (fun b => (s.barge b).ctx != owner)
  let s := s.updChan chan (fun c => { c with owner := some owner, waiters := c.waiters.filter (fun b => !out.contains b) })
  (0, out.foldl (fun s b => s.seekReady b) s)

/-- UNISOLATE (R357, R219): the discard count is reported and starts again at zero. -/
def State.unisolate (s : State) (t : Nat) : State :=
  { s with slu := { s.slu with isolated := tdel s.slu.isolated t, discards := tdel s.slu.discards t } }

/-- The granules of a range of 64 KiB blocks. -/
def inBlocks (first count g : Nat) : Bool := decide (first * 1024 ≤ g) && decide (g < (first + count) * 1024)

/-- BIAS (R358): towards the host, the lines and L1 copies of the blocks are written back and invalidated. -/
def State.setBias (s : State) (first count st : Nat) : Nat × State :=
  if 12582912 < first + count then (2, s)
  else
    let b := fillTab false s.hst.bias first count (st == 1)
    let s : State := { s with hst := { s.hst with bias := b } }
    (0, if st = 0 then s
      else
        let s := s.setL1 (s.mem.l1.filter (fun e => !inBlocks first count (e.1 % 2 ^ 46)))
        s.setLines (s.com.lines.filter (fun e => !(e.2.dirty && inBlocks first count (e.1 % 2 ^ 46)))))

/-- INTRSET (R355): accepted where every interface that names the entry is in CONFIG_UNLOCKED; each that has it frozen enters
ERROR (R361). -/
def State.intrset (s : State) (w : List Word) : Nat × State :=
  let x (i : Nat) : Nat := (w.getD i 0).toNat
  let used := (s.hst.queues.filter (fun e => e.1 / 64 == x 2 && e.2.bound && e.2.intr == x 3 && e.2.tdi != .unlocked)).map (·.1)
  if !used.isEmpty then
    (2, used.foldl (fun s k => if (s.hq k).tdi == .locked || (s.hq k).tdi == .run then s.tdiError k 1 else s) s)
  else
    (0, { s with hst := { s.hst with remap := tset s.hst.remap (x 2 * 2048 + x 3) ⟨x 4, x 5, x 6 == 1⟩ } })

/-- EVRING (R356): E is a power of two from 64 to 65,536. -/
def State.evring (s : State) (port base n : Nat) : Nat × State :=
  if base % 4096 != 0 || !hostAddrOk base || !((List.range 11).any (fun k => n == 2 ^ (k + 6))) then (2, s)
  else (0, (s.hostWrite port base (List.replicate 64 0)).setRing port { base := base, entries := n })

/-- INJECT: the injection is due after its delay, three cycles to a nanosecond (notes/assumptions/3.md). -/
def State.injectOp (s : State) (t addr kind delay : Nat) : Nat × State :=
  if !Config.injectEnabled s.tru.image || (kind != 1 && kind != 2) then (2, s)
  else (0, { s with hst := { s.hst with injections := s.hst.injections ++ [⟨t, addr, kind, s.cycle + 3 * delay⟩] } })

/-- PEERSET (R368, R349): the first that enables an entry creates the peer's root node. -/
def State.peerset (s : State) (mid j peer mask : Nat) (en : Bool) : Nat × State :=
  let nodes := if en && (tget s.map.nodes (28 + j)).isNone then
      tset s.map.nodes (28 + j) (rootNode (0x500000000 + j * 0x10000000) 0x10000000 false) else s.map.nodes
  (0, { s with
    lnk := { s.lnk with mid := mid, peers := tput {} s.lnk.peers j ⟨peer, mask, en⟩ }
    map := { s.map with nodes := nodes } })

/-- EXPORT (R369). -/
def State.exportSet (s : State) (w : List Word) : Nat × State :=
  let x (i : Nat) : Nat := (w.getD i 0).toNat
  let nchan := bits (x 6) 16 16
  if (s.chan nchan).owner != some (x 3) || x 4 % 4096 != 0 || x 5 % 4096 != 0 || decide (2 ^ 40 < x 5) then (2, s)
  else
    let e : Export := { ctx := x 3, base := x 4, size := x 5, r := bits (x 6) 0 1 == 1, w := bits (x 6) 1 1 == 1
                        nchan := nchan, badge := w.getD 7 0 }
    (0, { s with lnk := { s.lnk with exports := tset s.lnk.exports (x 2) e } })

/-- An ADMIN packet's effect: its status, bytes 12 to 15 of its record, the new state (R359). -/
def State.admin (s : State) (w : List Word) : Nat × Nat × State :=
  let x (i : Nat) : Nat := (w.getD i 0).toNat
  let no (r : Nat × State) : Nat × Nat × State := (r.1, 0, r.2)
  match x 1 with
  | 1 => no (s.ctxcreate w)
  | 2 => no (s.ctxdestroy (x 2))
  | 3 => no (s.bindQ w)
  | 4 => no (s.resetQ (x 2) (x 3))
  | 5 => no (s.unbindQ (x 2) (x 3))
  | 6 => no (s.setLimit (x 2) (x 3) (x 4))
  | 7 => no (s.setTenant (x 2) (x 3))
  | 8 => no (s.setSlot (x 2) w)
  | 9 => no (s.epSet (x 2) (x 3) (x 4) (w.getD 5 0))
  | 10 => no (s.chown (x 2) (x 3))
  | 11 => (0, min (tgetD 0 s.slu.discards (x 2)) (2 ^ 32 - 1), s.unisolate (x 2))
  | 12 => no (s.setBias (x 2) (x 3) (x 4))
  | 13 => no (s.intrset w)
  | 14 => no (s.evring (x 2) (x 3) (x 4))
  | 15 => no (s.injectOp (x 2) (x 3) (x 4) (x 5))
  | 16 => no (s.peerset (x 2) (x 3) (x 4) (x 5) (x 6 == 1))
  | _ => no (s.exportSet w)

/-! ## Passing (R18 step 3, R344) -/

/-- The first packet of a queue that has not passed to the wharf. -/
def State.lineHead (s : State) (qi : Nat) : Option Packet := s.hst.packets.find? (fun p => p.qi == qi && !p.passed)

/-- The key under which the packets of a queue wait for leases. -/
def pktWait (qi : Nat) : Nat := 2 ^ 129 + qi

/-- The granules that a MAINT packet, or BIAS, has to wait for (R163). -/
def State.packetWaits (s : State) (p : Packet) : List Nat :=
  let x (i : Nat) : Nat := (p.words.getD i 0).toNat
  match packetKind p.words with
  | 4 => s.maintWaits (pktWait p.qi) (s.hq p.qi).ctx (x 1) (x 2) (x 3 == 1)
  | 112 => if x 4 = 1 then s.awaits (pktWait p.qi) (inBlocks (x 2) (x 3)) else []
  | _ => []

/-- The QCB that a BINDQ or RESETQ packet reads from host memory (R350): port and address. -/
def State.qcbRead (s : State) (w : List Word) : Option (Nat × Nat) :=
  let x (i : Nat) : Nat := (w.getD i 0).toNat
  let q := s.hq (qiOf (x 2) (x 3))
  match packetKind w with
  | 103 => if q.tdi == .unlocked && (!q.bound || q.revoked) && hostAddrOk (x 4) then some (x 2, x 4) else none
  | 104 => if q.tdi == .unlocked && q.bound then some (x 2, q.qcb) else none
  | _ => none

/-- Does a packet need a composer on a die that serves nothing (R277, R366), or a record or QCB whose read is not answered (R277, R359,
R163)? -/
def State.packetStuck (s : State) (p : Packet) : Bool :=
  let k := packetKind p.words
  (s.qcbRead p.words).any (fun e => s.edgeWaits e.1 e.2 64) ||
  ((k == 1 || k == 2) && s.recStopped (s.hq p.qi).ctx (k == 2) ((p.words.drop 1).take 6)) ||
  k == 4 && s.comStopped (tget s.com.vc (bits (p.words.getD 1 0).toNat 54 10)) none

/-- May a packet pass now: ORDER, MAINT and ADMIN after every earlier number of the queue has completed, a dispatch after
every earlier one of those. -/
def State.mayPass (s : State) (p : Packet) : Bool :=
  let k := packetKind p.words
  let w := s.packetWaits p
  if k ≤ 2 then !s.packetStuck p && !s.hst.packets.any (fun o => o.qi == p.qi && decide (o.n < p.n) && decide (2 < packetKind o.words))
  else
    decide (p.n ≤ (s.tl (qKey p.qi)).completed + 1) &&
      (w.isEmpty || s.requeues (pktWait p.qi) w) && !s.packetStuck p

/-- A packet is passed to the wharf, or performed by the host edge. -/
def State.passNow (s : State) (p : Packet) : State :=
  let q := s.hq p.qi
  let mark (s : State) : State := s.updPacket p.qi p.n (fun x => { x with passed := true })
  let s := s.drainAll
  match packetKind p.words with
  | 1 =>
    let s := mark s
    let r := s.create q.ctx false ((p.words.drop 1).take 6) (some (p.qi, p.n))
    if r.1 = 0 then r.2 else r.2.completePacket p.qi p.n r.1 0
  | 2 =>
    let s := mark s
    let r := s.create q.ctx true ((p.words.drop 1).take 6) (some (p.qi, p.n))
    if r.1 = 0 then r.2 else r.2.completePacket p.qi p.n r.1 0
  | 3 => s.completePacket p.qi p.n 0 0
  | 4 =>
    let drop := p.words.getD 3 0 == 1
    let v := (p.words.getD 1 0).toNat
    let len := (p.words.getD 2 0).toNat
    let st := s.rangeStatus (s.ctx q.ctx).partition v len drop
    (if st = 0 then s.maintain q.ctx v len drop else s).completePacket p.qi p.n st 0
  | k =>
    -- a RESETQ completes once every number of the queue has completed, a CTXDESTROY once the context is free
    let s := mark s
    let r := s.admin p.words
    if (k = 104 ∨ k = 102) ∧ r.1 = 0 then r.2.2 else r.2.2.completePacket p.qi p.n r.1 r.2.1

/-- A packet passes, or queues behind a lease. -/
def State.pass (s : State) (p : Packet) : State :=
  ((s.behindLeases (pktWait p.qi) (s.packetWaits p) (fun s => s.passNow p)).getD s)

/-! ## Packet completion (R18 step 9, R329, R359) -/

/-- Can a packet that has passed complete? -/
def State.packetDone (s : State) (p : Packet) : Bool :=
  p.passed &&
    (if packetKind p.words == 104 then
      let t := qiOf (p.words.getD 2 0).toNat (p.words.getD 3 0).toNat
      s.hst.packets.all (fun o => o.qi != t || (o.qi == p.qi && o.n == p.n))
    else if packetKind p.words == 102 then (s.ctx (p.words.getD 2 0).toNat).st != .dying
    else
      s.barges.all (fun e => e.2.packet != some (p.qi, p.n) || (e.2.st == .ended && !e.2.owes)) &&
        p.cmds.all (fun c => (s.tl c.1).finished c.2))

/-- A packet's number completes. -/
def State.packetEnd (s : State) (qi n : Nat) : State :=
  match s.hst.packets.find? (fun p => p.qi == qi && p.n == n) with
  | none => s
  | some p => if s.packetDone p then s.completePacket qi n (if p.faulted then 9 else 0) 0 else s

/-- What the host edge does next with a packet of kind `k` on a queue: it passes the queue's first consumed one, or reads
the next where it is the queue's turn. -/
def State.hostStep (s : State) (k port q : Nat) : State :=
  let qi := qiOf port q
  match (s.lineHead qi).filter (fun p => packetKind p.words == k && s.mayPass p) with
  | some p => s.pass p
  | none => if s.readTurn port = some q ∧ packetKind (s.entryAt qi) = k then s.consume qi else s

/-! ## Host accesses (R348, R358, R361) -/

/-- The device memory that a host reaches (R348). -/
def hdmEnd : Nat := 0xBFC0000000

/-- The L1 copies that hold a granule of a range alone are back-invalidated (R358). -/
def State.backInvalidate (s : State) (pa n : Nat) : State :=
  ((s.mem.l1.filter (fun e => e.2 != .s && (granules pa n).contains (e.1 % 2 ^ 46))).map (·.1)).foldl
    (fun s k => s.request (.inval (k / 2 ^ 46) (k % 2 ^ 46) true)) s

/-- The requests of a host's access, one for each granule (R163). -/
def State.hostRequests (s : State) (port : Nat) (wr : Bool) (pa : Nat) (data : List Byte) : State :=
  (cutGrans pa data).foldl (fun s e => s.request (if wr then .hostWrite port e.1 e.2 else .hostRead port e.1 e.2.length)) s

/-- One access of a host that lies in one page. -/
def State.hostTouch (s : State) (port : Nat) (wr : Bool) (pa : Nat) (data : List Byte) : State :=
  if s.confGranule (pa / 4096) then
    let s := s.logEvent port evHostRej (pa / 4096) (pa / 4096)
    if wr then s
    else { s with hst := { s.hst with reads := s.hst.reads ++ [(port, List.replicate data.length 255)] } }
  else
    (if tgetD false s.hst.bias (pa / 65536) then s else s.backInvalidate pa data.length).hostRequests port wr pa data

/-- A host's access of the bytes from a physical address; a read asks for as many as `data` holds, and its answers come granule by
granule. In its own window it is an access of its own memory (R18 step 1, R349); below the end of the HDM range a CXL.mem access, which does nothing while no verified image is held
(R360). -/
def State.hostAccess (s : State) (port : Nat) (wr : Bool) (pa : Nat) (data : List Byte) : State :=
  if data.isEmpty then s
  else if targetOf pa = some (0x100 + port) ∧ targetOf (pa + data.length - 1) = some (0x100 + port) then
    s.hostRequests port wr pa data
  else if !s.tru.verified || decide (hdmEnd < pa + data.length) then s
  else
    ((rangePages pa data.length).foldl (fun (a : State × List Byte) r =>
      (a.1.hostTouch port wr r.1 (a.2.take r.2), a.2.drop r.2)) (s, data)).1

/-- An injection takes effect (R359). -/
def State.injectNow (s : State) (k : Nat) : State :=
  match s.hst.injections[k]? with
  | none => s
  | some i =>
    if s.cycle < i.due then s
    else
      let s : State := { s with hst := { s.hst with injections := s.hst.injections.erase i } }
      if i.kind = 1 then (if targetOf i.addr = some i.target then s.poisonRange i.addr 1 else s)
      else { s with hst := { s.hst with stalls := s.hst.stalls ++ [(i.target, i.addr)] } }

/-- An expander is enumerated (R349). -/
def State.addExpander (s : State) (e port : Nat) : State :=
  if 16 ≤ e ∨ 2 ≤ port ∨ (tget s.hst.expanders e).isSome then s
  else
    { s with
      hst := { s.hst with expanders := tset s.hst.expanders e port }
      map := { s.map with nodes := tset s.map.nodes (12 + e) (rootNode (0x400000000 + e * 0x10000000) 0x10000000 false) } }

/-! ## The steps -/

/-- `NOTIFY_WRITE` (R351). -/
def execNotifyWrite (port off size : Nat) (v : Word) (s : State) : Out := .next (s.notify port off size v)
/-- `DISPATCH` (R353). -/
def execDispatch (port q : Nat) (s : State) : Out := .next (s.hostStep 1 port q)
/-- `DISPATCHG` (R353). -/
def execDispatchg (port q : Nat) (s : State) : Out := .next (s.hostStep 2 port q)
/-- `ORDER` (R344). -/
def execOrder (port q : Nat) (s : State) : Out := .next (s.hostStep 3 port q)
/-- `MAINT` (R344). -/
def execMaint (port q : Nat) (s : State) : Out := .next (s.hostStep 4 port q)
/-- `PACKET_COMPLETION` (R354). -/
def execPacketCompletion (port q n : Nat) (s : State) : Out := .next (s.packetEnd (qiOf port q) n)
/-- `CTXCREATE` (R359). -/
def execCtxcreate (port q : Nat) (s : State) : Out := .next (s.hostStep 101 port q)
/-- `CTXDESTROY` (R359). -/
def execCtxdestroy (port q : Nat) (s : State) : Out := .next (s.hostStep 102 port q)
/-- `BINDQ` (R359). -/
def execBindq (port q : Nat) (s : State) : Out := .next (s.hostStep 103 port q)
/-- `RESETQ` (R359). -/
def execResetq (port q : Nat) (s : State) : Out := .next (s.hostStep 104 port q)
/-- `UNBINDQ` (R359). -/
def execUnbindq (port q : Nat) (s : State) : Out := .next (s.hostStep 105 port q)
/-- `SETLIMIT` (R359). -/
def execSetlimit (port q : Nat) (s : State) : Out := .next (s.hostStep 106 port q)
/-- `TENANT` (R359). -/
def execTenant (port q : Nat) (s : State) : Out := .next (s.hostStep 107 port q)
/-- `SLOTSET` (R359). -/
def execSlotset (port q : Nat) (s : State) : Out := .next (s.hostStep 108 port q)
/-- `EPSET` (R359). -/
def execEpset (port q : Nat) (s : State) : Out := .next (s.hostStep 109 port q)
/-- `CHOWN` (R359). -/
def execChown (port q : Nat) (s : State) : Out := .next (s.hostStep 110 port q)
/-- `UNISOLATE` (R359). -/
def execUnisolate (port q : Nat) (s : State) : Out := .next (s.hostStep 111 port q)
/-- `BIAS` (R358). -/
def execBias (port q : Nat) (s : State) : Out := .next (s.hostStep 112 port q)
/-- `INTRSET` (R359). -/
def execIntrset (port q : Nat) (s : State) : Out := .next (s.hostStep 113 port q)
/-- `EVRING` (R356). -/
def execEvring (port q : Nat) (s : State) : Out := .next (s.hostStep 114 port q)
/-- `INJECT` (R359). -/
def execInject (port q : Nat) (s : State) : Out := .next (s.hostStep 115 port q)
/-- `PEERSET` (R368). -/
def execPeerset (port q : Nat) (s : State) : Out := .next (s.hostStep 116 port q)
/-- `EXPORT` (R369). -/
def execExportOp (port q : Nat) (s : State) : Out := .next (s.hostStep 117 port q)
/-- `HOST_MEMORY_ACCESS` (R358). -/
def execHostMemoryAccess (port : Nat) (wr : Bool) (pa : Nat) (data : List Byte) (s : State) : Out :=
  .next (s.hostAccess port wr pa data)
/-- An ATS invalidation (R353): the translations of a range that the port's host edge has cached go, and the host's answers for it
are new ones; the writes that have been issued behind the port are performed. -/
def State.atsInvalidate (s : State) (port base len : Nat) : State :=
  let s := s.setMem (s.mem.settle allDies (hostPa port 0) (2 ^ 45))
  { s with hst := { s.hst with
      ats := s.hst.ats.filter (fun e => !(e.1 / 2 ^ 53 == port && overlaps (e.1 % 2 ^ 33 * 4096) 4096 base len))
      atsInv := s.hst.atsInv ++ [(port, base, len)] } }

/-- `ATS_INVALIDATION` (R353): it is answered once every access issued through the range has completed. -/
def execAtsInvalidation (port base len : Nat) (s : State) : Out := .next (s.atsInvalidate port base len)
/-- `EXPANDER_HOT_ADD` (R349). -/
def execExpanderHotAdd (e port : Nat) (s : State) : Out := .next (s.addExpander e port)
/-- `INJECTION_TAKES_EFFECT` (R359). -/
def execInjectionTakesEffect (k : Nat) (s : State) : Out := .next (s.injectNow k)

end Sys2Proof.Machine
end

