-- ==== Sys2Proof/Machine/Digest.lean ====
section
/-! DEFINITION. SHA-512, by which images and contexts are measured (21_host R360, R363). The spec names the digest and does not
define it: this is the function of that name, with its constants as the roots they are taken from (notes/assumptions/16.md). -/

namespace Sys2Proof.Machine

/-! ## Constants -/

/-- The whole part of the `pow`-th root of a number, from the bit below `2 ^ k` down, above what is found. -/
def rootBits (pow n : Nat) : Nat → Nat → Nat
  | 0, r => r
  | k + 1, r => rootBits pow n k (if (r + 2 ^ k) ^ pow ≤ n then r + 2 ^ k else r)

/-- The first 64 bits of the fraction of the `pow`-th root of a number. -/
def rootFrac (pow p : Nat) : Word := BitVec.ofNat 64 (rootBits pow (p * 2 ^ (64 * pow)) 70 0)

/-- The first 80 primes. -/
def primes80 : List Nat := (List.range 410).filter (fun n => decide (1 < n) && (List.range n).all (fun d => decide (d < 2) || n % d != 0))

def shaStart : List Word := (primes80.take 8).map (rootFrac 2)
def shaKeys : List Word := primes80.map (rootFrac 3)

/-! ## Blocks -/

/-- Three rotations, or two and a shift, folded together. -/
def mix (a b c : Nat) (shift : Bool) (x : Word) : Word :=
  x.rotateRight a ^^^ x.rotateRight b ^^^ (if shift then x >>> c else x.rotateRight c)

/-- The message words of a block, the newest first, `n` more of them. -/
def shaWords : Nat → List Word → List Word
  | 0, w => w
  | n + 1, w =>
    let at' (i : Nat) : Word := w.getD i 0
    shaWords n ((mix 19 61 6 true (at' 1) + at' 6 + mix 1 8 7 true (at' 14) + at' 15) :: w)

/-- One round, with the sum of its constant and its message word. -/
def shaRound (h : List Word) (kw : Word) : List Word :=
  let r (i : Nat) : Word := h.getD i 0
  let pick := (r 4 &&& r 5) ^^^ (~~~(r 4) &&& r 6)
  let most := (r 0 &&& r 1) ^^^ (r 0 &&& r 2) ^^^ (r 1 &&& r 2)
  let t := r 7 + mix 14 18 41 false (r 4) + pick + kw
  [t + mix 28 34 39 false (r 0) + most, r 0, r 1, r 2, r 3 + t, r 4, r 5, r 6]

/-- A big-endian number. -/
def beNum (l : List Byte) : Nat := leNum l.reverse

/-- A block of 128 bytes. -/
def shaBlock (h : List Word) (b : List Byte) : List Word :=
  let first := (List.range 16).map (fun i => BitVec.ofNat 64 (beNum ((b.drop (8 * i)).take 8)))
  let w := (shaWords 64 first.reverse).reverse
  List.zipWith (· + ·) h ((List.zipWith (· + ·) shaKeys w).foldl shaRound h)

/-- The blocks of a message, `n` of them. -/
def shaBlocks : Nat → List Word → List Byte → List Word
  | 0, h, _ => h
  | n + 1, h, l => shaBlocks n (shaBlock h (l.take 128)) (l.drop 128)

/-- The digest of a message: 64 bytes. -/
def sha512 (l : List Byte) : List Byte :=
  let m := l ++ [0x80] ++ List.replicate ((239 - l.length % 128) % 128) 0 ++ (leBytes 16 (8 * l.length)).reverse
  (shaBlocks (m.length / 128) shaStart m).flatMap (fun w => (leBytes 8 w.toNat).reverse)

end Sys2Proof.Machine
end

