-- ==== Sys2Proof/Machine/Trust.lean ====
section
/-! DEFINITION. The security core (21_host R360 to R363), the coarsened counters (R364), the starts (R365) and the limits of
power and temperature (R366). -/

namespace Sys2Proof.Machine

/-! ## The image and the mailbox (R360, R361) -/

/-- The host writes the firmware image: one whose check fails leaves the module in start step 2, and the mailbox says so. -/
def State.writeImage (s : State) (image : List Byte) : State :=
  if s.tru.verified then s
  else if Config.imageOk image then
    { s with tru := { s.tru with image := image, verified := true, failed := false } }
  else
    let m := s.tru.mailbox ++ [(0, Config.freeReply s.fresh), (1, Config.freeReply s.fresh)]
    { s with fresh := s.fresh + 1, tru := { s.tru with failed := true, mailbox := m } }

/-- The security core answers a message in a port's mailbox; `f` is what the message changes. -/
def State.spdm (s : State) (port : Nat) (f : TrustSt → TrustSt) : State :=
  let t := f s.tru
  { s with fresh := s.fresh + 1, tru := { t with mailbox := t.mailbox ++ [(port, Config.freeReply s.fresh)] } }

/-! ## TDISP (R361, R363) -/

/-- What the measurement of a context is taken over: its nodes with X in ascending virtual order (R363). -/
def State.measured (s : State) (c : Nat) : List Byte :=
  let l := s.map.nodes.filter (fun e => e.2.st == .live && e.2.ctx == c && e.2.x)
  let next (t : Tab Node) : Tab Node := l.foldl (fun t e => tset t e.2.vgn e.2) t
  (next []).flatMap (fun e =>
    leBytes 8 (e.2.vgn * 4096) ++ leBytes 8 e.2.count ++ leBytes 8 e.2.rights ++
      s.bytesAt (s.homeDie (s.servedBy c e.2.vcid (e.2.pgn * 4096)) (e.2.pgn * 4096)) (e.2.pgn * 4096) (e.2.count * 4096))

/-- Its reading touches the lines that hold the bytes, as any read at its home does (R263, R274). -/
def State.touchMeasured (s : State) (c : Nat) : State :=
  (s.map.nodes.filter (fun e => e.2.st == .live && e.2.ctx == c && e.2.x)).foldl (fun s e =>
    s.touchRead (s.servedBy c e.2.vcid (e.2.pgn * 4096)) (e.2.pgn * 4096) (e.2.count * 4096)) s

/-- CONFIG_LOCKED: the binding is frozen and a MEASURED context is measured. -/
def State.lock (s : State) (qi : Nat) : State :=
  let q := s.hq qi
  if q.bound && q.tdi == .unlocked then
    let s := s.drainAll
    let s : State := if (s.ctx q.ctx).measured then
        let t := s.touchMeasured q.ctx
        { t with tru := { t.tru with measures := tset t.tru.measures q.ctx (sha512 (s.measured q.ctx)) } } else s
    s.setHq qi { q with tdi := .locked }
  else s

/-- RUN follows CONFIG_LOCKED. -/
def State.startRun (s : State) (qi : Nat) : State :=
  let q := s.hq qi
  if q.bound && q.tdi == .locked then s.setHq qi { q with tdi := .run } else s

/-- CONFIG_UNLOCKED again. -/
def State.unlock (s : State) (qi : Nat) : State :=
  let q := s.hq qi
  if q.bound then s.setHq qi { q with tdi := .unlocked } else s

/-- A measurement block (R363), where there is one. -/
def State.measureBlock (s : State) (k : Nat) : Option (List Byte) :=
  if k = 1 then some (sha512 s.tru.image)
  else if k = 2 then some Config.romVersion
  else if k = 3 then some (Config.startConfig ((s.com.share.filter (fun e => e.2 == 2000)).map (·.1)))
  else if 16 ≤ k ∧ k < 144 ∧ (s.hq (k - 16)).bound then tget s.tru.measures (s.hq (k - 16)).ctx
  else none

/-- The blocks that a GET_MEASUREMENTS request asks for: all of them (255), or one by its index, in the request's fourth byte
(notes/assumptions/16.md). -/
def State.measureBytes (s : State) (req : List Byte) : List Byte :=
  let k := (req.getD 3 0).toNat
  (if k = 255 then List.range 144 else [k]).flatMap (fun i =>
    match s.measureBlock i with | some b => BitVec.ofNat 8 i :: b | none => [])

/-- The reply to GET_MEASUREMENTS (R361, R363). -/
def State.measurements (s : State) (port : Nat) (req : List Byte) : State :=
  { s with
    fresh := s.fresh + 1
    tru := { s.tru with mailbox := s.tru.mailbox ++ [(port, Config.measureReply s.fresh (s.measureBytes req))] } }

/-- An event that takes an interface to ERROR. -/
def State.toError (s : State) (qi cause : Nat) : State :=
  let q := s.hq qi
  if q.bound && q.tdi != .error then s.tdiError qi cause else s

/-! ## Counters (R364) -/

/-- The quantum of a counter. -/
def quantum (k : Nat) : Nat := ([2 ^ 24, 2 ^ 26, 2 ^ 26, 2 ^ 26, 2 ^ 10, 2 ^ 4] : List Nat).getD k 1

/-- The tenants of live contexts. -/
def State.liveTenants (s : State) : List Nat :=
  ((s.map.ctxs.filter (fun e => e.2.st == .live)).map (fun e => e.2.partition)).eraseDups

/-- One tenant's counters: the bytes of HBM are free values. -/
def State.refresh (s : State) (t : Nat) : State :=
  let e := tupd 0 s.hst.exact (t * 8 + 1) (· + Config.hbmBytes s.fresh)
  let e := tupd 0 e (t * 8 + 2) (· + Config.hbmBytes (s.fresh + 1))
  let c := (List.range 6).foldl (fun c k => tput 0 c (t * 8 + k) (tgetD 0 e (t * 8 + k) / quantum k * quantum k)) s.hst.coarse
  { s with fresh := s.fresh + 2, hst := { s.hst with exact := e, coarse := c } }

/-- A window ends. -/
def State.window (s : State) : State :=
  let s := s.liveTenants.foldl State.refresh s
  { s with hst := { s.hst with nextWindow := s.hst.nextWindow + 100000000 } }

/-! ## Starts (R365) -/

/-- Bytes behind a host port or an expander: a start changes none of them. -/
def outside (pa : Nat) : Bool := (targetOf pa).isSome

/-- The key that encrypts a context's HBM (R362): a free value, by the draw that made it. -/
def State.keyOf (s : State) (ctx : Nat) : Option Word := (tget s.tru.keys ctx).map Config.freeKey

/-- A start: the state after a cold start, with what the starts keep. Every key is erased, and context 0 has a new one (R362). T
runs on; the events from outside that are still to come keep their distance in time. `warm` keeps the withdrawn shares, the dies that have tripped and the image. -/
def State.start (s : State) (warm : Bool) : State :=
  let s := s.drainAll
  let r := State.reset
  let m := s.mem.view0.filter (fun e => outside e.1)
  let ex := s.hst.expanders
  { r with
    epoch := s.now, fresh := s.fresh + 1, inputs := s.inputs.map (fun e => (e.1 - s.cycle, e.2))
    mem := { view0 := m, view1 := m, view2 := m, view3 := m
             poison := s.mem.poison.filter (fun e => outside (64 * e.1)) }
    com := { r.com with share := if warm then s.com.share.filter (fun e => e.2 == 2000) else [] }
    map := { r.map with nodes := ex.foldl (fun t e =>
      tset t (12 + e.1) (rootNode (0x400000000 + e.1 * 0x10000000) 0x10000000 false)) r.map.nodes }
    hst := { expanders := ex, atsInv := s.hst.atsInv, nextWindow := s.hst.nextWindow
             thermal := if warm then s.hst.thermal else [], tripped := if warm then s.hst.tripped else [] }
    tru :=
      let keys := [(0, s.fresh)]
      if warm then { image := s.tru.image, verified := s.tru.verified, keys := keys } else { keys := keys } }

/-- A warm start reruns the check of the image held: it held, so it holds (R360). -/
def State.warmStart (s : State) : State := if s.tru.verified then s.start true else s

/-! ## Limits (R366) -/

/-- The module's power, in mW averaged over 1 ms. -/
def State.power (s : State) (mw : Nat) : State :=
  if 6400000 ≤ mw then { s with hst := { s.hst with clockDown := s.hst.clockDown + 1 } } else s

/-- A die reaches a thermal level: 1 throttle, 2 trip, at which it stops. -/
def State.heat (s : State) (die level : Nat) : State :=
  let s : State := { s with hst := { s.hst with
    thermal := tput 0 s.hst.thermal die level
    tripped := if level = 2 ∧ !s.hst.tripped.contains die then die :: s.hst.tripped else s.hst.tripped } }
  s.logBoth evThermal die level

/-! ## The steps -/

/-- `IMAGE_WRITE` (R360). -/
def execImageWrite (image : List Byte) (s : State) : Out := .next (s.writeImage image)
/-- `GET_VERSION` (R361). -/
def execGetVersion (port : Nat) (_req : List Byte) (s : State) : Out := .next (s.spdm port id)
/-- `GET_CAPABILITIES` (R361). -/
def execGetCapabilities (port : Nat) (_req : List Byte) (s : State) : Out := .next (s.spdm port id)
/-- `NEGOTIATE_ALGORITHMS` (R361). -/
def execNegotiateAlgorithms (port : Nat) (_req : List Byte) (s : State) : Out :=
  .next (s.spdm port (fun t => { t with negotiated := true }))
/-- `GET_DIGESTS` (R361). -/
def execGetDigests (port : Nat) (_req : List Byte) (s : State) : Out := .next (s.spdm port id)
/-- `GET_CERTIFICATE` (R361). -/
def execGetCertificate (port : Nat) (_req : List Byte) (s : State) : Out := .next (s.spdm port id)
/-- `CHALLENGE` (R361). -/
def execChallenge (port : Nat) (_req : List Byte) (s : State) : Out := .next (s.spdm port id)
/-- `GET_MEASUREMENTS` (R363). -/
def execGetMeasurements (port : Nat) (req : List Byte) (s : State) : Out := .next (s.measurements port req)
/-- `KEY_EXCHANGE` (R361). -/
def execKeyExchange (port : Nat) (_req : List Byte) (s : State) : Out :=
  .next (s.spdm port (fun t => { t with session := true }))
/-- `FINISH` (R361). -/
def execFinish (port : Nat) (_req : List Byte) (s : State) : Out := .next (s.spdm port id)
/-- `END_SESSION` (R361). -/
def execEndSession (port : Nat) (_req : List Byte) (s : State) : Out :=
  .next (s.spdm port (fun t => { t with session := false }))
/-- `CONFIG_LOCKED` (R361, R363). -/
def execConfigLocked (port q : Nat) (s : State) : Out := .next (s.lock (qiOf port q))
/-- `RUN` (R361). -/
def execRun (port q : Nat) (s : State) : Out := .next (s.startRun (qiOf port q))
/-- `ERROR` (R361). -/
def execError (port q : Nat) (s : State) : Out := .next (s.toError (qiOf port q) 1)
/-- `IDE_INTEGRITY_FAILURE` (R361). -/
def execIdeIntegrityFailure (port q : Nat) (s : State) : Out := .next (s.toError (qiOf port q) 3)
/-- `CONFIG_UNLOCKED` (R361). -/
def execConfigUnlocked (port q : Nat) (s : State) : Out := .next (s.unlock (qiOf port q))
/-- `COUNTER_WINDOW` (R364). -/
def execCounterWindow (s : State) : Out := .next (if s.now < s.hst.nextWindow then s else s.window)
/-- `COLD_START` (R365): the module then waits in step 2 for its image. -/
def execColdStart (s : State) : Out := .next (s.start false)
/-- `WARM_START` (R365). -/
def execWarmStart (s : State) : Out := .next s.warmStart
/-- `POWER_LIMIT` (R366). -/
def execPowerLimit (mw : Nat) (s : State) : Out := .next (s.power mw)
/-- `THROTTLE` (R366). -/
def execThrottle (die : Nat) (s : State) : Out := .next (s.heat die 1)
/-- `TRIP` (R366). -/
def execTrip (die : Nat) (s : State) : Out := .next (s.heat die 2)

end Sys2Proof.Machine
end

