-- ==== Sys2Proof/Machine/Links.lean ====
section
/-! DEFINITION. The module links (21_host R367 to R371): flits and links out of service, the requests of peers served within
their exports, notifications, the answers to this module's own link commands, and peers that do not answer. -/

namespace Sys2Proof.Machine

/-! ## Links and peers (R367, R371) -/

/-- A link command whose peer does not answer completes TIMEOUT (R371, R218): what it has written, here or there, is open. -/
def State.peerFails (s : State) (f : Nat) (sc : SCmd) : State :=
  let r := s.resolve f sc.cmd
  if (s.slWaits f sc r).isEmpty then s.slPartly f sc 6 r (s.slSource [s.fresh] r) else s.slFinish f sc 6 0 0

/-- A peer is isolated; the link commands that wait for its answer complete TIMEOUT (R371, R218). One that has sent nothing yet
waits for none, and ends ISOLATED. -/
def State.isolatePeer (s : State) (j cause : Nat) : State :=
  let s := s.isolateFor (0x200 + j) cause
  let waits := s.slu.cmds.flatMap (fun e => (e.2.filter (fun c => c.peer == some j && c.sent && c.resp.isNone)).map (fun c => (e.1, c)))
  let s : State := { s with lnk := { s.lnk with out := s.lnk.out.filter (fun r => r.peer != j) } }
  waits.foldl (fun s e => s.peerFails e.1 e.2) s

/-- A link leaves service: every mask drops it, and a peer whose mask becomes empty is isolated (cause 1). -/
def State.linkOff (s : State) (link cause : Nat) : State :=
  if 18 ≤ link ∨ s.lnk.down.contains link then s
  else
    let had (p : Peer) : Bool := p.en && bits p.mask link 1 == 1
    let drop (p : Peer) : Peer := if bits p.mask link 1 = 1 then { p with mask := p.mask - 2 ^ link } else p
    let lost := (s.lnk.peers.filter (fun e => had e.2 && (drop e.2).mask == 0)).map (·.1)
    let s : State := { s with lnk := { s.lnk with
      down := link :: s.lnk.down, peers := s.lnk.peers.map (fun e => (e.1, drop e.2)) } }
    lost.foldl (fun s j => s.isolatePeer j 1) (s.logBoth evLinkDown link (Config.causeCode evLinkDown cause))

/-- A flit arrives (R367): one with a CRC failure, a reserved KIND or a gap in SEQ starts a replay from the flit that is
expected; while it goes on, what follows that flit is dropped. Eight replays of one flit that fail in a row take the link out of
service (cause 2). -/
def State.flit (s : State) (link : Nat) (crcOk : Bool) (hdr : Word) : State :=
  if 18 ≤ link ∨ s.lnk.down.contains link then s
  else
    let seq := bits hdr.toNat 50 12
    let here := seq == tgetD 0 s.lnk.expect link
    let good := crcOk && decide (bits hdr.toNat 44 6 < 7)
    let k := tgetD 0 s.lnk.replays link
    if good && here then
      { s with lnk := { s.lnk with
        expect := tput 0 s.lnk.expect link ((seq + 1) % 4096), replays := tdel s.lnk.replays link } }
    else if k != 0 && !here then s
    else
      let s : State := { s with lnk := { s.lnk with replays := tput 0 s.lnk.replays link (k + 1) } }
      if 8 ≤ k then s.linkOff link 2 else s

/-- Do the requests of a command wait for peer `j` longer than its TOUT allows, or has the peer no link left (R370, R371)? -/
def State.peerLate (s : State) (j : Nat) : Bool :=
  s.slu.cmds.any (fun e => e.2.any (fun c =>
    c.peer == some j && c.sent && c.resp.isNone && decide (c.sentAt + 2 ^ c.tout * 3000 ≤ s.cycle))) ||
    ((tgetD {} s.lnk.peers j).en && (tgetD {} s.lnk.peers j).mask == 0)

def State.peerTimeout (s : State) (j cause : Nat) : State := if s.peerLate j then s.isolatePeer j cause else s

/-! ## Requests of peers (R369, R370) -/

/-- Does some link of a peer carry more than time flits: one in service that has a peer which is not isolated (R371)? -/
def State.carries (s : State) (j : Nat) : Bool :=
  let iso (k : Nat) : Bool := tgetD false s.slu.isolated (0x200 + k)
  !iso j || (List.range 18).any (fun l =>
    bits (tgetD {} s.lnk.peers j).mask l 1 == 1 && !s.lnk.down.contains l &&
      s.lnk.peers.any (fun e => e.2.en && bits e.2.mask l 1 == 1 && !iso e.1))

/-- A response goes to a peer, if a link carries it. -/
def State.reply (s : State) (peer tag : Nat) (bs : List PByte) (st : Nat) : State :=
  if s.carries peer then { s with lnk := { s.lnk with sent := s.lnk.sent ++ [(peer, tag, bs, st)] } } else s

/-- The response to a request is sent and kept (R371). -/
def State.respond (s : State) (peer tag : Nat) (bs : List PByte) (st : Nat) : State :=
  State.reply { s with lnk := { s.lnk with answered := tset s.lnk.answered (peer * 2 ^ 34 + tag) (bs, st) } } peer tag bs st

/-- The translation cache of the link agent, for the requests of a peer (R369). -/
def linkParty (peer : Nat) : Nat := 900 + peer

/-- The pieces that a request reaches in its export, or the status with which it fails (R369). -/
def State.exportPieces (s : State) (r : LinkIn) : Except Nat (Export × List Piece) :=
  match tget s.lnk.exports r.peer with
  | none => .error 3
  | some e =>
    if e.size < r.off + r.len || !(if r.wr then e.w else e.r) then .error 3
    else
      let p := (rangePages (e.base + r.off) r.len).map (fun x =>
        s.slPage (linkParty r.peer) e.ctx x.1 x.2 (some (if r.wr then .w else .r)))
      let fails := (p.map (·.2)).filter (fun n => n != 0)
      let ps := p.map (·.1)
      if ps.any (fun q => q.peer.isSome) then .error 3 else if !fails.isEmpty then .error (topStatus fails) else .ok (e, ps)

/-- The key under which a request waits for leases. -/
def LinkIn.waitKey (r : LinkIn) : Nat := 2 ^ 130 + r.peer * 2 ^ 34 + r.tag

/-- The granules of a request that a lease, or an earlier request for them, holds back (R163). -/
def State.requestWaits (s : State) (r : LinkIn) : List Nat :=
  match s.exportPieces r with
  | .error _ => []
  | .ok (_, ps) => ps.flatMap (fun p => s.blockedIn r.waitKey p.addr p.len)

/-- Can a request take a step, `before` being those that came before it? A read waits for a target that leaves it unanswered
(R359), one with a notification for the earlier writes of its peer (R370, R372). -/
def State.requestReady (s : State) (before : List LinkIn) (r : LinkIn) : Bool :=
  let w := s.requestWaits r
  (w.isEmpty || s.requeues r.waitKey w) && !(r.note.isSome && before.any (fun x => x.peer == r.peer && x.wr)) &&
    (match s.exportPieces r with
     | .error _ => true
     | .ok (_, ps) => r.wr || ps.all (fun p => (s.slHang p (p.len - 1)).isNone))

/-- Has a request with this tag been performed before: answered, or with a notification that waits (R371)? -/
def State.performed (s : State) (peer tag : Nat) : Bool :=
  (tget s.lnk.answered (peer * 2 ^ 34 + tag)).isSome || s.lnk.notices.any (fun n => n.peer == peer && n.tag == tag)

/-- A write of a peer has ended with a status, which its notification reports (R370). -/
def State.wrote (s : State) (r : LinkIn) (st : Nat) : State :=
  let k := r.peer * 2 ^ 40 + r.off
  { s with lnk := { s.lnk with
      wrote := tput 0 (s.lnk.wrote.filter (fun e => !(decide (k ≤ e.1) && decide (e.1 < k + r.len)))) k st } }

/-- The status that a command completes with as its notification says it (R370): that of its issuer, of its last write, or of an
earlier one. DEDUCED: the writes of a command are those of its peer from the first destination byte that s2 names to the end of its
last request (notes/assumptions/20.md). -/
def State.noteStatus (s : State) (r : LinkIn) (ws : List Word) (st : Nat) : Nat :=
  let first := r.peer * 2 ^ 40 + (ws.getD 1 0).toNat
  let last := r.peer * 2 ^ 40 + r.off + r.len
  topStatus ([(ws.getD 3 0).toNat, st] ++ (s.lnk.wrote.filter (fun e => decide (first ≤ e.1) && decide (e.1 < last))).map (·.2))

/-- A write of a peer that has ended with a status is answered, or its notification waits for room (R370). A peer that has no export
has no channel for one (R369). -/
def State.endWrite (s : State) (r : LinkIn) (st : Nat) : State :=
  match r.note, tget s.lnk.exports r.peer with
  | some ws, some e =>
    let code := s.noteStatus r ws st
    let msg : Msg := ⟨ws.set 3 (BitVec.ofNat 64 code), e.badge, 0, 0⟩
    { s with lnk := { s.lnk with notices := s.lnk.notices ++ [⟨r.peer, r.tag, e.nchan, msg, s.cycle⟩] } }
  | _, _ => s.respond r.peer r.tag [] st

/-- A request is performed (R369, R370); one that has been is answered again, and not performed (R371). -/
def State.performRequest (s : State) (r : LinkIn) : State :=
  let s := (s.unqueue r.waitKey).drainAll
  if s.performed r.peer r.tag then
    match tget s.lnk.answered (r.peer * 2 ^ 34 + r.tag) with
    | some a => s.reply r.peer r.tag a.1 a.2
    | none => s
  else
    match s.exportPieces r with
    | .error st => if r.wr then (s.wrote r st).endWrite r st else s.respond r.peer r.tag [] st
    | .ok (_, ps) =>
      let s := s.fill (linkParty r.peer) (ps.map (·.node))
      if r.wr then
        let w := placeBytes ps r.data
        let s := w.foldl (fun s x => s.writeMem x.1.vc x.1.addr (x.2.map (·.1))) s
        let st := if r.data.any (·.2) then 5 else 0
        (((badGrans w).foldl State.markGran s).drainAll.wrote r st).endWrite r st
      else
        let b := ps.flatMap (s.slRead [])
        (s.slTouch ps).respond r.peer r.tag b (if b.any (·.2) then 5 else 0)

/-- The first of a list of requests, behind others, that can take a step. -/
def State.requestIn (s : State) (before : List LinkIn) : List LinkIn → Option LinkIn
  | [] => none
  | r :: l => if s.requestReady before r then some r else s.requestIn (before ++ [r]) l

/-- The next request of a peer that can take a step. -/
def State.nextRequest (s : State) : Option LinkIn := s.requestIn [] s.lnk.inq

/-- It is performed, or queues behind a lease. -/
def State.serveRequest (s : State) : State :=
  match s.nextRequest with
  | none => s
  | some r =>
    let w := s.requestWaits r
    if w.isEmpty then (State.performRequest { s with lnk := { s.lnk with inq := s.lnk.inq.erase r } } r).serveLeaseQ
    else s.enqueue r.waitKey w

/-- The first notification whose channel has room and a live owner. -/
def State.nextNotice (s : State) : Option Notice :=
  s.lnk.notices.find? (fun n => (s.liveOwner n.chan).isSome && s.hasRoom n.chan)

/-- A notification is queued and its request answered (R370). -/
def State.serveNotice (s : State) : State :=
  match s.nextNotice with
  | none => s
  | some n =>
    let s : State := { s with lnk := { s.lnk with notices := s.lnk.notices.erase n } }
    (s.post n.chan n.msg).respond n.peer n.tag [] (n.msg.words.getD 3 0).toNat

/-- The first notification that may have timed out: it has waited the shortest TOUT that its issuer can have, 1 µs; the request
does not say which it has (R213, R370). -/
def State.lateNotice (s : State) : Option Notice := s.lnk.notices.find? (fun n => decide (n.since + 3000 ≤ s.cycle))

/-- It is discarded, and the command completes TIMEOUT. -/
def State.dropNotice (s : State) : State :=
  match s.lateNotice with
  | none => s
  | some n => State.respond { s with lnk := { s.lnk with notices := s.lnk.notices.erase n } } n.peer n.tag [] 6

/-- Does an injected stall keep a peer from answering a command's reads (R359)? -/
def State.peerStalled (s : State) (j : Nat) (r : Resolved) : Bool :=
  r.src.flatten.any (fun p => p.peer == some j &&
    s.hst.stalls.any (fun e => e.1 == 0x200 + j && decide (e.2 ≤ p.addr + p.len - 1)))

/-- A peer's answer to a link command (R370): bytes with their poison (all of it where it says POISON and marks none), and the
status. What the command writes here it sends now, and its time runs from now (R218). -/
def State.answer (s : State) (f q n : Nat) (data : List PByte) (st : Nat) : State :=
  match s.findSc f q n with
  | none => s
  | some sc =>
    match sc.peer with
    | none => s
    | some j =>
      if sc.sent && sc.resp.isNone && !s.peerStalled j (s.resolve f sc.cmd) then
        let key := tlKey 0 (f * 16 + q)
        let s : State := { s with lnk := { s.lnk with out := s.lnk.out.filter (fun r => !(r.key == key && r.n == n)) } }
        let all := st == 5 && !data.any (·.2)
        s.updSc f q n (fun c => { c with start := s.cycle, resp := some (data.map (fun b => (b.1, all || b.2)), st) })
      else s

/-! ## The steps -/

/-- `LINK_FLIT_RECEIVE` (R367). -/
def execLinkFlitReceive (link : Nat) (crcOk : Bool) (hdr : Word) (s : State) : Out := .next (s.flit link crcOk hdr)
/-- `LINK_REQUEST` (R369, R370): a request is performed once no lease holds it back. None arrives over links that carry time flits
only (R371). -/
def execLinkRequest (peer tag : Nat) (wr : Bool) (off len : Nat) (data : List PByte) (note : Option (List Word))
    (s : State) : Out :=
  let r : LinkIn := ⟨peer, tag, wr, off, len, data, note⟩
  .next (if s.carries peer then State.serveRequest { s with lnk := { s.lnk with inq := s.lnk.inq ++ [r] } } else s)
/-- `LINK_RESPONSE` (R370). -/
def execLinkResponse (flight q n : Nat) (data : List PByte) (status : Nat) (s : State) : Out :=
  .next (s.answer flight q n data status)
/-- `LINK_DOWN` (R371). -/
def execLinkDown (link cause : Nat) (s : State) : Out := .next (s.linkOff link cause)
/-- `PEER_TIMEOUT` (R371). -/
def execPeerTimeout (peer cause : Nat) (s : State) : Out := .next (s.peerTimeout peer cause)

end Sys2Proof.Machine
end

