-- ==== Sys2Proof/Machine/MemoryWords.lean ====
section
/-! DEFINITION. Loads and stores, full/empty words, atomics, reductions and the exact accumulator (08_core_memory R146 to
R157). -/

namespace Sys2Proof.Machine

/-! ## Loads and stores (R146 to R149) -/

/-- `LDB` (R148). -/
def execLdb (st : Bool) (d b : Nat) (spc : Space) (x : Nat) (s : State) : Out :=
  issueWith s st (fun c => c.loadScalar d b 0 x spc true)
/-- `LDH` (R148). -/
def execLdh (st : Bool) (d b : Nat) (spc : Space) (x : Nat) (s : State) : Out :=
  issueWith s st (fun c => c.loadScalar d b 1 x spc true)
/-- `LDW` (R148). -/
def execLdw (st : Bool) (d b : Nat) (spc : Space) (x : Nat) (s : State) : Out :=
  issueWith s st (fun c => c.loadScalar d b 2 x spc true)
/-- `LDD` (R148). -/
def execLdd (st : Bool) (d b : Nat) (spc : Space) (x : Nat) (s : State) : Out :=
  issueWith s st (fun c => c.loadScalar d b 3 x spc true)
/-- `LDBU` (R148). -/
def execLdbu (st : Bool) (d b : Nat) (spc : Space) (x : Nat) (s : State) : Out :=
  issueWith s st (fun c => c.loadScalar d b 0 x spc false)
/-- `LDHU` (R148). -/
def execLdhu (st : Bool) (d b : Nat) (spc : Space) (x : Nat) (s : State) : Out :=
  issueWith s st (fun c => c.loadScalar d b 1 x spc false)
/-- `LDWU` (R148). -/
def execLdwu (st : Bool) (d b : Nat) (spc : Space) (x : Nat) (s : State) : Out :=
  issueWith s st (fun c => c.loadScalar d b 2 x spc false)
/-- `STB` (R148). -/
def execStb (st : Bool) (d b : Nat) (spc : Space) (x : Nat) (s : State) : Out :=
  issueWith s st (fun c => c.storeScalar d b 0 x spc)
/-- `STH` (R148). -/
def execSth (st : Bool) (d b : Nat) (spc : Space) (x : Nat) (s : State) : Out :=
  issueWith s st (fun c => c.storeScalar d b 1 x spc)
/-- `STW` (R148). -/
def execStw (st : Bool) (d b : Nat) (spc : Space) (x : Nat) (s : State) : Out :=
  issueWith s st (fun c => c.storeScalar d b 2 x spc)
/-- `STD` (R148). -/
def execStd (st : Bool) (d b : Nat) (spc : Space) (x : Nat) (s : State) : Out :=
  issueWith s st (fun c => c.storeScalar d b 3 x spc)
/-- `VLD` (R148): VL32 × 4 bytes, the rest of the register zero. -/
def execVld (st : Bool) (d b : Nat) (spc : Space) (x : Nat) (s : State) : Out :=
  issueWith s st (fun c =>
    let ea := c.ea b 7 x
    if alignedTo 2 ea then
      match c.load ea (c.b.rvl32 * 4) spc with
      | .out o => (c.s, o)
      | .got s bs => (s, .items [.vreg d (BitVec.ofNat 1024 (leNum bs))] 0)
    else (c.s, misaligned 2 ea))
/-- `VST` (R148). -/
def execVst (st : Bool) (d b : Nat) (spc : Space) (x : Nat) (s : State) : Out :=
  issueWith s st (fun c =>
    let ea := c.ea b 7 x
    if alignedTo 2 ea then c.store ea (leBytes (c.b.rvl32 * 4) (c.v d).toNat) spc else (c.s, misaligned 2 ea))

/-! ## Full/empty words (R150) -/

/-- A full/empty word: its checks, then what it leaves. -/
def feWordOp (s : State) (st : Bool) (b x : Nat) (f : WCtx → Word → Nat → Nat → WOut) : Out :=
  issue s st (fun c =>
    let ea := c.ea b 3 x
    match c.feWord ea with | .error o => o | .ok (m, off) => f c ea m off)

/-- `LDF` (R150). -/
def execLdf (d b x : Nat) (s : State) : Out :=
  feWordOp s true b x (fun _ ea m off => .fin [] (.commit (.held (.ldf d m off ea.toNat))))
/-- `LDFN` (R150). -/
def execLdfn (d b x : Nat) (s : State) : Out :=
  feWordOp s true b x (fun _ ea m off => .fin [] (.commit (.held (.ldfn d m off ea.toNat))))
/-- `STE` (R150). -/
def execSte (d b x : Nat) (s : State) : Out :=
  feWordOp s true b x (fun c _ m off => .fin [] (.commit (.held (.ste m off (c.x d)))))
/-- `STF` (R150). -/
def execStf (st : Bool) (d b x : Nat) (s : State) : Out :=
  feWordOp s st b x (fun c ea m off => c.buffer ea.toNat [.stf m off (c.x d)])

/-! ## Atomics (R152, R153) -/

/-- An atomic: checked at issue with write right; its own effect is step 3 of its commit. -/
def atomic (s : State) (op d a b : Nat) (z : Bool) (sc : Scope) : Out :=
  issueWith s true (fun c =>
    let ea := c.x a
    match c.word ea (if z then 3 else 2) .w with
    | .error o => (c.s, o)
    | .ok g => (c.s.useNodes c.bid [g.node], .fin [] (.commit (.held (.amo op z sc d ea.toNat g.pa g.vc (c.x b) (c.x d))))))

/-- `AMOSWAP` (R153). -/
def execAmoswap (d a b : Nat) (z : Bool) (sc : Scope) (s : State) : Out := atomic s 0 d a b z sc
/-- `AMOCAS` (R153). -/
def execAmocas (d a b : Nat) (z : Bool) (sc : Scope) (s : State) : Out := atomic s 1 d a b z sc
/-- `AMOADD` (R153). -/
def execAmoadd (d a b : Nat) (z : Bool) (sc : Scope) (s : State) : Out := atomic s 2 d a b z sc
/-- `AMOAND` (R153). -/
def execAmoand (d a b : Nat) (z : Bool) (sc : Scope) (s : State) : Out := atomic s 3 d a b z sc
/-- `AMOOR` (R153). -/
def execAmoor (d a b : Nat) (z : Bool) (sc : Scope) (s : State) : Out := atomic s 4 d a b z sc
/-- `AMOXOR` (R153). -/
def execAmoxor (d a b : Nat) (z : Bool) (sc : Scope) (s : State) : Out := atomic s 5 d a b z sc
/-- `AMOMIN` (R153). -/
def execAmomin (d a b : Nat) (z : Bool) (sc : Scope) (s : State) : Out := atomic s 6 d a b z sc
/-- `AMOMAX` (R153). -/
def execAmomax (d a b : Nat) (z : Bool) (sc : Scope) (s : State) : Out := atomic s 7 d a b z sc
/-- `AMOMINU` (R153). -/
def execAmominu (d a b : Nat) (z : Bool) (sc : Scope) (s : State) : Out := atomic s 8 d a b z sc
/-- `AMOMAXU` (R153). -/
def execAmomaxu (d a b : Nat) (z : Bool) (sc : Scope) (s : State) : Out := atomic s 9 d a b z sc

/-! ## Reductions and the exact accumulator (R154 to R156) -/

/-- A reduction: checked at issue, buffered, merged at the home when its region commits. -/
def reduction (s : State) (st : Bool) (op a b : Nat) (z : Bool) (sc : Scope) : Out :=
  issueWith s st (fun c =>
    let ea := c.x a
    match c.word ea (if z then 3 else 2) .w with
    | .error o => (c.s, o)
    | .ok g => (c.s.useNodes c.bid [g.node], c.buffer ea.toNat [.red op z sc g.pa g.vc (c.x b)]))

/-- `REDADD` (R154). -/
def execRedadd (st : Bool) (a b : Nat) (z : Bool) (sc : Scope) (s : State) : Out := reduction s st 0 a b z sc
/-- `REDAND` (R154). -/
def execRedand (st : Bool) (a b : Nat) (z : Bool) (sc : Scope) (s : State) : Out := reduction s st 1 a b z sc
/-- `REDOR` (R154). -/
def execRedor (st : Bool) (a b : Nat) (z : Bool) (sc : Scope) (s : State) : Out := reduction s st 2 a b z sc
/-- `REDXOR` (R154). -/
def execRedxor (st : Bool) (a b : Nat) (z : Bool) (sc : Scope) (s : State) : Out := reduction s st 3 a b z sc
/-- `REDMIN` (R154). -/
def execRedmin (st : Bool) (a b : Nat) (z : Bool) (sc : Scope) (s : State) : Out := reduction s st 4 a b z sc
/-- `REDMAX` (R154). -/
def execRedmax (st : Bool) (a b : Nat) (z : Bool) (sc : Scope) (s : State) : Out := reduction s st 5 a b z sc
/-- `REDMINU` (R154). -/
def execRedminu (st : Bool) (a b : Nat) (z : Bool) (sc : Scope) (s : State) : Out := reduction s st 6 a b z sc
/-- `REDMAXU` (R154). -/
def execRedmaxu (st : Bool) (a b : Nat) (z : Bool) (sc : Scope) (s : State) : Out := reduction s st 7 a b z sc
/-- `REDFMIN` (R154). -/
def execRedfmin (st : Bool) (a b : Nat) (sc : Scope) (s : State) : Out := reduction s st 8 a b false sc
/-- `REDFMAX` (R154). -/
def execRedfmax (st : Bool) (a b : Nat) (sc : Scope) (s : State) : Out := reduction s st 9 a b false sc
/-- `XAADD` (R155). -/
def execXaadd (st : Bool) (a b : Nat) (sc : Scope) (t : XTy) (s : State) : Out :=
  issueWith s st (fun c =>
    let ea := c.x a
    match c.word ea 6 .w with
    | .error o => (c.s, o)
    | .ok g => (c.s.useNodes c.bid [g.node], c.buffer ea.toNat [.xa t sc g.pa g.vc (c.x b)]))
/-- `XARD` (R156): a load at the cell's home. DEDUCED: the bits above the code are zero (notes/assumptions/40.md). -/
def execXard (st : Bool) (d a : Nat) (r : Rnd) (f : Bool) (s : State) : Out :=
  issueWith s st (fun c =>
    let ea := c.x a
    if alignedTo 6 ea then
      match c.load ea 64 .home with
      | .out o => (c.s, o)
      | .got s bs =>
        let v := xaRead (leNum bs) (if f then fmtBF16 else fmtF32) r
        (s, .items [.sreg d (BitVec.ofNat 64 v.code)] v.fl)
    else (c.s, misaligned 6 ea))

end Sys2Proof.Machine
end

