-- ==== Sys2Proof/Machine/Vector.lean ====
section
/-! DEFINITION. The vector and mask instructions (07_core_vector R128 to R145). -/

namespace Sys2Proof.Machine

/-! ## Shared forms (R129) -/

/-- A result and the flags it raises. -/
def Res.pair (r : Res) : Nat × Nat := (r.code, r.fl)
/-- A result that raises nothing. -/
def quietRes (x : Nat) : Nat × Nat := (x, 0)

/-- An element-wise word of two sources. -/
def vec2 (s : State) (st : Bool) (d a b : Nat) (m : Mask) (t : ETy) (f : Nat → Nat → Nat × Nat) : Out :=
  issue s st (fun c => c.vmap d t.width m (fun i => f (elem (c.v a) t.width i) (elem (c.v b) t.width i)))

/-- An element-wise word of one source. -/
def vec1 (s : State) (st : Bool) (d a : Nat) (m : Mask) (t : ETy) (f : Nat → Nat × Nat) : Out :=
  issue s st (fun c => c.vmap d t.width m (fun i => f (elem (c.v a) t.width i)))

/-- An element-wise word that reads `vd` too. -/
def vec3 (s : State) (st : Bool) (d a b : Nat) (m : Mask) (t : ETy) (f : Nat → Nat → Nat → Nat × Nat) : Out :=
  issue s st (fun c =>
    c.vmap d t.width m (fun i => f (elem (c.v a) t.width i) (elem (c.v b) t.width i) (elem (c.v d) t.width i)))

/-- A compare word (R138). -/
def vcmp (s : State) (st : Bool) (d a b : Nat) (m : Mask) (t : ETy) (f : Nat → Nat → Bool × Nat) : Out :=
  issue s st (fun c => c.vmask d t.width m (fun i => f (elem (c.v a) t.width i) (elem (c.v b) t.width i)))

/-- The class F or the class I reading of an op. -/
def byClass (t : ETy) (f : Fmt → Nat → Nat → Res) (g : Nat → Nat → Nat → Nat) (x y : Nat) : Nat × Nat :=
  if t.cls = .F then (f (etyFmt t) x y).pair else quietRes (g t.width x y)

/-! ## Element results -/

/-- Smaller or larger of two signed elements (R131). -/
def minInt (w x y : Nat) : Nat := if sintOf w x ≤ sintOf w y then x else y
def maxInt (w x y : Nat) : Nat := if sintOf w y ≤ sintOf w x then x else y
/-- `sat` of R135. -/
def satInt (w : Nat) (i : Int) : Nat := ofSint w (max (-(2 ^ (w - 1) : Int)) (min i (2 ^ (w - 1) - 1 : Int)))
/-- The shift of an element (R134). -/
def sraInt (w x k : Nat) : Nat := ofSint w (sintOf w x / 2 ^ k)
/-- The magnitude of a signed element (R133). -/
def absInt (w x : Nat) : Nat := ofSint w (sintOf w x).natAbs

/-- A class F comparison (R138): the relation, what it gives for a NaN, and whether any NaN raises NV. -/
def cmpF (f : Fmt) (onNan anyNv : Bool) (p : Int → Bool) (x y : Nat) : Bool × Nat :=
  if f.isNan x || f.isNan y then (onNan, if anyNv then flNV else snanFlag f [x, y]) else (p (fpCmp f x y), 0)

/-- A comparison by class. -/
def cmpBy (t : ETy) (onNan anyNv : Bool) (p : Int → Bool) (q : Nat → Nat → Nat → Bool) (x y : Nat) : Bool × Nat :=
  if t.cls = .F then cmpF (etyFmt t) onNan anyNv p x y else (q t.width x y, 0)

/-! ## Arithmetic: major 0x10 -/

/-- `VADD` (R131). -/
def execVadd (st : Bool) (d a b : Nat) (m : Mask) (t : ETy) (s : State) : Out :=
  vec2 s st d a b m t (fun x y => byClass t fpAdd (fun _ x y => x + y) x y)
/-- `VSUB` (R131). -/
def execVsub (st : Bool) (d a b : Nat) (m : Mask) (t : ETy) (s : State) : Out :=
  vec2 s st d a b m t (fun x y => byClass t (fun f x y => fpAdd f x y true) (fun w x y => x + 2 ^ w - y) x y)
/-- `VMUL` (R131). -/
def execVmul (st : Bool) (d a b : Nat) (m : Mask) (t : ETy) (s : State) : Out :=
  vec2 s st d a b m t (fun x y => byClass t fpMul (fun _ x y => x * y) x y)
/-- `VDIV` (R131). -/
def execVdiv (st : Bool) (d a b : Nat) (m : Mask) (t : ETy) (s : State) : Out :=
  vec2 s st d a b m t (fun x y => (fpDiv (etyFmt t) x y).pair)
/-- `VMIN` (R131). -/
def execVmin (st : Bool) (d a b : Nat) (m : Mask) (t : ETy) (s : State) : Out :=
  vec2 s st d a b m t (fun x y => byClass t (fun f => fpMinMax f false) minInt x y)
/-- `VMAX` (R131). -/
def execVmax (st : Bool) (d a b : Nat) (m : Mask) (t : ETy) (s : State) : Out :=
  vec2 s st d a b m t (fun x y => byClass t (fun f => fpMinMax f true) maxInt x y)
/-- `VAND` (R134). -/
def execVand (st : Bool) (d a b : Nat) (m : Mask) (t : ETy) (s : State) : Out :=
  vec2 s st d a b m t (fun x y => quietRes (x &&& y))
/-- `VOR` (R134). -/
def execVor (st : Bool) (d a b : Nat) (m : Mask) (t : ETy) (s : State) : Out :=
  vec2 s st d a b m t (fun x y => quietRes (x ||| y))
/-- `VXOR` (R134). -/
def execVxor (st : Bool) (d a b : Nat) (m : Mask) (t : ETy) (s : State) : Out :=
  vec2 s st d a b m t (fun x y => quietRes (x ^^^ y))
/-- `VSLL` (R134). -/
def execVsll (st : Bool) (d a b : Nat) (m : Mask) (t : ETy) (s : State) : Out :=
  vec2 s st d a b m t (fun x y => quietRes (x * 2 ^ (y % t.width)))
/-- `VSRL` (R134). -/
def execVsrl (st : Bool) (d a b : Nat) (m : Mask) (t : ETy) (s : State) : Out :=
  vec2 s st d a b m t (fun x y => quietRes (x / 2 ^ (y % t.width)))
/-- `VSRA` (R134). -/
def execVsra (st : Bool) (d a b : Nat) (m : Mask) (t : ETy) (s : State) : Out :=
  vec2 s st d a b m t (fun x y => quietRes (sraInt t.width x (y % t.width)))
/-- `VADDS` (R135). -/
def execVadds (st : Bool) (d a b : Nat) (m : Mask) (t : ETy) (s : State) : Out :=
  vec2 s st d a b m t (fun x y => quietRes (satInt t.width (sintOf t.width x + sintOf t.width y)))
/-- `VSUBS` (R135). -/
def execVsubs (st : Bool) (d a b : Nat) (m : Mask) (t : ETy) (s : State) : Out :=
  vec2 s st d a b m t (fun x y => quietRes (satInt t.width (sintOf t.width x - sintOf t.width y)))
/-- `VMULH` (R135). -/
def execVmulh (st : Bool) (d a b : Nat) (m : Mask) (t : ETy) (s : State) : Out :=
  vec2 s st d a b m t (fun x y => quietRes (ofSint t.width (sintOf t.width x * sintOf t.width y / 2 ^ t.width)))
/-- `VSQRT` (R132). -/
def execVsqrt (st : Bool) (d a : Nat) (m : Mask) (t : ETy) (s : State) : Out :=
  vec1 s st d a m t (fun x => (fpSqrt (etyFmt t) x).pair)
/-- `VEXP2` (R132). -/
def execVexp2 (st : Bool) (d a : Nat) (m : Mask) (t : ETy) (s : State) : Out :=
  vec1 s st d a m t (fun x => (fpExp2 (etyFmt t) x).pair)
/-- `VLOG2` (R132). -/
def execVlog2 (st : Bool) (d a : Nat) (m : Mask) (t : ETy) (s : State) : Out :=
  vec1 s st d a m t (fun x => (fpLog2 (etyFmt t) x).pair)
/-- `VABS` (R133). -/
def execVabs (st : Bool) (d a : Nat) (m : Mask) (t : ETy) (s : State) : Out :=
  vec1 s st d a m t (fun x => quietRes (if t.cls = .F then x % 2 ^ (t.width - 1) else absInt t.width x))
/-- `VNEG` (R133). -/
def execVneg (st : Bool) (d a : Nat) (m : Mask) (t : ETy) (s : State) : Out :=
  vec1 s st d a m t (fun x => quietRes (if t.cls = .F then x ^^^ 2 ^ (t.width - 1) else 2 ^ t.width - x))
/-- `VMV` (R133). -/
def execVmv (st : Bool) (d a : Nat) (m : Mask) (t : ETy) (s : State) : Out :=
  vec1 s st d a m t (fun x => quietRes x)
/-- `VCLZ` (R136). -/
def execVclz (st : Bool) (d a : Nat) (m : Mask) (t : ETy) (s : State) : Out :=
  vec1 s st d a m t (fun x => quietRes (clzN t.width x))
/-- `VPOPC` (R136). -/
def execVpopc (st : Bool) (d a : Nat) (m : Mask) (t : ETy) (s : State) : Out :=
  vec1 s st d a m t (fun x => quietRes (popN t.width x))
/-- `VFFS` (R136). -/
def execVffs (st : Bool) (d a : Nat) (m : Mask) (t : ETy) (s : State) : Out :=
  vec1 s st d a m t (fun x => quietRes (ffsN t.width x))

/-! ## Fused multiply-add: major 0x11 -/

/-- `VFMA` (R137). -/
def execVfma (st : Bool) (d a b : Nat) (m : Mask) (t : ETy) (s : State) : Out :=
  vec3 s st d a b m t (fun x y z => (fpFma (etyFmt t) false false x y z).pair)
/-- `VFMS` (R137). -/
def execVfms (st : Bool) (d a b : Nat) (m : Mask) (t : ETy) (s : State) : Out :=
  vec3 s st d a b m t (fun x y z => (fpFma (etyFmt t) false true x y z).pair)
/-- `VFNMA` (R137). -/
def execVfnma (st : Bool) (d a b : Nat) (m : Mask) (t : ETy) (s : State) : Out :=
  vec3 s st d a b m t (fun x y z => (fpFma (etyFmt t) true false x y z).pair)
/-- `VFNMS` (R137). -/
def execVfnms (st : Bool) (d a b : Nat) (m : Mask) (t : ETy) (s : State) : Out :=
  vec3 s st d a b m t (fun x y z => (fpFma (etyFmt t) true true x y z).pair)

/-! ## Compare and select: major 0x12 -/

/-- `VCEQ` (R138). -/
def execVceq (st : Bool) (d a b : Nat) (m : Mask) (t : ETy) (s : State) : Out :=
  vcmp s st d a b m t (fun x y => cmpBy t false false (fun o => o == 0) (fun _ x y => x == y) x y)
/-- `VCNE` (R138). -/
def execVcne (st : Bool) (d a b : Nat) (m : Mask) (t : ETy) (s : State) : Out :=
  vcmp s st d a b m t (fun x y => cmpBy t true false (fun o => o != 0) (fun _ x y => x != y) x y)
/-- `VCLT` (R138). -/
def execVclt (st : Bool) (d a b : Nat) (m : Mask) (t : ETy) (s : State) : Out :=
  vcmp s st d a b m t (fun x y => cmpBy t false true (fun o => o == -1) (fun w x y => decide (sintOf w x < sintOf w y)) x y)
/-- `VCLE` (R138). -/
def execVcle (st : Bool) (d a b : Nat) (m : Mask) (t : ETy) (s : State) : Out :=
  vcmp s st d a b m t (fun x y => cmpBy t false true (fun o => o != 1) (fun w x y => decide (sintOf w x ≤ sintOf w y)) x y)
/-- `VCLTU` (R138). -/
def execVcltu (st : Bool) (d a b : Nat) (m : Mask) (t : ETy) (s : State) : Out :=
  vcmp s st d a b m t (fun x y => (decide (x < y), 0))
/-- `VCLEU` (R138). -/
def execVcleu (st : Bool) (d a b : Nat) (m : Mask) (t : ETy) (s : State) : Out :=
  vcmp s st d a b m t (fun x y => (decide (x ≤ y), 0))
/-- `VCUN` (R138). -/
def execVcun (st : Bool) (d a b : Nat) (m : Mask) (t : ETy) (s : State) : Out :=
  vcmp s st d a b m t (fun x y => cmpF (etyFmt t) true false (fun _ => false) x y)
/-- `VSEL` (R139). -/
def execVsel (st : Bool) (d a b : Nat) (t : ETy) (s : State) : Out :=
  issue s st (fun c => c.vmap d t.width .all (fun i =>
    quietRes (if elem (c.v 0) 1 i = 1 then elem (c.v a) t.width i else elem (c.v b) t.width i)))

/-! ## Conversion: major 0x13 -/

/-- `VCVT` (R140). -/
def execVcvt (st : Bool) (d a : Nat) (u : ETy) (m : Mask) (t : ETy) (r : Rnd) (s : State) : Out :=
  issue s st (fun c => c.vmapN (c.vl (max t.width u.width)) d u.width m (fun i =>
    (convert t.code (elem (c.v a) t.width i) u.code r).pair))

/-! ## Permutation: major 0x14 -/

/-- The indices that v0 selects, lowest first. -/
def WCtx.selected (c : WCtx) (w : Nat) : List Nat := (List.range (c.vl w)).filter (fun i => elem (c.v 0) 1 i == 1)

/-- `VCOMPRESS` (R141). -/
def execVcompress (st : Bool) (d a : Nat) (t : ETy) (s : State) : Out :=
  issue s st (fun c =>
    .items [.vreg d (BitVec.ofNat 1024 (packElems t.width ((c.selected t.width).map (elem (c.v a) t.width))))] 0)

/-- `VEXPAND` (R141): each selected element takes the next element of `va`. -/
def execVexpand (st : Bool) (d a : Nat) (t : ETy) (s : State) : Out :=
  issue s st (fun c => c.vmap d t.width .all (fun i =>
    quietRes (if elem (c.v 0) 1 i = 1 then
      elem (c.v a) t.width ((c.selected t.width).filter (fun j => decide (j < i))).length else 0)))

/-- Element `j` of a register among the first `n`, 0 past them. -/
def elemBelow (v : VReg) (w n j : Nat) : Nat := if j < n then elem v w j else 0

/-- `VPERM` (R142). -/
def execVperm (st : Bool) (d a b : Nat) (m : Mask) (t : ETy) (s : State) : Out :=
  issue s st (fun c => c.vmap d t.width m (fun i =>
    quietRes (elemBelow (c.v a) t.width (c.vl t.width) (elem (c.v b) t.width i))))
/-- `VSLIDEUP` (R142). -/
def execVslideup (st : Bool) (d a b : Nat) (m : Mask) (t : ETy) (s : State) : Out :=
  issue s st (fun c => c.vmap d t.width m (fun i =>
    quietRes (if (c.x b).toNat ≤ i then elem (c.v a) t.width (i - (c.x b).toNat) else 0)))
/-- `VSLIDEDN` (R142). -/
def execVslidedn (st : Bool) (d a b : Nat) (m : Mask) (t : ETy) (s : State) : Out :=
  issue s st (fun c => c.vmap d t.width m (fun i =>
    quietRes (elemBelow (c.v a) t.width (c.vl t.width) (i + (c.x b).toNat))))
/-- `VBCAST` (R143). -/
def execVbcast (st : Bool) (d a : Nat) (m : Mask) (t : ETy) (s : State) : Out :=
  issue s st (fun c => c.vmap d t.width m (fun _ => quietRes (c.x a).toNat))
/-- `VEXTR` (R143). -/
def execVextr (st : Bool) (d a b : Nat) (t : ETy) (s : State) : Out :=
  issue s st (fun c =>
    let v := elemBelow (c.v a) t.width (c.vl t.width) (c.x b).toNat
    scalarOut d (if t.cls = .I then sextW t.width v else BitVec.ofNat 64 v))
/-- `VIDX` (R143). -/
def execVidx (st : Bool) (d : Nat) (m : Mask) (t : ETy) (s : State) : Out :=
  issue s st (fun c => c.vmap d t.width m quietRes)

/-! ## Reduction: major 0x15 (R40, R144) -/

/-- Combine two elements, one of which may be the absent marker of R144. -/
def combine (op : Nat → Nat → Nat × Nat) : Option Nat → Option Nat → Option Nat × Nat
  | none, y => (y, 0)
  | some x, none => (some x, 0)
  | some x, some y => let r := op x y; (some r.1, r.2)

/-- `tree_reduce` of R40 on `2 ^ k` elements. -/
def treeReduce (op : Nat → Nat → Nat × Nat) : Nat → List (Option Nat) → Nat → Option Nat × Nat
  | 0, t, fl => (t.getD 0 none, fl)
  | k + 1, t, fl =>
    let r := List.zipWith (combine op) (t.take (2 ^ k)) (t.drop (2 ^ k))
    treeReduce op k (r.map (·.1)) (r.foldl (fun a e => a ||| e.2) fl)

/-- The levels of a tree over `n` elements. -/
def treeLevels (n : Nat) : Nat := ((List.range 8).find? (fun k => decide (n ≤ 2 ^ k))).getD 7

/-- A reduction word (R144): `id` is the identity, none for the absent marker; `empty` what a marker delivers. -/
def vred (s : State) (st : Bool) (d a : Nat) (m : Mask) (t : ETy) (op : Nat → Nat → Nat × Nat) (id : Option Nat)
    (empty : Nat) : Out :=
  issue s st (fun c =>
    let n := c.vl t.width
    let k := treeLevels n
    let xs := (List.range (2 ^ k)).map (fun i => if i < n ∧ c.active m i then some (elem (c.v a) t.width i) else id)
    let r := treeReduce op k xs 0
    .items [.vreg d (BitVec.ofNat 1024 (r.1.getD empty % 2 ^ t.width))] r.2)

/-- The identity of a maximum (`neg`) or minimum (R40, R144). -/
def extremeId (t : ETy) (neg : Bool) : Option Nat :=
  if t.cls = .F then
    (if (etyFmt t).hasInf then some ((etyFmt t).infc + (etyFmt t).signBit neg) else none)
  else some (if neg then 2 ^ (t.width - 1) else 2 ^ (t.width - 1) - 1)

/-- `VREDSUM` (R144). -/
def execVredsum (st : Bool) (d a : Nat) (m : Mask) (t : ETy) (s : State) : Out :=
  vred s st d a m t (byClass t fpAdd (fun w x y => (x + y) % 2 ^ w)) (some (if t.cls = .F then (etyFmt t).signBit true else 0)) 0
/-- `VREDMAX` (R144). -/
def execVredmax (st : Bool) (d a : Nat) (m : Mask) (t : ETy) (s : State) : Out :=
  vred s st d a m t (byClass t (fun f => fpMinMax f true) maxInt) (extremeId t true) 0xFE
/-- `VREDMIN` (R144). -/
def execVredmin (st : Bool) (d a : Nat) (m : Mask) (t : ETy) (s : State) : Out :=
  vred s st d a m t (byClass t (fun f => fpMinMax f false) minInt) (extremeId t false) 0x7E
/-- `VREDAND` (R144). -/
def execVredand (st : Bool) (d a : Nat) (m : Mask) (t : ETy) (s : State) : Out :=
  vred s st d a m t (fun x y => quietRes (x &&& y)) (some (2 ^ t.width - 1)) 0
/-- `VREDOR` (R144). -/
def execVredor (st : Bool) (d a : Nat) (m : Mask) (t : ETy) (s : State) : Out :=
  vred s st d a m t (fun x y => quietRes (x ||| y)) (some 0) 0
/-- `VREDXOR` (R144). -/
def execVredxor (st : Bool) (d a : Nat) (m : Mask) (t : ETy) (s : State) : Out :=
  vred s st d a m t (fun x y => quietRes (x ^^^ y)) (some 0) 0

/-! ## Mask operations: major 0x16 (R145) -/

/-- A word that writes a mask from the low n bits of two registers. -/
def maskOp (s : State) (st : Bool) (d a b : Nat) (t : ETy) (f : Nat → Nat → Nat) : Out :=
  issue s st (fun c =>
    let n := c.vl t.width
    .items [.vreg d (BitVec.ofNat 1024 (f ((c.v a).toNat % 2 ^ n) ((c.v b).toNat % 2 ^ n) % 2 ^ n))] 0)

/-- `VMAND` (R145). -/
def execVmand (st : Bool) (d a b : Nat) (t : ETy) (s : State) : Out := maskOp s st d a b t (fun x y => x &&& y)
/-- `VMOR` (R145). -/
def execVmor (st : Bool) (d a b : Nat) (t : ETy) (s : State) : Out := maskOp s st d a b t (fun x y => x ||| y)
/-- `VMXOR` (R145). -/
def execVmxor (st : Bool) (d a b : Nat) (t : ETy) (s : State) : Out := maskOp s st d a b t (fun x y => x ^^^ y)
/-- `VMANDN` (R145). -/
def execVmandn (st : Bool) (d a b : Nat) (t : ETy) (s : State) : Out := maskOp s st d a b t (fun x y => x ^^^ (x &&& y))
/-- `VMNOT` (R145). -/
def execVmnot (st : Bool) (d a : Nat) (t : ETy) (s : State) : Out :=
  issue s st (fun c =>
    let n := c.vl t.width
    .items [.vreg d (BitVec.ofNat 1024 (2 ^ n - 1 - (c.v a).toNat % 2 ^ n))] 0)
/-- `VMPOPC` (R145). -/
def execVmpopc (st : Bool) (d a : Nat) (t : ETy) (s : State) : Out :=
  issue s st (fun c => scalarOut d (BitVec.ofNat 64 (popN (c.vl t.width) (c.v a).toNat)))
/-- `VMFFS` (R145). -/
def execVmffs (st : Bool) (d a : Nat) (t : ETy) (s : State) : Out :=
  issue s st (fun c => scalarOut d (BitVec.ofNat 64 (ffsN (c.vl t.width) (c.v a).toNat)))

end Sys2Proof.Machine
end

