-- ==== Sys2Proof/Machine/Dispatch.lean ====
section
/-! DEFINITION. Dispatch: one arm per row of spec/opcode_table.json, each a direct call of its meaning. -/

namespace Sys2Proof.Machine

def exec (i : Instr) (s : State) : Host.Outcome State Fault Refusal :=
  match i with
  | .add st d a b => Sys2Proof.Machine.execAdd st d a b s
  | .sub st d a b => Sys2Proof.Machine.execSub st d a b s
  | .and st d a b => Sys2Proof.Machine.execAnd st d a b s
  | .or st d a b => Sys2Proof.Machine.execOr st d a b s
  | .xor st d a b => Sys2Proof.Machine.execXor st d a b s
  | .andn st d a b => Sys2Proof.Machine.execAndn st d a b s
  | .orn st d a b => Sys2Proof.Machine.execOrn st d a b s
  | .sll st d a b => Sys2Proof.Machine.execSll st d a b s
  | .srl st d a b => Sys2Proof.Machine.execSrl st d a b s
  | .sra st d a b => Sys2Proof.Machine.execSra st d a b s
  | .rol st d a b => Sys2Proof.Machine.execRol st d a b s
  | .ror st d a b => Sys2Proof.Machine.execRor st d a b s
  | .slt st d a b => Sys2Proof.Machine.execSlt st d a b s
  | .sltu st d a b => Sys2Proof.Machine.execSltu st d a b s
  | .seq st d a b => Sys2Proof.Machine.execSeq st d a b s
  | .sne st d a b => Sys2Proof.Machine.execSne st d a b s
  | .min st d a b => Sys2Proof.Machine.execMin st d a b s
  | .max st d a b => Sys2Proof.Machine.execMax st d a b s
  | .minu st d a b => Sys2Proof.Machine.execMinu st d a b s
  | .maxu st d a b => Sys2Proof.Machine.execMaxu st d a b s
  | .mul st d a b => Sys2Proof.Machine.execMul st d a b s
  | .mulh st d a b => Sys2Proof.Machine.execMulh st d a b s
  | .mulhu st d a b => Sys2Proof.Machine.execMulhu st d a b s
  | .mulhsu st d a b => Sys2Proof.Machine.execMulhsu st d a b s
  | .div st d a b => Sys2Proof.Machine.execDiv st d a b s
  | .divu st d a b => Sys2Proof.Machine.execDivu st d a b s
  | .rem st d a b => Sys2Proof.Machine.execRem st d a b s
  | .remu st d a b => Sys2Proof.Machine.execRemu st d a b s
  | .clz st d a => Sys2Proof.Machine.execClz st d a s
  | .ctz st d a => Sys2Proof.Machine.execCtz st d a s
  | .popc st d a => Sys2Proof.Machine.execPopc st d a s
  | .ffs st d a => Sys2Proof.Machine.execFfs st d a s
  | .brev st d a => Sys2Proof.Machine.execBrev st d a s
  | .bswap st d a => Sys2Proof.Machine.execBswap st d a s
  | .sxb st d a => Sys2Proof.Machine.execSxb st d a s
  | .sxh st d a => Sys2Proof.Machine.execSxh st d a s
  | .sxw st d a => Sys2Proof.Machine.execSxw st d a s
  | .zxb st d a => Sys2Proof.Machine.execZxb st d a s
  | .zxh st d a => Sys2Proof.Machine.execZxh st d a s
  | .zxw st d a => Sys2Proof.Machine.execZxw st d a s
  | .addi st d a imm => Sys2Proof.Machine.execAddi st d a imm s
  | .andi st d a imm => Sys2Proof.Machine.execAndi st d a imm s
  | .ori st d a imm => Sys2Proof.Machine.execOri st d a imm s
  | .xori st d a imm => Sys2Proof.Machine.execXori st d a imm s
  | .slti st d a imm => Sys2Proof.Machine.execSlti st d a imm s
  | .sltiu st d a imm => Sys2Proof.Machine.execSltiu st d a imm s
  | .slli st d a c => Sys2Proof.Machine.execSlli st d a c s
  | .srli st d a c => Sys2Proof.Machine.execSrli st d a c s
  | .srai st d a c => Sys2Proof.Machine.execSrai st d a c s
  | .rori st d a c => Sys2Proof.Machine.execRori st d a c s
  | .lui st d imm => Sys2Proof.Machine.execLui st d imm s
  | .addpc st d imm => Sys2Proof.Machine.execAddpc st d imm s
  | .beqz a x => Sys2Proof.Machine.execBeqz a x s
  | .bnez a x => Sys2Proof.Machine.execBnez a x s
  | .bltz a x => Sys2Proof.Machine.execBltz a x s
  | .bgez a x => Sys2Proof.Machine.execBgez a x s
  | .bgtz a x => Sys2Proof.Machine.execBgtz a x s
  | .blez a x => Sys2Proof.Machine.execBlez a x s
  | .bodd a x => Sys2Proof.Machine.execBodd a x s
  | .j x => Sys2Proof.Machine.execJ x s
  | .jl x => Sys2Proof.Machine.execJl x s
  | .jlr d a imm => Sys2Proof.Machine.execJlr d a imm s
  | .srd st d n => Sys2Proof.Machine.execSrd st d n s
  | .swr st a n => Sys2Proof.Machine.execSwr st a n s
  | .srset st d a n => Sys2Proof.Machine.execSrset st d a n s
  | .srclr st d a n => Sys2Proof.Machine.execSrclr st d a n s
  | .vadd st d a b m t => Sys2Proof.Machine.execVadd st d a b m t s
  | .vsub st d a b m t => Sys2Proof.Machine.execVsub st d a b m t s
  | .vmul st d a b m t => Sys2Proof.Machine.execVmul st d a b m t s
  | .vdiv st d a b m t => Sys2Proof.Machine.execVdiv st d a b m t s
  | .vmin st d a b m t => Sys2Proof.Machine.execVmin st d a b m t s
  | .vmax st d a b m t => Sys2Proof.Machine.execVmax st d a b m t s
  | .vsqrt st d a m t => Sys2Proof.Machine.execVsqrt st d a m t s
  | .vexp2 st d a m t => Sys2Proof.Machine.execVexp2 st d a m t s
  | .vlog2 st d a m t => Sys2Proof.Machine.execVlog2 st d a m t s
  | .vabs st d a m t => Sys2Proof.Machine.execVabs st d a m t s
  | .vneg st d a m t => Sys2Proof.Machine.execVneg st d a m t s
  | .vmv st d a m t => Sys2Proof.Machine.execVmv st d a m t s
  | .vand st d a b m t => Sys2Proof.Machine.execVand st d a b m t s
  | .vor st d a b m t => Sys2Proof.Machine.execVor st d a b m t s
  | .vxor st d a b m t => Sys2Proof.Machine.execVxor st d a b m t s
  | .vsll st d a b m t => Sys2Proof.Machine.execVsll st d a b m t s
  | .vsrl st d a b m t => Sys2Proof.Machine.execVsrl st d a b m t s
  | .vsra st d a b m t => Sys2Proof.Machine.execVsra st d a b m t s
  | .vadds st d a b m t => Sys2Proof.Machine.execVadds st d a b m t s
  | .vsubs st d a b m t => Sys2Proof.Machine.execVsubs st d a b m t s
  | .vmulh st d a b m t => Sys2Proof.Machine.execVmulh st d a b m t s
  | .vclz st d a m t => Sys2Proof.Machine.execVclz st d a m t s
  | .vpopc st d a m t => Sys2Proof.Machine.execVpopc st d a m t s
  | .vffs st d a m t => Sys2Proof.Machine.execVffs st d a m t s
  | .vfma st d a b m t => Sys2Proof.Machine.execVfma st d a b m t s
  | .vfms st d a b m t => Sys2Proof.Machine.execVfms st d a b m t s
  | .vfnma st d a b m t => Sys2Proof.Machine.execVfnma st d a b m t s
  | .vfnms st d a b m t => Sys2Proof.Machine.execVfnms st d a b m t s
  | .vceq st d a b m t => Sys2Proof.Machine.execVceq st d a b m t s
  | .vcne st d a b m t => Sys2Proof.Machine.execVcne st d a b m t s
  | .vclt st d a b m t => Sys2Proof.Machine.execVclt st d a b m t s
  | .vcle st d a b m t => Sys2Proof.Machine.execVcle st d a b m t s
  | .vcltu st d a b m t => Sys2Proof.Machine.execVcltu st d a b m t s
  | .vcleu st d a b m t => Sys2Proof.Machine.execVcleu st d a b m t s
  | .vcun st d a b m t => Sys2Proof.Machine.execVcun st d a b m t s
  | .vsel st d a b t => Sys2Proof.Machine.execVsel st d a b t s
  | .vcvt st d a u m t r => Sys2Proof.Machine.execVcvt st d a u m t r s
  | .vcompress st d a t => Sys2Proof.Machine.execVcompress st d a t s
  | .vexpand st d a t => Sys2Proof.Machine.execVexpand st d a t s
  | .vperm st d a b m t => Sys2Proof.Machine.execVperm st d a b m t s
  | .vslideup st d a b m t => Sys2Proof.Machine.execVslideup st d a b m t s
  | .vslidedn st d a b m t => Sys2Proof.Machine.execVslidedn st d a b m t s
  | .vbcast st d a m t => Sys2Proof.Machine.execVbcast st d a m t s
  | .vextr st d a b t => Sys2Proof.Machine.execVextr st d a b t s
  | .vidx st d m t => Sys2Proof.Machine.execVidx st d m t s
  | .vredsum st d a m t => Sys2Proof.Machine.execVredsum st d a m t s
  | .vredmax st d a m t => Sys2Proof.Machine.execVredmax st d a m t s
  | .vredmin st d a m t => Sys2Proof.Machine.execVredmin st d a m t s
  | .vredand st d a m t => Sys2Proof.Machine.execVredand st d a m t s
  | .vredor st d a m t => Sys2Proof.Machine.execVredor st d a m t s
  | .vredxor st d a m t => Sys2Proof.Machine.execVredxor st d a m t s
  | .vmand st d a b t => Sys2Proof.Machine.execVmand st d a b t s
  | .vmor st d a b t => Sys2Proof.Machine.execVmor st d a b t s
  | .vmxor st d a b t => Sys2Proof.Machine.execVmxor st d a b t s
  | .vmandn st d a b t => Sys2Proof.Machine.execVmandn st d a b t s
  | .vmnot st d a t => Sys2Proof.Machine.execVmnot st d a t s
  | .vmpopc st d a t => Sys2Proof.Machine.execVmpopc st d a t s
  | .vmffs st d a t => Sys2Proof.Machine.execVmffs st d a t s
  | .ldb st d b spc x => Sys2Proof.Machine.execLdb st d b spc x s
  | .ldh st d b spc x => Sys2Proof.Machine.execLdh st d b spc x s
  | .ldw st d b spc x => Sys2Proof.Machine.execLdw st d b spc x s
  | .ldd st d b spc x => Sys2Proof.Machine.execLdd st d b spc x s
  | .ldbu st d b spc x => Sys2Proof.Machine.execLdbu st d b spc x s
  | .ldhu st d b spc x => Sys2Proof.Machine.execLdhu st d b spc x s
  | .ldwu st d b spc x => Sys2Proof.Machine.execLdwu st d b spc x s
  | .stb st d b spc x => Sys2Proof.Machine.execStb st d b spc x s
  | .sth st d b spc x => Sys2Proof.Machine.execSth st d b spc x s
  | .stw st d b spc x => Sys2Proof.Machine.execStw st d b spc x s
  | .std st d b spc x => Sys2Proof.Machine.execStd st d b spc x s
  | .vld st d b spc x => Sys2Proof.Machine.execVld st d b spc x s
  | .vst st d b spc x => Sys2Proof.Machine.execVst st d b spc x s
  | .ldf d b x => Sys2Proof.Machine.execLdf d b x s
  | .ldfn d b x => Sys2Proof.Machine.execLdfn d b x s
  | .ste d b x => Sys2Proof.Machine.execSte d b x s
  | .stf st d b x => Sys2Proof.Machine.execStf st d b x s
  | .amoswap d a b z sc => Sys2Proof.Machine.execAmoswap d a b z sc s
  | .amocas d a b z sc => Sys2Proof.Machine.execAmocas d a b z sc s
  | .amoadd d a b z sc => Sys2Proof.Machine.execAmoadd d a b z sc s
  | .amoand d a b z sc => Sys2Proof.Machine.execAmoand d a b z sc s
  | .amoor d a b z sc => Sys2Proof.Machine.execAmoor d a b z sc s
  | .amoxor d a b z sc => Sys2Proof.Machine.execAmoxor d a b z sc s
  | .amomin d a b z sc => Sys2Proof.Machine.execAmomin d a b z sc s
  | .amomax d a b z sc => Sys2Proof.Machine.execAmomax d a b z sc s
  | .amominu d a b z sc => Sys2Proof.Machine.execAmominu d a b z sc s
  | .amomaxu d a b z sc => Sys2Proof.Machine.execAmomaxu d a b z sc s
  | .redadd st a b z sc => Sys2Proof.Machine.execRedadd st a b z sc s
  | .redand st a b z sc => Sys2Proof.Machine.execRedand st a b z sc s
  | .redor st a b z sc => Sys2Proof.Machine.execRedor st a b z sc s
  | .redxor st a b z sc => Sys2Proof.Machine.execRedxor st a b z sc s
  | .redmin st a b z sc => Sys2Proof.Machine.execRedmin st a b z sc s
  | .redmax st a b z sc => Sys2Proof.Machine.execRedmax st a b z sc s
  | .redminu st a b z sc => Sys2Proof.Machine.execRedminu st a b z sc s
  | .redmaxu st a b z sc => Sys2Proof.Machine.execRedmaxu st a b z sc s
  | .redfmin st a b sc => Sys2Proof.Machine.execRedfmin st a b sc s
  | .redfmax st a b sc => Sys2Proof.Machine.execRedfmax st a b sc s
  | .xaadd st a b sc t => Sys2Proof.Machine.execXaadd st a b sc t s
  | .xard st d a r f => Sys2Proof.Machine.execXard st d a r f s
  | .lease st a => Sys2Proof.Machine.execLease st a s
  | .lrel => Sys2Proof.Machine.execLrel s
  | .fence st sc => Sys2Proof.Machine.execFence st sc s
  | .barv st a => Sys2Proof.Machine.execBarv st a s
  | .barvx st a b => Sys2Proof.Machine.execBarvx st a b s
  | .bwait a b => Sys2Proof.Machine.execBwait a b s
  | .tlwait a b => Sys2Proof.Machine.execTlwait a b s
  | .ttdef st a b => Sys2Proof.Machine.execTtdef st a b s
  | .ttwait a => Sys2Proof.Machine.execTtwait a s
  | .ttrel st a => Sys2Proof.Machine.execTtrel st a s
  | .mturn st d a => Sys2Proof.Machine.execMturn st d a s
  | .mtend st d => Sys2Proof.Machine.execMtend st d s
  | .mringcfg st d a b => Sys2Proof.Machine.execMringcfg st d a b s
  | .mringadv st d a b => Sys2Proof.Machine.execMringadv st d a b s
  | .mzero st d a => Sys2Proof.Machine.execMzero st d a s
  | .mma st d a b o => Sys2Proof.Machine.execMma st d a b o s
  | .mmax st d a b => Sys2Proof.Machine.execMmax st d a b s
  | .mrec st d a b => Sys2Proof.Machine.execMrec st d a b s
  | .mldprog st d a => Sys2Proof.Machine.execMldprog st d a s
  | .maccrd st d a b imm => Sys2Proof.Machine.execMaccrd st d a b imm s
  | .maccwr st d a b => Sys2Proof.Machine.execMaccwr st d a b s
  | .mstat st d a l => Sys2Proof.Machine.execMstat st d a l s
  | .scopy st d a q => Sys2Proof.Machine.execScopy st d a q s
  | .scopy2d st d a q => Sys2Proof.Machine.execScopy2d st d a q s
  | .sfill st d a q => Sys2Proof.Machine.execSfill st d a q s
  | .scvt st d a q => Sys2Proof.Machine.execScvt st d a q s
  | .shint st d a q => Sys2Proof.Machine.execShint st d a q s
  | .sqcfg st d a q => Sys2Proof.Machine.execSqcfg st d a q s
  | .sqstat st d a q => Sys2Proof.Machine.execSqstat st d a q s
  | .sqstatNamed st d a b => Sys2Proof.Machine.execSqstatNamed st d a b s
  | .sqrst st d q => Sys2Proof.Machine.execSqrst st d q s
  | .cdef st d a => Sys2Proof.Machine.execCdef st d a s
  | .crsz st d a => Sys2Proof.Machine.execCrsz st d a s
  | .cflush st d a b => Sys2Proof.Machine.execCflush st d a b s
  | .cinval st d a b => Sys2Proof.Machine.execCinval st d a b s
  | .cquery st d a b l => Sys2Proof.Machine.execCquery st d a b l s
  | .cplace st d a b => Sys2Proof.Machine.execCplace st d a b s
  | .cdrop st d a => Sys2Proof.Machine.execCdrop st d a s
  | .map st d a => Sys2Proof.Machine.execMap st d a s
  | .grant st d a => Sys2Proof.Machine.execGrant st d a s
  | .unmap st d a b => Sys2Proof.Machine.execUnmap st d a b s
  | .unmapx st d a b => Sys2Proof.Machine.execUnmapx st d a b s
  | .send st d a => Sys2Proof.Machine.execSend st d a s
  | .recv a b p => Sys2Proof.Machine.execRecv a b p s
  | .call a b => Sys2Proof.Machine.execCall a b s
  | .reply st d a => Sys2Proof.Machine.execReply st d a s
  | .epdrop st d a => Sys2Proof.Machine.execEpdrop st d a s
  | .epinfo st d a => Sys2Proof.Machine.execEpinfo st d a s
  | .chbind st d a b => Sys2Proof.Machine.execChbind st d a b s
  | .mquery st d a b l => Sys2Proof.Machine.execMquery st d a b l s
  | .spawn st a => Sys2Proof.Machine.execSpawn st a s
  | .spawng st a => Sys2Proof.Machine.execSpawng st a s
  | .pdec st a => Sys2Proof.Machine.execPdec st a s
  | .chpri st a => Sys2Proof.Machine.execChpri st a s
  | .endOp => Sys2Proof.Machine.execEndOp s
  | .ginfo st d a => Sys2Proof.Machine.execGinfo st d a s
  | .affin st a => Sys2Proof.Machine.execAffin st a s
  | .wstat st d a l => Sys2Proof.Machine.execWstat st d a l s
  | .setshp st d a => Sys2Proof.Machine.execSetshp st d a s
  | .ckpt => Sys2Proof.Machine.execCkpt s
  | .yield => Sys2Proof.Machine.execYield s
  | .trap a b c => Sys2Proof.Machine.execTrap a b c s
  | .bkpt => Sys2Proof.Machine.execBkpt s
  | .rpt c l x y z e => Sys2Proof.Machine.execRpt c l x y z e s
  | .pfx p => Sys2Proof.Machine.execPfx p s
  | .leasemaxWrite b v => Sys2Proof.Machine.execLeasemaxWrite b v s
  | .tleaseWrite b v => Sys2Proof.Machine.execTleaseWrite b v s
  | .slotcfgWrite b v => Sys2Proof.Machine.execSlotcfgWrite b v s
  | .fpflagsWrite b v => Sys2Proof.Machine.execFpflagsWrite b v s
  | .sysregWrite b n v => Sys2Proof.Machine.execSysregWrite b n v s
  | .feHeldPerform b => Sys2Proof.Machine.execFeHeldPerform b s
  | .matrixCommandBegin flight => Sys2Proof.Machine.execMatrixCommandBegin flight s
  | .matrixCommandComplete flight => Sys2Proof.Machine.execMatrixCommandComplete flight s
  | .turnRelease core => Sys2Proof.Machine.execTurnRelease core s
  | .sluiceCommandBegin flight q => Sys2Proof.Machine.execSluiceCommandBegin flight q s
  | .sluiceCommandComplete flight q n => Sys2Proof.Machine.execSluiceCommandComplete flight q n s
  | .sluiceTimeout flight q n => Sys2Proof.Machine.execSluiceTimeout flight q n s
  | .composerCommandComplete vcid => Sys2Proof.Machine.execComposerCommandComplete vcid s
  | .resizeLineMove vcid => Sys2Proof.Machine.execResizeLineMove vcid s
  | .bankShareFault die share => Sys2Proof.Machine.execBankShareFault die share s
  | .mappingCommandBegin ctx => Sys2Proof.Machine.execMappingCommandBegin ctx s
  | .mappingCommandComplete ctx => Sys2Proof.Machine.execMappingCommandComplete ctx s
  | .contextFree ctx => Sys2Proof.Machine.execContextFree ctx s
  | .heldFaultQueue chan => Sys2Proof.Machine.execHeldFaultQueue chan s
  | .leaseExpiry b => Sys2Proof.Machine.execLeaseExpiry b s
  | .preemption b => Sys2Proof.Machine.execPreemption b s
  | .shootdown party => Sys2Proof.Machine.execShootdown party s
  | .shootdownAck party => Sys2Proof.Machine.execShootdownAck party s
  | .backInvalidate core granule drop => Sys2Proof.Machine.execBackInvalidate core granule drop s
  | .translationWalk core ctx va => Sys2Proof.Machine.execTranslationWalk core ctx va s
  | .translationLeaseExpiry core node => Sys2Proof.Machine.execTranslationLeaseExpiry core node s
  | .slotDispatch die => Sys2Proof.Machine.execSlotDispatch die s
  | .weirPeriod die => Sys2Proof.Machine.execWeirPeriod die s
  | .flightJoin flight => Sys2Proof.Machine.execFlightJoin flight s
  | .slotBoundary => Sys2Proof.Machine.execSlotBoundary s
  | .notifyWrite port off size v => Sys2Proof.Machine.execNotifyWrite port off size v s
  | .dispatch port q => Sys2Proof.Machine.execDispatch port q s
  | .dispatchg port q => Sys2Proof.Machine.execDispatchg port q s
  | .order port q => Sys2Proof.Machine.execOrder port q s
  | .maint port q => Sys2Proof.Machine.execMaint port q s
  | .packetCompletion port q n => Sys2Proof.Machine.execPacketCompletion port q n s
  | .ctxcreate port q => Sys2Proof.Machine.execCtxcreate port q s
  | .ctxdestroy port q => Sys2Proof.Machine.execCtxdestroy port q s
  | .bindq port q => Sys2Proof.Machine.execBindq port q s
  | .resetq port q => Sys2Proof.Machine.execResetq port q s
  | .unbindq port q => Sys2Proof.Machine.execUnbindq port q s
  | .setlimit port q => Sys2Proof.Machine.execSetlimit port q s
  | .tenant port q => Sys2Proof.Machine.execTenant port q s
  | .slotset port q => Sys2Proof.Machine.execSlotset port q s
  | .epset port q => Sys2Proof.Machine.execEpset port q s
  | .chown port q => Sys2Proof.Machine.execChown port q s
  | .unisolate port q => Sys2Proof.Machine.execUnisolate port q s
  | .bias port q => Sys2Proof.Machine.execBias port q s
  | .intrset port q => Sys2Proof.Machine.execIntrset port q s
  | .evring port q => Sys2Proof.Machine.execEvring port q s
  | .inject port q => Sys2Proof.Machine.execInject port q s
  | .peerset port q => Sys2Proof.Machine.execPeerset port q s
  | .exportOp port q => Sys2Proof.Machine.execExportOp port q s
  | .hostAccessTimeout b => Sys2Proof.Machine.execHostAccessTimeout b s
  | .hostMemoryAccess port wr pa data => Sys2Proof.Machine.execHostMemoryAccess port wr pa data s
  | .atsInvalidation port base len => Sys2Proof.Machine.execAtsInvalidation port base len s
  | .expanderHotAdd e port => Sys2Proof.Machine.execExpanderHotAdd e port s
  | .imageWrite image => Sys2Proof.Machine.execImageWrite image s
  | .getVersion port req => Sys2Proof.Machine.execGetVersion port req s
  | .getCapabilities port req => Sys2Proof.Machine.execGetCapabilities port req s
  | .negotiateAlgorithms port req => Sys2Proof.Machine.execNegotiateAlgorithms port req s
  | .getDigests port req => Sys2Proof.Machine.execGetDigests port req s
  | .getCertificate port req => Sys2Proof.Machine.execGetCertificate port req s
  | .challenge port req => Sys2Proof.Machine.execChallenge port req s
  | .getMeasurements port req => Sys2Proof.Machine.execGetMeasurements port req s
  | .keyExchange port req => Sys2Proof.Machine.execKeyExchange port req s
  | .finish port req => Sys2Proof.Machine.execFinish port req s
  | .endSession port req => Sys2Proof.Machine.execEndSession port req s
  | .configLocked port q => Sys2Proof.Machine.execConfigLocked port q s
  | .run port q => Sys2Proof.Machine.execRun port q s
  | .error port q => Sys2Proof.Machine.execError port q s
  | .ideIntegrityFailure port q => Sys2Proof.Machine.execIdeIntegrityFailure port q s
  | .counterWindow => Sys2Proof.Machine.execCounterWindow s
  | .coldStart => Sys2Proof.Machine.execColdStart s
  | .warmStart => Sys2Proof.Machine.execWarmStart s
  | .powerLimit mw => Sys2Proof.Machine.execPowerLimit mw s
  | .throttle die => Sys2Proof.Machine.execThrottle die s
  | .trip die => Sys2Proof.Machine.execTrip die s
  | .linkFlitReceive link crcOk hdr => Sys2Proof.Machine.execLinkFlitReceive link crcOk hdr s
  | .linkRequest peer tag wr off len data note => Sys2Proof.Machine.execLinkRequest peer tag wr off len data note s
  | .linkResponse flight q n data status => Sys2Proof.Machine.execLinkResponse flight q n data status s
  | .linkDown link cause => Sys2Proof.Machine.execLinkDown link cause s
  | .peerTimeout peer cause => Sys2Proof.Machine.execPeerTimeout peer cause s
  | .viewAppliesWrite die k => Sys2Proof.Machine.execViewAppliesWrite die k s
  | .injectionTakesEffect k => Sys2Proof.Machine.execInjectionTakesEffect k s
  | .configUnlocked port q => Sys2Proof.Machine.execConfigUnlocked port q s

end Sys2Proof.Machine
end

