-- ==== Sys2Proof/Machine/Agenda.lean ====
section
/-! DEFINITION. What can happen next: the next word of a core (05_core_state R97), or a step of an engine, the wharf, the
host edge, a view or a link whose condition holds. Where several can, R8 leaves their order open. -/

namespace Sys2Proof.Machine

/-- Something that can happen next. All but `issue`, `fpTrap`, `late`, `ended`, `interrupts` and `idle` are steps of
95_what_each_step_holds under their names. -/
inductive Act
  /-- a core issues the next word of a barge -/
  | issue (bid : Nat)
  /-- the FP exception of a barge that came back after `YIELD` is taken (R190) -/
  | fpTrap (bid : Nat)
  /-- the effects that a barge has still to release go on, and its commit (R13) -/
  | late (bid : Nat)
  | feHeldPerform (bid : Nat)
  | preemption (bid : Nat)
  | leaseExpiry (bid : Nat)
  /-- the record of an ended barge has reached memory, and the rest of its end follows (R163, R328) -/
  | ended (bid : Nat)
  | hostAccessTimeout (bid : Nat)
  | sluiceBegin (f q : Nat)
  | sluiceComplete (f q n : Nat)
  | sluiceTimeout (f q n : Nat)
  | matrixBegin (f : Nat)
  | matrixComplete (f : Nat)
  | turnRelease (core : Nat)
  | composer (vcid : Nat)
  | resizeLineMove (vcid : Nat)
  | mappingBegin (ctx : Nat)
  | mappingComplete (ctx : Nat)
  | contextFree (ctx : Nat)
  | heldFaultQueue (chan : Nat)
  | shootdown (core : Nat)
  | shootdownAck (core : Nat)
  | translationLeaseExpiry (core node : Nat)
  | slotDispatch (die : Nat)
  | weirPeriod (die : Nat)
  | flightJoin (f : Nat)
  | slotBoundary
  | viewApplies (die k : Nat)
  | packetPass (qi : Nat)
  | packetRead (port q : Nat)
  | packetCompletion (qi n : Nat)
  /-- the interrupts of a queue that waited for a record are sent (R354) -/
  | interrupts (qi : Nat)
  | injection (k : Nat)
  | counterWindow
  | linkRequest
  | linkNotice
  | linkNoticeOut
  | peerTimeout (j : Nat)
  /-- only time passes, while what can happen is an engine's to do when it will (R227, notes/assumptions/17.md) -/
  | idle
  deriving DecidableEq, Repr

/-- Is an act one that no rule gives a time: an engine's, the wharf's, a view's or a link's, which may take longer (R8)? -/
def Act.untimed : Act → Bool
  | .issue _ => false | .fpTrap _ => false | .leaseExpiry _ => false | .hostAccessTimeout _ => false | .sluiceTimeout _ _ _ => false
  | .translationLeaseExpiry _ _ => false | .weirPeriod _ => false | .slotBoundary => false | .injection _ => false
  | .counterWindow => false | .linkNoticeOut => false | .peerTimeout _ => false | _ => true

/-! ## What can happen -/

/-- Is the target that left an access of a barge unanswered one that answers now, or is isolated (R357, R359)? -/
def State.answered (s : State) (b : Barge) : Bool :=
  match b.unanswered with
  | none => true
  | some (t, _) =>
    tgetD false s.slu.isolated t || (decide (t < 0x300) && !s.hst.stalls.any (fun e => e.1 == t) && s.answers t)

/-- Is every granule that the next word of a barge waits for still held back, or what its core has released (R163)? -/
def State.stallHolds (s : State) (bid : Nat) (b : Barge) : Bool :=
  match b.run with
  | some r => (!r.stall.isEmpty && r.stall.all (s.blockedAt bid)) || (r.waits && s.coreWaits bid b.core)
  | none => false

/-- Is the next word of a barge ready to issue (R97)? It is not at a suspension point, within a commit, nor about to leave its slot. -/
def State.canIssue (s : State) (bid : Nat) (b : Barge) : Bool :=
  b.st == .resident && b.held.isNone && b.fpx.isNone && b.commit.isNone && s.answered b && !b.mayLeave && !s.leaseOut b &&
    !s.stallHolds bid b && !s.dieStopped (dieOf b.core)

/-- The barge that a core issues from (R97): the one whose run it has begun, until that run ends or must wait; else the first
ready slot counted upward from the one after the last. -/
def State.issueFrom (s : State) (core : Nat) : Option Nat :=
  let last := tgetD 7 s.lastSlot core
  let l := (s.resident core).filter (fun e => s.canIssue e.1 e.2)
  match l.find? (fun e => e.2.slot == last && e.2.run.isSome) with
  | some e => some e.1
  | none =>
    let turn (slot : Nat) : Nat := (slot + 7 - last) % 8
    (l.foldl (fun (m : Option (Nat × Barge)) e =>
      match m with | none => some e | some x => if turn e.2.slot < turn x.2.slot then some e else m) none).map (·.1)

/-- `a` where a condition holds. -/
def onlyIf (c : Bool) (a : Act) : List Act := if c then [a] else []

/-- What a barge can do or meet; on a die that has stopped, nothing (R366). -/
def State.bargeActs (s : State) (e : Nat × Barge) : List Act :=
  let b := e.2
  if b.st != .resident || s.dieStopped (dieOf b.core) then []
  else
    onlyIf (s.leaseOut b) (.leaseExpiry e.1) ++ onlyIf b.mayLeave (.preemption e.1) ++
      onlyIf (s.unansweredOut b).isSome (.hostAccessTimeout e.1) ++
      (match b.held with
        | some h => onlyIf (s.canGo e.1 b h) (.feHeldPerform e.1)
        | none => onlyIf (b.fpx.isSome && !b.mayLeave) (.fpTrap e.1))

/-- The late effects that can go on, of a barge in any STATE. -/
def State.lateActs (s : State) : List Act :=
  (s.barges.filter (fun e => s.lateReady e.1 e.2 && !s.dieStopped (dieOf e.2.core))).map (fun e => Act.late e.1)

/-- The barges whose end waited behind a lease and waits no longer. -/
def State.endActs (s : State) : List Act :=
  (s.barges.filter (fun e => e.2.st == .ended && e.2.owes && !s.endWaits e.1)).map (fun e => Act.ended e.1)

/-- The cores on which barges are resident. -/
def State.busyCores (s : State) : List Nat :=
  ((s.barges.filter (fun e => e.2.st == .resident)).map (fun e => e.2.core)).eraseDups

def State.issueActs (s : State) : List Act := s.busyCores.filterMap (fun c => (s.issueFrom c).map Act.issue)

/-- Has the die of a flight stopped (R366)? -/
def State.flightStopped (s : State) (f : Nat) : Bool := s.dieStopped (f / 40)

/-- The sluices (R203, R215, R218). -/
def State.sluiceActs (s : State) : List Act :=
  (s.slu.cmds.filter (fun e => !s.flightStopped e.1)).flatMap (fun e =>
    (match s.slPick e.1 with | some q => [Act.sluiceBegin e.1 q] | none => []) ++
      e.2.flatMap (fun c =>
        onlyIf (s.slDone e.1 c) (.sluiceComplete e.1 c.q c.n) ++ onlyIf (s.slExpires e.1 c) (.sluiceTimeout e.1 c.q c.n)))

/-- The matrix arrays (R231, R232). -/
def State.matrixActs (s : State) : List Act :=
  let on (f : Nat) (c : Bool) (a : Act) : List Act := onlyIf (c && !s.flightStopped f) a
  ((s.arr.queue.map (fun e => flightOf e.1)).eraseDups.flatMap (fun f => on f (s.matrixNext f).isSome (.matrixBegin f))) ++
    s.arr.running.flatMap (fun e => on e.1 (s.matrixDone e.1).isSome (.matrixComplete e.1)) ++
    s.arr.turn.flatMap (fun e => on (flightOf e.1) (s.turnReady e.1) (.turnRelease e.1))

/-- The composers (R266, R274). -/
def State.composerActs (s : State) : List Act :=
  let walking := (s.com.vc.filter (fun e => e.2.state == 2)).map (·.1)
  ((s.com.queue.map (·.1) ++ walking).eraseDups.flatMap (fun k => onlyIf (s.comNext k).isSome (.composer k))) ++
    walking.flatMap (fun k => onlyIf (s.walkLine k).isSome (.resizeLineMove k))

/-- Has the die of a party of a shoot-down stopped: a core, a sluice, a composer, a walker (R310, R366)? The link agent stands on
none. -/
def State.partyStopped (s : State) (k : Nat) : Bool :=
  if k < 640 then s.dieStopped (dieOf k)
  else if k < 800 then s.flightStopped (k - 640)
  else if k < 850 then s.dieStopped (k - 800)
  else decide (k < 900) && s.dieStopped (k - 850)

/-- The mapping engine and the parties of its shoot-downs (R306, R307, R310, R311). -/
def State.mappingActs (s : State) : List Act :=
  s.map.queue.flatMap (fun e => onlyIf (s.mapNext e.1).isSome (.mappingBegin e.1)) ++
    ((s.map.pending.map (·.ctx)).eraseDups.flatMap (fun c =>
      onlyIf (s.mapDone c).isSome (.mappingComplete c) ++ onlyIf (s.ctxDone c).isSome (.contextFree c))) ++
    (((s.map.pending.flatMap (·.parties)).eraseDups.filter (fun c => !s.partyStopped c)).flatMap (fun c =>
      [if s.mayAck c then Act.shootdownAck c else Act.shootdown c])) ++
    s.map.chans.flatMap (fun e => onlyIf (s.heldNext e.1).isSome (.heldFaultQueue e.1)) ++
    s.mem.tcache.flatMap (fun e => e.2.flatMap (fun t => onlyIf (s.tleaseOut e.1 t.key).isSome (.translationLeaseExpiry e.1 t.key)))

/-- The wharf (R335 to R343). -/
def State.wharfActs (s : State) : List Act :=
  let waits := s.barges.any (fun e => e.2.st == .ready || e.2.st == .waiting)
  (([0, 1, 2, 3] : List Nat).flatMap (fun d =>
    onlyIf (waits && (s.stageNext d).isSome) (.slotDispatch d) ++
      onlyIf (!s.dieStopped d && (decide (tgetD 65536 s.whf.nextWeir d ≤ s.cycle) || (waits && (s.urgent d).isSome)))
        (.weirPeriod d))) ++
    s.whf.moves.flatMap (fun m => onlyIf (s.joinable m.flight).isSome (.flightJoin m.flight)) ++
    onlyIf (s.slotAt s.now != s.whf.curSlot) .slotBoundary

/-- Views (R175, R177): the writes that can go a stage further toward each die's view. -/
def State.viewActs (s : State) : List Act :=
  if s.mem.flight.isEmpty && s.mem.out.isEmpty then []
  else
    allDies.flatMap (fun d =>
      ((s.mem.waiting d).zipIdx.filter (fun e => s.mem.canMove d e.1)).map (fun e => Act.viewApplies d e.2))

/-- The host edge and the security core (R351, R354, R359, R364). -/
def State.hostActs (s : State) : List Act :=
  ((s.hst.packets.map (·.qi)).eraseDups.flatMap (fun k =>
    match s.lineHead k with | some p => onlyIf (s.mayPass p) (.packetPass k) | none => [])) ++
    s.hst.packets.flatMap (fun p => onlyIf (s.packetDone p) (.packetCompletion p.qi p.n)) ++
    ((s.hst.queues.map (fun e => e.1 / 64)).eraseDups.flatMap (fun p =>
      match s.readTurn p with | some q => [Act.packetRead p q] | none => [])) ++
    ((s.hst.irqs.map (·.1)).eraseDups.filter (fun k => (s.nextIrq k).any (s.irqDue k))).map Act.interrupts ++
    (s.hst.injections.zipIdx.filter (fun e => decide (e.1.due ≤ s.cycle))).map (fun e => Act.injection e.2) ++
    onlyIf (decide (s.hst.nextWindow ≤ s.now)) .counterWindow

/-- The module links (R369 to R371). -/
def State.linkActs (s : State) : List Act :=
  onlyIf s.nextRequest.isSome .linkRequest ++ onlyIf s.nextNotice.isSome .linkNotice ++
    onlyIf s.lateNotice.isSome .linkNoticeOut ++
    (s.lnk.peers.filter (fun e => s.peerLate e.1 && !tgetD false s.slu.isolated (0x200 + e.1))).map (fun e => Act.peerTimeout e.1)

/-- Everything that can happen next, but that time alone passes. -/
def State.events (s : State) : List Act :=
  s.barges.flatMap s.bargeActs ++ s.lateActs ++ s.endActs ++ s.issueActs ++ s.sluiceActs ++ s.matrixActs ++ s.composerActs ++ s.mappingActs ++
    s.wharfActs ++ s.viewActs ++ s.hostActs ++ s.linkActs

/-- Everything that can happen next. DESIGN CHOICE: where all of it may take longer, only time may pass (notes/assumptions/17.md). -/
def State.acts (s : State) : List Act := s.events ++ onlyIf (!s.events.isEmpty && s.events.all Act.untimed) .idle

/-! ## Doing it -/

/-- The next word of a barge leaves its run for issue. -/
def State.present (s : State) (bid : Nat) (b : Barge) (r : Run) (w : FWord) (ws : List FWord) : State :=
  { s.setB bid { b with run := some { r with words := ws, here := w, stall := [], waits := false } } with cur := bid }

/-- A core issues the next word of a barge, fetching its next run where it has none; a target that has not answered has done so now,
the fetch or the word (R357). -/
def State.issueWord (s : State) (bid : Nat) : Out :=
  let s := s.updB bid (fun b => { b with heard := b.unanswered.isSome, unanswered := none })
  let s := if (s.barge bid).run.isNone then (s.openRun bid (s.barge bid)).updB bid (fun b => { b with heard := false }) else s
  let b := s.barge bid
  match b.run with
  | none => .next s
  | some r =>
    match r.words with
    | [] => .next s
    | w :: ws => exec w.instr (s.present bid b r w ws)

/-- The FP exception that waited for a barge to be resident again (R190). -/
def State.trapFp (s : State) (bid : Nat) : State :=
  match (s.barge bid).fpx with
  | some f => s.takeExc bid f.exc
  | none => s

/-- A queue's first consumed packet passes. -/
def State.passHead (s : State) (qi : Nat) : State :=
  match s.lineHead qi with
  | some p => if s.mayPass p then s.pass p else s
  | none => s

/-- One thing happens. -/
def State.doAct (s : State) : Act → Out
  | .issue b => s.issueWord b
  | .fpTrap b => .next (s.trapFp b)
  | .late b => .next (s.goLate b)
  | .feHeldPerform b => execFeHeldPerform b s
  | .preemption b => execPreemption b s
  | .leaseExpiry b => execLeaseExpiry b s
  | .ended b => .next (s.ended b)
  | .hostAccessTimeout b => execHostAccessTimeout b s
  | .sluiceBegin f q => execSluiceCommandBegin f q s
  | .sluiceComplete f q n => execSluiceCommandComplete f q n s
  | .sluiceTimeout f q n => execSluiceTimeout f q n s
  | .matrixBegin f => execMatrixCommandBegin f s
  | .matrixComplete f => execMatrixCommandComplete f s
  | .turnRelease c => execTurnRelease c s
  | .composer v => execComposerCommandComplete v s
  | .resizeLineMove v => execResizeLineMove v s
  | .mappingBegin c => execMappingCommandBegin c s
  | .mappingComplete c => execMappingCommandComplete c s
  | .contextFree c => execContextFree c s
  | .heldFaultQueue c => execHeldFaultQueue c s
  | .shootdown c => execShootdown c s
  | .shootdownAck c => execShootdownAck c s
  | .translationLeaseExpiry c k => execTranslationLeaseExpiry c k s
  | .slotDispatch d => execSlotDispatch d s
  | .weirPeriod d => execWeirPeriod d s
  | .flightJoin f => execFlightJoin f s
  | .slotBoundary => execSlotBoundary s
  | .viewApplies d k => execViewAppliesWrite d k s
  | .packetPass k => .next (s.passHead k)
  | .packetRead p q => .next (if s.readTurn p = some q then s.consume (qiOf p q) else s)
  | .packetCompletion k n => .next (s.packetEnd k n)
  | .interrupts k => .next (s.sendIrqs k s.hst.irqs.length)
  | .injection k => execInjectionTakesEffect k s
  | .counterWindow => execCounterWindow s
  | .linkRequest => .next s.serveRequest
  | .linkNotice => .next s.serveNotice
  | .linkNoticeOut => .next s.dropNotice
  | .peerTimeout j => execPeerTimeout j 3 s
  | .idle => .next s

/-- The act of a list that comes next: the only one, or one that a free value chooses (notes/assumptions/1.md). -/
def State.chooseAct (s : State) : List Act → Option Act × State
  | [] => (none, s)
  | [a] => (some a, s)
  | l => (l[Config.choose s.fresh % l.length]?, { s with fresh := s.fresh + 1 })

/-! ## Time and a step -/

/-- A cycle passes (R91, R333). -/
def State.tick (s : State) : State :=
  let t := s.serve
  { t with cycle := t.cycle + 1 }

/-- One of the machine's own acts; where there is none, only time passes. -/
def State.own (s : State) : Out :=
  match s.chooseAct s.acts with
  | (none, t) => .next t
  | (some a, t) => t.doAct a

/-- The input that is due (notes/assumptions/2.md): an event of the table. A word given so is dropped, since words are
fetched. -/
def State.takeInput (s : State) (i : Instr) : Out := if i.isWord then .next s else exec i s

/-- What happens in a step, before the cycle passes. -/
def State.happen (s : State) : Out :=
  match s.inputs with
  | (c, i) :: r => if c ≤ s.cycle then State.takeInput { s with inputs := r } i else s.own
  | [] => s.own

/-! ## Placing a program (notes/assumptions/4.md) -/

/-- Bytes stand in every die's view. -/
def State.layBytes (s : State) (pa : Nat) (bs : List Byte) : State :=
  let m := s.mem
  { s with mem := { m with
      view0 := writeTab m.view0 pa bs, view1 := writeTab m.view1 pa bs
      view2 := writeTab m.view2 pa bs, view3 := writeTab m.view3 pa bs } }

/-- The barge that runs a placed program: of context 0, resident in slot 0 of core 0, at address 0x1000, with a
window of 64 KiB and 64 tile entries. -/
def startBarge : Barge := { st := .resident, ran := true, resume := 0x1000, pc := 0x1000, spf := 16, tiles := 64 }

/-- A program at 0x1000, and the one barge that runs it. -/
def State.withProgram (s : State) (bs : List Byte) : State :=
  { s.layBytes 0x1000 bs with
    inputs := [], barges := [(1, startBarge)], nextBid := max 2 s.nextBid, cur := 0 }

/-- What stands after a placed word: a word of major 2 that writes s0, with its stop bit set. -/
def fillerWord : Nat := 0x84000000

end Sys2Proof.Machine
end

