-- ==== Sys2Proof/Machine/Step.lean ====
section
/-! DEFINITION. One step of the module: what happens, and then a core clock cycle passes. -/

namespace Sys2Proof.Machine

/-- A step: the input that is due, or one of the things that can happen, takes effect; then a cycle passes. -/
def step (s : State) : Host.Outcome State Fault Refusal :=
  match s.happen with
  | .next t => .next t.tick
  | .fault f => .fault f
  | .refused r => .refused r

/-- `s` with a word where `step` fetches next: at address 0x1000, where the one barge stands, with words behind it that
end its run (notes/assumptions/4.md). Every instruction of this machine has 32 bits. -/
def State.withFetchWord (s : State) (_nbits w : Nat) : State :=
  s.withProgram (wordBytes w ++ (List.replicate 16 (wordBytes fillerWord)).flatten)

end Sys2Proof.Machine
end

