-- ==== Sys2Proof/Safety.lean ====
section
/-! DEFINITION. The terms that statements are made in: a machine whose memory has its one form, a barge that issues a
word, what such a word leaves, and a step that stops nowhere. -/

namespace Sys2Proof.Machine

/-! ## The form of memory -/

/-- Each die's view of memory has the canonical form (notes/assumptions/5.md). -/
def MemSt.wf (m : MemSt) : Bool := Memory.wf m.view0 && Memory.wf m.view1 && Memory.wf m.view2 && Memory.wf m.view3

/-- The invariant of the machine's memory. -/
def State.MemWf (s : State) : Prop := s.mem.wf = true

/-! ## A barge that issues a word -/

/-- Barge `b` is resident, and a word of its run `r` issues (05_core_state R97). -/
def Issuing (s : State) (b : Barge) (r : Run) : Prop :=
  s.barge? s.cur = some b ∧ b.st = .resident ∧ b.run = some r

/-- The word that issues is the only one of its run, but for a prefix, and no repeat frame is in progress. -/
def Alone (s : State) (b : Barge) (r : Run) : Prop :=
  Issuing s b r ∧ r.items = [] ∧ r.raised = 0 ∧ r.firstFx = none ∧ b.frame = none

/-- What the word sees. -/
def ctxOf (s : State) (b : Barge) (r : Run) : WCtx := ⟨s, s.cur, b, r⟩

/-- The barge after the one-word run `r`, at the word behind it. -/
def Barge.past (b : Barge) (r : Run) : Barge := { b with pc := r.here.pc + 4, run := none, unanswered := none }

/-- A run with further results `l` and raised flags `fl`; the first word that raises an enabled flag is kept
(10_core_faults R190). -/
def Run.grown (r : Run) (l : List Item) (fl en : Nat) : Run :=
  { r with
    items := r.items ++ l, raised := r.raised ||| fl, pfx := none
    firstFx := if r.firstFx.isNone && (fl &&& en) != 0 then some r.at else r.firstFx }

/-- The barge whose run has grown: nothing else has changed yet (04_encoding R69). -/
def Barge.later (b : Barge) (r : Run) (l : List Item) (fl : Nat := 0) : Barge := { b with run := some (r.grown l fl b.rfpen) }

/-- A scalar register's new value; register 0 discards it (05_core_state R89). -/
def Barge.withS (b : Barge) (d : Nat) (v : Word) : Barge := if d = 0 then b else { b with sreg := tput 0 b.sreg d v }

/-- A vector register's new value. -/
def Barge.withV (b : Barge) (d : Nat) (v : VReg) : Barge := { b with vreg := tput 0 b.vreg d v }

/-- What is left once a word of barge `b` has issued and done `f`: its slot is the one that last issued (R97), and requests that
waited behind it for a leased granule are served (R163). -/
def State.doing (s : State) (b : Barge) (f : State → State) : State := (f (s.issued b)).doneWaiting s.cur

/-- What a word leaves that has results `l` and raises `fl`. `t` is the state as the word's issue changes it, in which the
barge is `c`. With its stop bit clear the run grows; with it set, where no enabled flag was raised, the run ends: every
result of the run is written in order, the flags are raised and the barge goes on; and where the word is alone in its run,
the barge is `c'` with the flags raised, at the word behind. -/
def LeavesIn (i : Bool → Instr) (s : State) (b : Barge) (r : Run) (t : State) (c : Barge) (l : List Item) (fl : Nat)
    (c' : Barge) : Prop :=
  exec (i false) s = .next (t.doing c (fun t => t.setB s.cur (c.later r l fl))) ∧
  ((r.raised ||| fl) &&& b.rfpen = 0 →
    exec (i true) s = .next (t.doing c (fun t => (t.putItems s.cur (r.items ++ l)).updB s.cur (fun e =>
      ({ e with rfpfl := e.rfpfl ||| (r.raised ||| fl) }).goOn r.here.pc (r.here.pc + 4))))) ∧
  (Alone s b r → fl &&& b.rfpen = 0 →
    exec (i true) s = .next (t.doing c (fun t => t.setB s.cur ({ c' with rfpfl := c.rfpfl ||| fl }.past r))))

/-- As `LeavesIn`, for a word whose issue changes nothing. -/
def Leaves (i : Bool → Instr) (s : State) (b : Barge) (r : Run) (l : List Item) (fl : Nat) (b' : Barge) : Prop :=
  LeavesIn i s b r s b l fl b'

/-- A word that writes one scalar register and raises nothing. -/
def WritesS (i : Bool → Instr) (s : State) (b : Barge) (r : Run) (d : Nat) (v : Word) : Prop :=
  Leaves i s b r [.sreg d v] 0 (b.withS d v)

/-- A word that writes one vector register and raises `fl`. -/
def WritesV (i : Bool → Instr) (s : State) (b : Barge) (r : Run) (d : Nat) (v : VReg) (fl : Nat) : Prop :=
  Leaves i s b r [.vreg d v] fl (b.withV d v)

/-- A word that ends its run with results `l` and goes on at address `t`. -/
def EndsAt (i : Instr) (s : State) (b : Barge) (r : Run) (l : List Item) (b' : Barge) (t : Nat) : Prop :=
  (r.raised &&& b.rfpen = 0 →
    exec i s = .next (s.doing b (fun s => (s.putItems s.cur (r.items ++ l)).updB s.cur (fun e =>
      ({ e with rfpfl := e.rfpfl ||| r.raised }).goOn r.here.pc t)))) ∧
  (Alone s b r → exec i s = .next (s.doing b (fun s => s.setB s.cur { b' with pc := t, run := none, unanswered := none })))

/-- A word that takes an exception at once: the run and its region abort (10_core_faults R188). -/
def Traps (i : Instr) (s : State) (r : Run) (cls detail : Nat) (s3 : Word) : Prop :=
  exec i s = .next ((s.issued (s.barge s.cur)).takeExc s.cur { cls := cls, detail := detail, pc := r.at, s3 := s3 })

/-- What the region would buffer with the effects `es` too, by the count of 01_engines R12. -/
def WCtx.countWith (c : WCtx) (es : List Effect) : Nat :=
  capacity (c.effs ++ es) + (c.r.items.filter (fun i => match i with | .cmd _ _ _ => true | _ => false)).length

/-- A word that issues the command `k` on timeline `tl`: its number goes to register `d` at the end of the run, and the
command to the region's effects (01_engines R12, R16). -/
def Commands (i : Bool → Instr) (s : State) (b : Barge) (r : Run) (d tl : Nat) (k : Cmd) : Prop :=
  let n := (s.tl tl).issued + 1
  exec (i false) s = .next (s.doing b (fun s => s.setB s.cur (b.later r [Item.cmd d tl k]))) ∧
  (r.raised &&& b.rfpen = 0 →
    exec (i true) s = .next (s.doing b (fun s => (s.putItems s.cur (r.items ++ [Item.cmd d tl k])).updB s.cur (fun e =>
      ({ e with rfpfl := e.rfpfl ||| r.raised }).goOn r.here.pc (r.here.pc + 4))))) ∧
  (Alone s b r →
    exec (i true) s = .next (s.doing b (fun s => (s.reserve tl k.ctx).2.setB s.cur
      (({ b with eff := b.eff ++ [Effect.cmd tl n k] }.withS d (BitVec.ofNat 64 n)).past r))))

/-- A command of the barge that issues. -/
def cmdOf (s : State) (b : Barge) (op : Op) (x y : Word) (args : List Word := []) : Cmd :=
  { op := op, barge := s.cur, ctx := b.ctx, core := b.core, a := x, b := y, args := args }

/-! ## Stops -/

/-- The machine goes on. -/
def goesOn (o : Out) : Prop := ∃ t, o = .next t

/-- Nothing is due and no barge stands: the machine at rest. -/
def State.atRest (s : State) : Prop := s.inputs = [] ∧ s.acts = []

end Sys2Proof.Machine
end

