-- ==== Sys2Proof/Certificates/Slice0/Obligations.lean ====
section
/-! DEFINITION. The statements about the model, for the provers. Each docstring names the rule of spec/ that it
formalises. In all of them `b` is the barge that issues and `r` its run in progress; registers are read as they stood at the
start of the run (04_encoding R69). -/

open Sys2Proof Sys2Proof.Machine

/-! ## Scalar instructions -/

/-- 06_core_scalar R111: arithmetic and logic. -/
def Machine.ArithmeticAndLogic : Prop :=
  ∀ (s : State) (b : Barge) (r : Run), Issuing s b r → ∀ d p q : Nat,
    let x := (ctxOf s b r).x p
    let y := (ctxOf s b r).x q
    WritesS (.add · d p q) s b r d (x + y) ∧ WritesS (.sub · d p q) s b r d (x - y) ∧
    WritesS (.and · d p q) s b r d (x &&& y) ∧ WritesS (.or · d p q) s b r d (x ||| y) ∧
    WritesS (.xor · d p q) s b r d (x ^^^ y) ∧ WritesS (.andn · d p q) s b r d (x &&& ~~~y) ∧
    WritesS (.orn · d p q) s b r d (x ||| ~~~y)

/-- 06_core_scalar R112: a shift or rotation uses bits 5:0 of its second source as the amount. -/
def Machine.ShiftsAndRotations : Prop :=
  ∀ (s : State) (b : Barge) (r : Run), Issuing s b r → ∀ d p q : Nat,
    let x := (ctxOf s b r).x p
    let k := (((ctxOf s b r).x q).setWidth 6).toNat
    WritesS (.sll · d p q) s b r d (BitVec.ofNat 64 (x.toNat * 2 ^ k)) ∧
    WritesS (.srl · d p q) s b r d (BitVec.ofNat 64 (x.toNat / 2 ^ k)) ∧
    WritesS (.sra · d p q) s b r d (BitVec.ofInt 64 (x.toInt / 2 ^ k)) ∧
    WritesS (.rol · d p q) s b r d (x.rotateLeft k) ∧
    WritesS (.ror · d p q) s b r d (x.rotateRight k)

/-- 06_core_scalar R113: comparisons and extremes. -/
def Machine.ComparisonsAndExtremes : Prop :=
  ∀ (s : State) (b : Barge) (r : Run), Issuing s b r → ∀ d p q : Nat,
    let x := (ctxOf s b r).x p
    let y := (ctxOf s b r).x q
    WritesS (.slt · d p q) s b r d (if x.slt y then 1 else 0) ∧
    WritesS (.sltu · d p q) s b r d (if x.ult y then 1 else 0) ∧
    WritesS (.seq · d p q) s b r d (if x = y then 1 else 0) ∧ WritesS (.sne · d p q) s b r d (if x ≠ y then 1 else 0) ∧
    WritesS (.min · d p q) s b r d (if x.sle y then x else y) ∧ WritesS (.max · d p q) s b r d (if y.sle x then x else y) ∧
    WritesS (.minu · d p q) s b r d (if x.ule y then x else y) ∧ WritesS (.maxu · d p q) s b r d (if y.ule x then x else y)

/-- 06_core_scalar R111, R112, R113: the two-source scalar words. -/
def Obligations.ScalarPairs : Prop := Machine.ArithmeticAndLogic ∧ Machine.ShiftsAndRotations ∧ Machine.ComparisonsAndExtremes

/-- 06_core_scalar R114: multiplication forms the exact product of the operands, and delivers 64 bits of it. The high half is
taken here from products of 128 bits. -/
def Machine.Multiplication : Prop :=
  ∀ (s : State) (b : Barge) (r : Run), Issuing s b r → ∀ d p q : Nat,
    let x := (ctxOf s b r).x p
    let y := (ctxOf s b r).x q
    let sx := x.signExtend 128
    let sy := y.signExtend 128
    let ux := x.setWidth 128
    let uy := y.setWidth 128
    WritesS (.mul · d p q) s b r d ((ux * uy).extractLsb' 0 64) ∧
    WritesS (.mulh · d p q) s b r d ((sx * sy).extractLsb' 64 64) ∧
    WritesS (.mulhu · d p q) s b r d ((ux * uy).extractLsb' 64 64) ∧
    WritesS (.mulhsu · d p q) s b r d ((sx * uy).extractLsb' 64 64)

/-- 06_core_scalar R115: division rounds toward zero, the remainder takes the sign of the dividend, and neither traps. -/
def Machine.Division : Prop :=
  ∀ (s : State) (b : Barge) (r : Run), Issuing s b r → ∀ d p q : Nat,
    let x := (ctxOf s b r).x p
    let y := (ctxOf s b r).x q
    WritesS (.div · d p q) s b r d (if y = 0 then BitVec.allOnes 64 else x.sdiv y) ∧
    WritesS (.divu · d p q) s b r d (if y = 0 then BitVec.allOnes 64 else x / y) ∧
    WritesS (.rem · d p q) s b r d (if y = 0 then x else x.srem y) ∧
    WritesS (.remu · d p q) s b r d (if y = 0 then x else x % y)

/-- 06_core_scalar R114, R115: multiplication and division. -/
def Obligations.MultiplyAndDivide : Prop := Machine.Multiplication ∧ Machine.Division

/-- 06_core_scalar R116: the single-source bit instructions. -/
def Obligations.SingleSourceBits : Prop :=
  ∀ (s : State) (b : Barge) (r : Run), Issuing s b r → ∀ d p : Nat,
    let x := (ctxOf s b r).x p
    let ones := (List.range 64).filter (fun i => x.getLsbD i)
    WritesS (.clz · d p) s b r d (BitVec.ofNat 64 (63 - (ones.getLast?.map (fun i => (i : Int))).getD (-1)).toNat) ∧
    WritesS (.ctz · d p) s b r d (BitVec.ofNat 64 (ones.head?.getD 64)) ∧
    WritesS (.popc · d p) s b r d (BitVec.ofNat 64 ones.length) ∧
    WritesS (.ffs · d p) s b r d (BitVec.ofNat 64 ((ones.head?.map (· + 1)).getD 0)) ∧
    WritesS (.brev · d p) s b r d x.reverse ∧
    (∃ v, WritesS (.bswap · d p) s b r d v ∧ ∀ i < 8, v.extractLsb' (8 * i) 8 = x.extractLsb' (8 * (7 - i)) 8) ∧
    WritesS (.sxb · d p) s b r d ((x.setWidth 8).signExtend 64) ∧ WritesS (.sxh · d p) s b r d ((x.setWidth 16).signExtend 64) ∧
    WritesS (.sxw · d p) s b r d ((x.setWidth 32).signExtend 64) ∧ WritesS (.zxb · d p) s b r d ((x.setWidth 8).setWidth 64) ∧
    WritesS (.zxh · d p) s b r d ((x.setWidth 16).setWidth 64) ∧ WritesS (.zxw · d p) s b r d ((x.setWidth 32).setWidth 64)

/-- The immediate that a word with field `i` uses (04_encoding R73, R79, R81): its 15 bits, or the 40 bits of a prefix and
them, sign-extended, plus what a repeat frame adds. -/
def Machine.immOf (r : Run) (i : Nat) : Word :=
  (match r.pfx with
    | none => (BitVec.ofNat 15 i).signExtend 64
    | some (p, _) => ((BitVec.ofNat 25 p) ++ (BitVec.ofNat 15 i)).signExtend 64) + BitVec.ofNat 64 r.here.inc

/-- 06_core_scalar R117: the arithmetic immediates, with and without a prefix. -/
def Machine.ArithmeticImmediates : Prop :=
  ∀ (s : State) (b : Barge) (r : Run), Issuing s b r → ∀ d p i : Nat, i < 32768 →
    let x := (ctxOf s b r).x p
    let m := Machine.immOf r i
    WritesS (.addi · d p i) s b r d (x + m) ∧ WritesS (.andi · d p i) s b r d (x &&& m) ∧
    WritesS (.ori · d p i) s b r d (x ||| m) ∧ WritesS (.xori · d p i) s b r d (x ^^^ m) ∧
    WritesS (.slti · d p i) s b r d (if x.slt m then 1 else 0) ∧ WritesS (.sltiu · d p i) s b r d (if x.ult m then 1 else 0)

/-- 06_core_scalar R118, R119: the immediate shifts, `LUI` and `ADDPC`. -/
def Machine.ShiftsByConstantAndUpperImmediates : Prop :=
  ∀ (s : State) (b : Barge) (r : Run), Issuing s b r → ∀ d p k i : Nat, k < 64 →
    let x := (ctxOf s b r).x p
    let v := (BitVec.ofNat 20 i).signExtend 64 <<< 12
    WritesS (.slli · d p k) s b r d (BitVec.ofNat 64 (x.toNat * 2 ^ k)) ∧
    WritesS (.srli · d p k) s b r d (BitVec.ofNat 64 (x.toNat / 2 ^ k)) ∧
    WritesS (.srai · d p k) s b r d (BitVec.ofInt 64 (x.toInt / 2 ^ k)) ∧
    WritesS (.rori · d p k) s b r d (x.rotateRight k) ∧
    WritesS (.lui · d i) s b r d v ∧ WritesS (.addpc · d i) s b r d (BitVec.ofNat 64 r.here.pc + v)

/-- 06_core_scalar R117, R118, R119: the scalar words with an immediate. -/
def Obligations.Immediates : Prop := Machine.ArithmeticImmediates ∧ Machine.ShiftsByConstantAndUpperImmediates

/-! ## Control -/

/-- A target that `R123` lets a transfer reach. -/
def Machine.goodTarget (t : Word) : Prop := t.toNat % 4 = 0 ∧ t.toNat < 2 ^ 48

/-- 06_core_scalar R120, R123 (04_encoding R74 the conditions): a conditional branch that is not taken goes on behind
itself, whatever its target; a taken one goes to its target, or raises the fetch-alignment fault. -/
def Machine.ConditionalBranches : Prop :=
  ∀ (s : State) (b : Barge) (r : Run), Issuing s b r → ∀ a x : Nat,
    let v := (ctxOf s b r).x a
    let t := BitVec.ofNat 64 r.here.pc + (BitVec.ofNat 17 x).signExtend 64 <<< 2
    ∀ e ∈ [(Instr.beqz a x, decide (v = 0)), (.bnez a x, decide (v ≠ 0)), (.bltz a x, v.slt 0), (.bgez a x, (0 : Word).sle v),
        (.bgtz a x, (0 : Word).slt v), (.blez a x, v.sle 0), (.bodd a x, v.getLsbD 0)],
      (e.2 = false → EndsAt e.1 s b r [] b (r.here.pc + 4)) ∧
      (e.2 = true → Machine.goodTarget t → EndsAt e.1 s b r [] b t.toNat) ∧
      (e.2 = true → ¬ Machine.goodTarget t → Traps e.1 s r 2 0 t)

/-- 06_core_scalar R121, R122, R123: jumps and their link registers. -/
def Machine.Jumps : Prop :=
  ∀ (s : State) (b : Barge) (r : Run), Issuing s b r → ∀ d a i x : Nat, i < 32768 →
    let link := BitVec.ofNat 64 (r.here.pc + 4)
    let t := BitVec.ofNat 64 r.here.pc + (BitVec.ofNat 25 x).signExtend 64 <<< 2
    let u := (ctxOf s b r).x a + Machine.immOf r i
    (Machine.goodTarget t → EndsAt (.j x) s b r [] b t.toNat ∧ EndsAt (.jl x) s b r [.sreg 31 link] (b.withS 31 link) t.toNat) ∧
    (¬ Machine.goodTarget t → Traps (.j x) s r 2 0 t ∧ Traps (.jl x) s r 2 0 t) ∧
    (Machine.goodTarget u → EndsAt (.jlr d a i) s b r [.sreg d link] (b.withS d link) u.toNat) ∧
    (¬ Machine.goodTarget u → Traps (.jlr d a i) s r 2 0 u)

/-- 06_core_scalar R120 to R123: the control transfers. -/
def Obligations.BranchesAndJumps : Prop := Machine.ConditionalBranches ∧ Machine.Jumps

/-- 04_encoding R79 and R81: a prefix stands in the run for the word behind it, and an `RPT` starts its frame. -/
def Machine.PrefixAndRepeatWords : Prop :=
  ∀ (s : State) (b : Barge) (r : Run), Issuing s b r → ∀ p c l x y z e : Nat,
    exec (.pfx p) s = .next ((s.issued b).setB s.cur { b with run := some { r with pfx := some (p, r.here.pc) } }) ∧
    (Alone s b r → exec (.rpt c l x y z e) s = .next (s.doing b (fun s => s.setB s.cur { b with
      frame := some { rpt := r.here.pc, n := c + 1, len := l + 1, dstep := x, astep := y, bstep := z, en := e },
      run := none, unanswered := none })))

/-- 04_encoding R81: a frame of `n` iterations of `len` words goes through its words in order, iteration by iteration, and
behind the last one goes on at the word after the frame. -/
def Machine.FramesGoInOrder : Prop :=
  ∀ (b : Barge) (f : Frame), b.frame = some f → f.i < f.n → f.j < f.len → ∀ next : Nat,
    let here := f.rpt + 4 + 4 * f.j
    (f.j + 1 < f.len → (b.goOn here next).frame = some { f with j := f.j + 1 } ∧ (b.goOn here next).pc = b.pc) ∧
    (f.j + 1 = f.len → f.i + 1 < f.n →
      (b.goOn here next).frame = some { f with i := f.i + 1, j := 0 } ∧ (b.goOn here next).pc = b.pc) ∧
    (f.j + 1 = f.len → f.i + 1 = f.n →
      (b.goOn here next).frame = none ∧ (b.goOn here next).pc = f.rpt + 4 + 4 * f.len)

/-- 04_encoding R81: an enabled step of a frame word adds the iteration's multiple to a register field, modulo 32, and only
to a field that names a register. -/
def Machine.FrameSteps : Prop :=
  ∀ (f : Frame) (w : Fields),
    let g := f.stepWord w
    let names := regFields w
    g.d = (if names.1 = true ∧ f.en / 8 % 2 = 1 then (w.d + f.i * f.dstep) % 32 else w.d) ∧
    g.a = (if names.2.1 = true ∧ f.en / 4 % 2 = 1 then (w.a + f.i * f.astep) % 32 else w.a) ∧
    g.b = (if names.2.2 = true ∧ f.en / 2 % 2 = 1 then (w.b + f.i * f.bstep) % 32 else w.b) ∧
    g.maj = w.maj ∧ g.st = w.st ∧ g.lo = w.lo

/-- 04_encoding R79, R81, 06_core_scalar R117: the words that a repeat frame's iteration performs. Each is the word at its address,
stepped as `FrameSteps` says, and adds to its immediate (`Machine.immOf`) the iteration number where the `i` enable, bit 0, is set,
and nothing where it is clear; outside a frame nothing is added. -/
def Machine.FrameImmediates : Prop :=
  ∀ (s : State) (b : Barge) (l : List FWord) (ks : List Nat), s.nextRun b = .ok (l, ks) →
    (∀ f : Frame, b.frame = some f → ∀ w ∈ l,
      (w.inc = if f.en % 2 = 1 then f.i else 0) ∧
      ∃ raw k : Nat, s.fetchWord b w.pc = .ok (raw, k) ∧
        ∃ st < 2, decode32 { f.stepWord (Fields.unpack raw) with st := st }.pack = .ok w.instr) ∧
    (b.frame = none → ∀ w ∈ l, w.inc = 0)

/-- 04_encoding R79 and R81, 06_core_scalar R117: a prefix and an `RPT`, the order of a repeat frame's words, and what its iterations
add to their register fields and to their immediates. -/
def Obligations.PrefixAndRepeat : Prop :=
  Machine.PrefixAndRepeatWords ∧ Machine.FramesGoInOrder ∧ Machine.FrameSteps ∧ Machine.FrameImmediates

/-! ## System registers and shapes -/

/-- 05_core_state R91, R92, R93: what a barge reads from the registers of the CORE and BARGE groups, of the mapping engine and of
the wharf: the values as they stand when its run begins (04_encoding R69). -/
def Machine.RegisterValues : Prop :=
  ∀ (s : State) (b : Barge),
    let v (n : Nat) : Word := tgetD 0 (s.sysNow b) n
    v 0x000 = BitVec.ofNat 64 b.core ∧ v 0x001 = BitVec.ofNat 64 b.slot ∧ v 0x002 = BitVec.ofNat 64 s.cycle ∧
    v 0x010 = BitVec.ofNat 64 (s.leaseMaxOf b.core) ∧ v 0x100 = BitVec.ofNat 64 (b.rfpen * 32 + b.rfpfl) ∧
    v 0x101 = shapeWord b.rvl32 b.rtcode ∧ v 0x102 = BitVec.ofNat 64 b.ctx ∧
    v 0x103 = BitVec.ofNat 64 (b.chan + b.pri * 2 ^ 16) ∧ v 0x104 = BitVec.ofNat 64 (b.gmem + b.gsize * 16) ∧
    v 0x105 = BitVec.ofNat 64 (b.spf + b.tiles * 2 ^ 9) ∧ v 0x500 = BitVec.ofNat 64 s.map.tlease ∧
    v 0x501 = BitVec.ofNat 64 ((s.ctx b.ctx).scope + (s.ctx b.ctx).measured.toNat * 8) ∧
    v 0x502 = BitVec.ofNat 64 (s.ctx b.ctx).scopecnt ∧ v 0x503 = BitVec.ofNat 64 (s.map.seq % 2 ^ 40) ∧
    v 0x600 = BitVec.ofNat 64 (s.whf.slotLen + s.whf.slotEn.toNat * 2 ^ 16) ∧
    v 0x601 = BitVec.ofNat 64 (s.epoch + s.cycle / 3) ∧ v 0x602 = s.slotWord b.ctx

/-- 04_encoding R69, 05_core_state R95: a run that opens takes down those values, and `srd` delivers from what its run took down. -/
def Machine.RegisterReads : Prop :=
  (∀ (s : State) (k : Nat) (b : Barge) (w : FWord) (ws : List FWord) (ks : List Nat), s.nextRun b = .ok (w :: ws, ks) →
    ((s.openRun k b).barge k).run = some { words := w :: ws, here := w, sys := s.sysNow b }) ∧
  ∀ (s : State) (b : Barge) (r : Run), Issuing s b r → ∀ d n : Nat, WritesS (.srd · d n) s b r d (tgetD 0 r.sys n)

/-- 04_encoding R69, 05_core_state R91 to R93, R95: reads of system registers. -/
def Obligations.SystemRegisterReads : Prop := Machine.RegisterValues ∧ Machine.RegisterReads

/-- The registers of R95 that are read only. -/
def Machine.readOnlyRegs : List Nat := [0x000, 0x001, 0x002, 0x101, 0x102, 0x103, 0x104, 0x105, 0x501, 0x502, 0x503, 0x601, 0x602]

/-- The write of a register's new value at the end of a run: BARGE.FPFLAGS in the barge; CORE.LEASEMAX between 16 and 1,024,
MAP.TLEASE between 256 and 4,096 and WHARF.SLOTCFG, with a length of 10 at least, in the state. -/
def Machine.regPut (n : Nat) (b : Barge) (w : Word) (s : State) : State × Barge :=
  if n = 0x010 then ({ s with leasemax := tput 256 s.leasemax b.core (min 1024 (max 16 (w.extractLsb' 0 11).toNat)) }, b)
  else if n = 0x500 then ({ s with map := { s.map with tlease := min 4096 (max 256 (w.extractLsb' 0 13).toNat) } }, b)
  else if n = 0x600 then
    ({ s with whf := { s.whf with slotEn := w.getLsbD 16, slotLen := max 10 (w.extractLsb' 0 16).toNat } }, b)
  else (s, { b with rfpen := (w.extractLsb' 5 5).toNat, rfpfl := (w.extractLsb' 0 5).toNat })

/-- 05_core_state R92, R95, 18_mapping R284, 20_wharf R342: a write of BARGE.FPFLAGS, and from context 0 of CORE.LEASEMAX,
MAP.TLEASE and WHARF.SLOTCFG, takes the register's new fields at the end of the run; a write of a register that is read only is
ignored; `srset` and `srclr` deliver the old value and set or clear the bits of their operand. -/
def Machine.SystemRegisterWrites : Prop :=
  ∀ (s : State) (b : Barge) (r : Run), Issuing s b r → Alone s b r → ∀ d a : Nat,
    let v := (ctxOf s b r).x a
    let old (n : Nat) : Word := tgetD 0 r.sys n
    (∀ n ∈ [0x010, 0x100, 0x500, 0x600], n = 0x100 ∨ b.ctx = 0 →
      let put (b : Barge) (w : Word) : State → State := fun s =>
        let p := Machine.regPut n b w s
        p.1.setB s.cur (p.2.past r)
      exec (.swr true a n) s = .next (s.doing b (put b v)) ∧
      exec (.srset true d a n) s = .next (s.doing b (put (b.withS d (old n)) (old n ||| v))) ∧
      exec (.srclr true d a n) s = .next (s.doing b (put (b.withS d (old n)) (old n &&& ~~~v)))) ∧
    (∀ n ∈ Machine.readOnlyRegs,
      let put (b : Barge) : State → State := fun s => s.setB s.cur (b.past r)
      exec (.swr true a n) s = .next (s.doing b (put b)) ∧
      exec (.srset true d a n) s = .next (s.doing b (put (b.withS d (old n)))) ∧
      exec (.srclr true d a n) s = .next (s.doing b (put (b.withS d (old n)))))

/-- What a word with results `l` leaves in its run, whatever the run holds already: with its stop bit clear the run has grown by
them, and with it set the run ends and writes the results of all its words in order (04_encoding R69). -/
def Machine.InRun (i : Bool → Instr) (s : State) (b : Barge) (r : Run) (l : List Item) : Prop :=
  exec (i false) s = .next (s.doing b (fun t => t.setB s.cur (b.later r l))) ∧
  (r.raised &&& b.rfpen = 0 →
    exec (i true) s = .next (s.doing b (fun t => (t.putItems s.cur (r.items ++ l)).updB s.cur (fun e =>
      ({ e with rfpfl := e.rfpfl ||| r.raised }).goOn r.here.pc (r.here.pc + 4)))))

/-- 04_encoding R69, 05_core_state R92, R95: `swr`, `srset` and `srclr` as one word of a run of several: the run takes the register's
new value among its results, behind the old value that `srset` and `srclr` deliver, and the write of that value at the end of the
run gives the register its new fields; of a register that is read only it takes no value. -/
def Machine.SystemRegisterWords : Prop :=
  ∀ (s : State) (b : Barge) (r : Run), Issuing s b r → ∀ d a : Nat,
    let v := (ctxOf s b r).x a
    let old (n : Nat) : Word := tgetD 0 r.sys n
    let words (n : Nat) : List ((Bool → Instr) × List Item × Word) :=
      [((.swr · a n), [], v), ((.srset · d a n), [.sreg d (old n)], old n ||| v), ((.srclr · d a n), [.sreg d (old n)], old n &&& ~~~v)]
    (∀ n ∈ [0x010, 0x100, 0x500, 0x600], n = 0x100 ∨ b.ctx = 0 → ∀ e ∈ words n, ∃ w : Word,
      Machine.InRun e.1 s b r (e.2.1 ++ [.sys n w]) ∧
      ∀ (t : State) (c : Barge), t.barge? s.cur = some c →
        let p := Machine.regPut n c e.2.2 t
        t.putItems s.cur [.sys n w] = p.1.setB s.cur p.2) ∧
    (∀ n ∈ Machine.readOnlyRegs, ∀ e ∈ words n, Machine.InRun e.1 s b r e.2.1)

/-- 05_core_state R92, 18_mapping R283, 20_wharf R342: a write of CORE.LEASEMAX, MAP.TLEASE or WHARF.SLOTCFG from a context
other than 0 raises the privilege fault. -/
def Machine.PrivilegedRegisters : Prop :=
  ∀ (s : State) (b : Barge) (r : Run), Issuing s b r → b.ctx ≠ 0 → ∀ (st : Bool) (d a : Nat), ∀ n ∈ [0x010, 0x500, 0x600],
    Traps (.swr st a n) s r 7 0 (BitVec.ofNat 64 n) ∧ Traps (.srset st d a n) s r 7 0 (BitVec.ofNat 64 n) ∧
    Traps (.srclr st d a n) s r 7 0 (BitVec.ofNat 64 n)

/-- The steps of 95_what_each_step_holds that a register's write is: for a resident barge, in the context that may write; in
another the privilege fault is taken (05_core_state R92). -/
def Machine.RegisterWriteSteps : Prop :=
  ∀ (s : State) (k : Nat) (b : Barge) (v : Word), s.barge? k = some b → b.st = .resident →
    (b.ctx ≠ 0 →
      exec (.leasemaxWrite k v) s = .next (s.takeExc k { cls := 7, pc := b.pc, s3 := 0x010 }) ∧
      exec (.tleaseWrite k v) s = .next (s.takeExc k { cls := 7, pc := b.pc, s3 := 0x500 }) ∧
      exec (.slotcfgWrite k v) s = .next (s.takeExc k { cls := 7, pc := b.pc, s3 := 0x600 })) ∧
    (b.ctx = 0 →
      exec (.leasemaxWrite k v) s = .next { s with
        leasemax := tput 256 s.leasemax b.core (min 1024 (max 16 (v.extractLsb' 0 11).toNat)) } ∧
      exec (.tleaseWrite k v) s = .next { s with
        map := { s.map with tlease := min 4096 (max 256 (v.extractLsb' 0 13).toNat) } } ∧
      exec (.slotcfgWrite k v) s = .next { s with
        whf := { s.whf with slotEn := v.getLsbD 16, slotLen := max 10 (v.extractLsb' 0 16).toNat } }) ∧
    (b.run = none → exec (.fpflagsWrite k v) s =
      .next (s.setB k { b with rfpen := (v.extractLsb' 5 5).toNat, rfpfl := (v.extractLsb' 0 5).toNat })) ∧
    (∀ n ∈ Machine.readOnlyRegs, exec (.sysregWrite k n v) s = .next s)

/-- 04_encoding R69, 05_core_state R92, R95, 18_mapping R283, 20_wharf R342: what a program's write of a system register does, alone in
its run and as one word of several, and the steps that the writes are. -/
def Obligations.WritesOfSystemRegisters : Prop :=
  Machine.SystemRegisterWrites ∧ Machine.SystemRegisterWords ∧ Machine.PrivilegedRegisters ∧ Machine.RegisterWriteSteps

/-- 05_core_state R107: the granted shape, by the table of shapes. -/
def Machine.ShapeGrant : Prop :=
  ∀ q : BitVec 64,
    let v0 := (q.extractLsb' 0 6).toNat
    let r := if q.extractLsb' 8 8 = 0 then 255 else (q.extractLsb' 8 8).toNat
    let c := if q.extractLsb' 16 8 = 0 then 255 else (q.extractLsb' 16 8).toNat
    let v := if v0 = 0 ∨ 32 < v0 then 32 else v0
    ∃ t, t < 8 ∧ setshpGrant q.toNat = BitVec.ofNat 64 (v + shapeRows t * 2 ^ 8 + shapeCols t * 2 ^ 16 + t * 2 ^ 24) ∧
      ((shapeRows t ≤ r ∧ shapeCols t ≤ c ∧ ∀ u < t, ¬ (shapeRows u ≤ r ∧ shapeCols u ≤ c)) ∨
        (t = 7 ∧ ∀ u < 8, ¬ (shapeRows u ≤ r ∧ shapeCols u ≤ c)))

/-- 05_core_state R108: `SETSHP` delivers its grant, and BARGE.SHAPE takes it at the end of the run. -/
def Machine.SetShape : Prop :=
  ∀ (s : State) (b : Barge) (r : Run), Issuing s b r → ∀ d a : Nat,
    let q := ((ctxOf s b r).x a).toNat
    let g := setshpGrant q
    ∃ v t : Nat, shapeWord v t = g ∧
      Leaves (.setshp · d a) s b r [.sreg d g, .shape (v + t * 2 ^ 24)] 0 { b.withS d g with rvl32 := v, rtcode := t }

/-- 05_core_state R107, R108: shape negotiation. -/
def Obligations.Shapes : Prop := Machine.ShapeGrant ∧ Machine.SetShape

/-! ## Vector instructions -/

/-- The flags that a word raises over the active ones of `n` elements. -/
def Machine.flagsOf (c : WCtx) (m : Mask) (n : Nat) (f : Nat → Nat) : Nat :=
  ((List.range n).filter (c.active m)).foldl (fun a k => a ||| f k) 0

/-- 07_core_vector R129, 04_encoding R78: a word that gives each active one of `n` elements of `w` bits the value `f k`, with
the flags it raises; an inactive element keeps its value, or is zero under `.z`; every element past the first `n` is zero. -/
def Machine.Elementwise (i : Bool → Instr) (s : State) (b : Barge) (r : Run) (d w n : Nat) (m : Mask)
    (f : Nat → Nat × Nat) : Prop :=
  let c := ctxOf s b r
  ∃ v : VReg,
    WritesV i s b r d v (Machine.flagsOf c m n (fun k => (f k).2)) ∧
    ∀ k, w * (k + 1) ≤ 1024 → elem v w k =
      (if k < n then (if c.active m k then (f k).1 % 2 ^ w else if m = .zero then 0 else elem (c.v d) w k) else 0)

/-- As `Elementwise`, over the vector length of the element type, from the elements of two registers as bit vectors. -/
def Machine.Elementwise2 (i : Bool → Instr) (s : State) (b : Barge) (r : Run) (d p q : Nat) (m : Mask) (t : ETy)
    (f : BitVec t.width → BitVec t.width → BitVec t.width) : Prop :=
  let c := ctxOf s b r
  let w := t.width
  Machine.Elementwise i s b r d w (b.rvl32 * 32 / w) m (fun k =>
    ((f (BitVec.ofNat w (elem (c.v p) w k)) (BitVec.ofNat w (elem (c.v q) w k))).toNat, 0))

/-- 07_core_vector R131, R134, R135: the integer forms of the two-source words, element by element. -/
def Obligations.VectorIntegerPairs : Prop :=
  ∀ (s : State) (b : Barge) (r : Run), Issuing s b r → ∀ (d p q : Nat) (m : Mask) (t : ETy),
    let w := t.width
    let E (i : Bool → Instr) (f : BitVec w → BitVec w → BitVec w) : Prop := Machine.Elementwise2 i s b r d p q m t f
    let sat (x : Int) : BitVec w := BitVec.ofInt w (max (-2 ^ (w - 1)) (min x (2 ^ (w - 1) - 1)))
    (t.cls = .I →
      E (.vadd · d p q m t) (fun x y => x + y) ∧ E (.vsub · d p q m t) (fun x y => x - y) ∧
      E (.vmul · d p q m t) (fun x y => x * y) ∧
      E (.vmin · d p q m t) (fun x y => if x.sle y then x else y) ∧
      E (.vmax · d p q m t) (fun x y => if y.sle x then x else y) ∧
      E (.vsll · d p q m t) (fun x y => x <<< (y.toNat % w)) ∧ E (.vsrl · d p q m t) (fun x y => x >>> (y.toNat % w)) ∧
      E (.vsra · d p q m t) (fun x y => x.sshiftRight (y.toNat % w)) ∧
      E (.vadds · d p q m t) (fun x y => sat (x.toInt + y.toInt)) ∧
      E (.vsubs · d p q m t) (fun x y => sat (x.toInt - y.toInt)) ∧
      E (.vmulh · d p q m t) (fun x y => BitVec.ofInt w (x.toInt * y.toInt / 2 ^ w))) ∧
    E (.vand · d p q m t) (fun x y => x &&& y) ∧ E (.vor · d p q m t) (fun x y => x ||| y) ∧
    E (.vxor · d p q m t) (fun x y => x ^^^ y)

/-- 07_core_vector R133, R136: the single-source words whose result is exact, element by element. -/
def Obligations.VectorSingleSource : Prop :=
  ∀ (s : State) (b : Barge) (r : Run), Issuing s b r → ∀ (d p : Nat) (m : Mask) (t : ETy),
    let w := t.width
    let E (i : Bool → Instr) (f : BitVec w → BitVec w) : Prop := Machine.Elementwise2 i s b r d p p m t (fun x _ => f x)
    let ones (x : BitVec w) : List Nat := (List.range w).filter (fun i => x.getLsbD i)
    E (.vmv · d p m t) (fun x => x) ∧
    (t.cls = .F → E (.vabs · d p m t) (fun x => x &&& ~~~(BitVec.twoPow w (w - 1))) ∧
      E (.vneg · d p m t) (fun x => x ^^^ BitVec.twoPow w (w - 1))) ∧
    (t.cls = .I → E (.vabs · d p m t) (fun x => if x.msb then -x else x) ∧ E (.vneg · d p m t) (fun x => -x) ∧
      E (.vclz · d p m t) (fun x => BitVec.ofNat w (w - ((ones x).getLast?.map (· + 1)).getD 0)) ∧
      E (.vpopc · d p m t) (fun x => BitVec.ofNat w (ones x).length) ∧
      E (.vffs · d p m t) (fun x => BitVec.ofNat w (((ones x).head?.map (· + 1)).getD 0)))

/-- 07_core_vector R131, R132, R137: the floating-point words that give an element for an element, each with its operation on the
elements of va, vb and vd. The operations are the model's own functions, which `Obligations.Rounding` pins. -/
def Machine.floatWords (d p q : Nat) (m : Mask) (t : ETy) : List ((Bool → Instr) × (Nat → Nat → Nat → Res)) :=
  let g := etyFmt t
  [((.vadd · d p q m t), fun x y _ => fpAdd g x y), ((.vsub · d p q m t), fun x y _ => fpAdd g x y true),
   ((.vmul · d p q m t), fun x y _ => fpMul g x y), ((.vdiv · d p q m t), fun x y _ => fpDiv g x y),
   ((.vmin · d p q m t), fun x y _ => fpMinMax g false x y), ((.vmax · d p q m t), fun x y _ => fpMinMax g true x y),
   ((.vsqrt · d p m t), fun x _ _ => fpSqrt g x), ((.vexp2 · d p m t), fun x _ _ => fpExp2 g x),
   ((.vlog2 · d p m t), fun x _ _ => fpLog2 g x), ((.vfma · d p q m t), fun x y z => fpFma g false false x y z),
   ((.vfms · d p q m t), fun x y z => fpFma g false true x y z), ((.vfnma · d p q m t), fun x y z => fpFma g true false x y z),
   ((.vfnms · d p q m t), fun x y z => fpFma g true true x y z)]

/-- What such an operation gives element `k`, with its flags. -/
def Machine.floatAt (c : WCtx) (d p q w : Nat) (f : Nat → Nat → Nat → Res) (k : Nat) : Nat × Nat :=
  let y := f (elem (c.v p) w k) (elem (c.v q) w k) (elem (c.v d) w k)
  (y.code, y.fl)

/-- 07_core_vector R138: the compares of class F with their answer: for a NaN operand what is given, raising NV where it is
signalling, or of any NaN; otherwise by the order of the values, -1, 0 or 1. -/
def Machine.floatCompares (d p q : Nat) (m : Mask) (t : ETy) : List ((Bool → Instr) × (Nat → Nat → Bool × Nat)) :=
  let g := etyFmt t
  let F (nan any : Bool) (f : Int → Bool) (x y : Nat) : Bool × Nat :=
    if g.isNan x ∨ g.isNan y then (nan, if any = true ∨ g.isSNan x ∨ g.isSNan y then flNV else 0) else (f (fpCmp g x y), 0)
  [((.vceq · d p q m t), F false false (fun o => o = 0)), ((.vcne · d p q m t), F true false (fun o => o ≠ 0)),
   ((.vclt · d p q m t), F false true (fun o => o = -1)), ((.vcle · d p q m t), F false true (fun o => o ≠ 1)),
   ((.vcun · d p q m t), F true false (fun _ => false))]

/-- 07_core_vector R130 to R132, R137: each floating-point word applies its operation of 02_numbers to each active element,
and raises the union of what they raise. -/
def Obligations.VectorFloatingPoint : Prop :=
  ∀ (s : State) (b : Barge) (r : Run), Issuing s b r → ∀ (d p q : Nat) (m : Mask) (t : ETy), t.cls = .F →
    ∀ e ∈ Machine.floatWords d p q m t,
      Machine.Elementwise e.1 s b r d t.width (b.rvl32 * 32 / t.width) m (Machine.floatAt (ctxOf s b r) d p q t.width e.2)

/-! ## Rounding and the floating-point operations themselves -/

/-- 02_numbers R20, R22, R24: the magnitude of a finite code, in units of 2^-k. -/
def Machine.magOf (k : Nat) (f : Fmt) (c : Nat) : Nat :=
  let e := c / 2 ^ f.mb % 2 ^ f.eb
  let m := c % 2 ^ f.mb
  if e = 0 then m * 2 ^ (k + 1 - f.bias - f.mb) else (2 ^ f.mb + m) * 2 ^ (k + e - f.bias - f.mb)

/-- 02_numbers R27: the magnitude of a nonzero RL code of `n` magnitude bits and `ne` exponent bits, in units of 2^-800. -/
def Machine.rlMagOf (n ne m : Nat) : Nat :=
  let k := ((List.range n).takeWhile (fun i => m.testBit (n - 1 - i))).length
  let rest := n - k - (if k < n then 1 else 0)
  let nf := rest - min ne rest
  let e := m / 2 ^ nf % 2 ^ (min ne rest) * 2 ^ (ne - min ne rest)
  (2 * 2 ^ nf - (m % 2 ^ nf + 1)) * 2 ^ (800 - (2 ^ ne * k + e) - nf)

/-- 02_numbers R32: a directed mode takes a magnitude of this sign to the next larger one. -/
def Machine.away (m : RMode) (neg : Bool) : Bool := (m == .rup && !neg) || (m == .rdn && neg)

/-- A magnitude, given by how `k` times it compares with a natural number `n`: an integer, a fraction, a square root. -/
def Machine.exactly (x : Nat) : Nat → Nat → Ordering := fun k n => compare (k * x) n
def Machine.ratio (x z : Nat) : Nat → Nat → Ordering := fun k n => compare (k * x) (n * z)
def Machine.root (x : Nat) : Nat → Nat → Ordering := fun k n => compare (k * k * x) (n * n)

/-- 02_numbers R33: is a magnitude strictly between two adjacent ones, `lo` and `hi`, rounded to `hi`? `even`: bit 0 of the code of
`hi` is clear, which decides a tie. -/
def Machine.takesUpper (m : RMode) (neg even : Bool) (lo hi : Nat) (x : Nat → Nat → Ordering) : Bool :=
  if m = .rne then x 2 (lo + hi) == .gt || (x 2 (lo + hi) == .eq && even) else Machine.away m neg

/-- 02_numbers R33, R34, R43, R373: `y` is the nonzero magnitude `x` (in units of 2^-800), with its sign, rounded into a format.
It overflows where the value rounded with unbounded exponent exceeds the largest finite one; otherwise it is one of the two
adjacent magnitudes, with NX where inexact, and UF where it is then tiny. The model's readings: tininess is judged on the value
rounded with unbounded exponent, so that UF is raised also where the result delivered is the least normal magnitude
(notes/assumptions/9.md); a value just above the largest finite one that rounds back to it is delivered so, by R43 and R373
(notes/assumptions/40.md). -/
def Machine.Rounded (f : Fmt) (r : Rnd) (neg : Bool) (x : Nat → Nat → Ordering) (y : Res) : Prop :=
  let v (c : Nat) : Nat := Machine.magOf 800 f c
  let ulp := v f.maxc - v (f.maxc - 1)
  let up := Machine.away r.mode neg
  let half := 2 * v f.maxc + ulp
  let beyond : Bool :=
    if r.mode = .rne then x 2 half == .gt || (x 2 half == .eq && f.maxc % 2 == 1)
    else if up then x 1 (v f.maxc) == .gt else x 1 (v f.maxc + ulp) != .lt
  let normal := v (2 ^ f.mb)
  let tiny : Bool := x 1 normal == .lt &&
    !(if r.mode = .rne then x 4 (4 * normal - v 1) != .lt else up && x 2 (2 * normal - v 1) == .gt)
  let sign := if neg then 2 ^ (f.eb + f.mb) else 0
  let top := if r.sat = false ∧ (r.mode = .rne ∨ up = true) then f.maxc + 1 else f.maxc
  (beyond = true → y = ⟨top + sign, 5⟩) ∧
  (beyond = false → ∃ c ≤ f.maxc, y = ⟨c + sign, if x 1 (v c) = .eq then 0 else if tiny then 3 else 1⟩ ∧
    (x 1 (v f.maxc) ≠ .lt → c = f.maxc) ∧
    (x 1 (v f.maxc) = .lt → ∃ lo < f.maxc, x 1 (v lo) ≠ .lt ∧ x 1 (v (lo + 1)) = .lt ∧
      c = if x 1 (v lo) ≠ .eq ∧ Machine.takesUpper r.mode neg ((lo + 1) % 2 == 0) (v lo) (v (lo + 1)) x then lo + 1 else lo))

/-- 02_numbers R30, R33, R34, R43: `y` is the nonzero magnitude `x`, with its sign, rounded into RL8. Its codes fall in value. -/
def Machine.RoundedRl (r : Rnd) (neg : Bool) (x : Nat) (y : Res) : Prop :=
  let v (c : Nat) : Nat := if c = 128 then 0 else Machine.rlMagOf 7 2 c
  let sign := if neg then 128 else 0
  (v 1 < x → y = ⟨1 + sign, 5⟩) ∧
  (x ≤ v 1 → ∃ hi < 128, 0 < hi ∧ x ≤ v hi ∧ v (hi + 1) < x ∧
    let c := if x = v hi ∨ Machine.takesUpper r.mode neg (hi % 2 == 0) (v (hi + 1)) (v hi) (Machine.exactly x) then hi else hi + 1
    y = if c = 128 then ⟨0, 3⟩ else ⟨c + sign, if v c = x then 0 else 1⟩)

/-- 02_numbers R31, R33, R34, R373: `y` is the magnitude `x`, with its sign, rounded to an integer of `w` bits. -/
def Machine.RoundedInt (w : Nat) (r : Rnd) (neg : Bool) (x : Nat) (y : Res) : Prop :=
  let one := 2 ^ 800
  let lo := x / one
  let n : Nat := if x % one ≠ 0 ∧ Machine.takesUpper r.mode neg (lo % 2 == 1) (lo * one) ((lo + 1) * one) (Machine.exactly x) then lo + 1 else lo
  let i : Int := if neg then -(n : Int) else n
  y = if i < -(2 ^ (w - 1) : Int) ∨ (2 ^ (w - 1) : Int) ≤ i
    then ⟨if r.sat = true ∧ neg = false then 2 ^ (w - 1) - 1 else 2 ^ (w - 1), 16⟩
    else ⟨(i % (2 ^ w : Int)).toNat, if x % one = 0 then 0 else 1⟩

/-- 02_numbers R20, R22, R24: sign, NaN, signalling NaN, infinity and zero among the codes of a format. -/
def Machine.signOf (f : Fmt) (c : Nat) : Bool := c.testBit (f.eb + f.mb)
def Machine.nanCode (f : Fmt) (c : Nat) : Bool := decide (f.maxc + f.hasInf.toNat < c % 2 ^ (f.eb + f.mb))
def Machine.signals (f : Fmt) (c : Nat) : Bool := Machine.nanCode f c && f.eb == 8 && !c.testBit (f.mb - 1)
def Machine.infCode (f : Fmt) (c : Nat) : Bool := f.hasInf && c % 2 ^ (f.eb + f.mb) == f.maxc + 1
def Machine.zeroCode (f : Fmt) (c : Nat) : Bool := c % 2 ^ (f.eb + f.mb) == 0

/-- 02_numbers R23: the first NaN operand, quieted; the canonical NaN of an invalid operation; or the result. -/
def Machine.NanOr (f : Fmt) (l : List Nat) (invalid : Bool) (y : Res) (result : Prop) : Prop :=
  match l.find? (Machine.nanCode f) with
  | some c => y = ⟨if f.eb = 8 then c ||| 2 ^ (f.mb - 1) else c, if invalid || l.any (Machine.signals f) then 16 else 0⟩
  | none => if invalid then y = ⟨f.cnan, 16⟩ else result

/-- 02_numbers R33: a signed sum, in units of 2^-800, of two summands of these signs. -/
def Machine.SumIs (f : Fmt) (n1 n2 : Bool) (x : Int) (y : Res) : Prop :=
  (x = 0 → y = ⟨if n1 = true ∧ n2 = true then 2 ^ (f.eb + f.mb) else 0, 0⟩) ∧
  (x ≠ 0 → Machine.Rounded f ⟨.rne, false⟩ (decide (x < 0)) (Machine.exactly x.natAbs) y)

/-- A magnitude with its sign. -/
def Machine.signed (neg : Bool) (x : Nat) : Int := if neg then -(x : Int) else x

/-- 07_core_vector R130, R131, R137: sums, differences, products and the fused words of the formats of class F. -/
def Machine.FloatingArithmetic : Prop :=
  ∀ f ∈ [fmtF32, fmtBF16, fmtE4M3, fmtE5M2], ∀ a b c : Nat, a < 2 ^ f.width → b < 2 ^ f.width → c < 2 ^ f.width →
    let sa := Machine.signOf f a
    let sb := Machine.signOf f b
    let bit (n : Bool) : Nat := if n then 2 ^ (f.eb + f.mb) else 0
    let inf (n : Bool) : Res := ⟨f.maxc + 1 + bit n, 0⟩
    let v (c : Nat) : Nat := Machine.magOf 800 f c
    (∀ sub : Bool,
      let y := fpAdd f a b sub
      let t := sb ^^ sub
      Machine.NanOr f [a, b] (Machine.infCode f a && Machine.infCode f b && sa != t) y
        (if Machine.infCode f a then y = inf sa else if Machine.infCode f b then y = inf t
         else Machine.SumIs f sa t (Machine.signed sa (v a) + Machine.signed t (v b)) y)) ∧
    let bad := (Machine.infCode f a && Machine.zeroCode f b) || (Machine.zeroCode f a && Machine.infCode f b)
    let n := sa ^^ sb
    let p := Machine.magOf 400 f a * Machine.magOf 400 f b
    (let y := fpMul f a b
     Machine.NanOr f [a, b] bad y
      (if Machine.infCode f a || Machine.infCode f b then y = inf n else if p = 0 then y = ⟨bit n, 0⟩
       else Machine.Rounded f ⟨.rne, false⟩ n (Machine.exactly p) y)) ∧
    (∀ np nc : Bool,
      let y := fpFma f np nc a b c
      let n := n ^^ np
      let t := Machine.signOf f c ^^ nc
      let big := (Machine.infCode f a && !Machine.nanCode f b) || (!Machine.nanCode f a && Machine.infCode f b)
      Machine.NanOr f [a, b, c] (bad || (big && Machine.infCode f c && n != t)) y
        (if big then y = inf n else if Machine.infCode f c then y = inf t
         else Machine.SumIs f n t (Machine.signed n p + Machine.signed t (v c)) y))

/-- 07_core_vector R130 to R132: the quotient, with DZ for a finite nonzero value by zero, and the square root, each rounded
once. -/
def Machine.QuotientsAndRoots : Prop :=
  ∀ f ∈ [fmtF32, fmtBF16, fmtE4M3, fmtE5M2], ∀ a b : Nat, a < 2 ^ f.width → b < 2 ^ f.width →
    let inf := Machine.infCode f
    let zero := Machine.zeroCode f
    let n := Machine.signOf f a ^^ Machine.signOf f b
    let bit (n : Bool) : Nat := if n then 2 ^ (f.eb + f.mb) else 0
    let v (c : Nat) : Nat := Machine.magOf 800 f c
    (let y := fpDiv f a b
     Machine.NanOr f [a, b] ((inf a && inf b) || (zero a && zero b)) y
      (if inf a then y = ⟨f.maxc + 1 + bit n, 0⟩ else if inf b ∨ zero a then y = ⟨bit n, 0⟩
       else if zero b then y = ⟨f.maxc + 1 + bit n, 8⟩
       else Machine.Rounded f ⟨.rne, false⟩ n (Machine.ratio (v a * 2 ^ 800) (v b)) y)) ∧
    (let y := fpSqrt f a
     Machine.NanOr f [a] (Machine.signOf f a && !zero a && !Machine.nanCode f a) y
      (if zero a ∨ inf a then y = ⟨a, 0⟩ else Machine.Rounded f ⟨.rne, false⟩ false (Machine.root (v a * 2 ^ 800)) y))

/-- 07_core_vector R132: powers and logarithms of two: the special operands, the exact cases, and of the others that they are inexact
and are one value, rounded once, between the results of the neighbouring exact cases. The digits of that value are the model's series
(notes/assumptions/10.md). -/
def Machine.PowersAndLogarithms : Prop :=
  ∀ f ∈ [fmtF32, fmtBF16, fmtE4M3, fmtE5M2], ∀ a : Nat, a < 2 ^ f.width →
    let sa := Machine.signOf f a
    let x : Int := if sa then -(Machine.magOf 800 f a : Int) else Machine.magOf 800 f a
    let near (neg : Bool) (lo hi : Nat) (y : Res) : Prop :=
      y.fl % 2 = 1 ∧ ∃ z, lo < z ∧ z < hi ∧ Machine.Rounded f ⟨.rne, false⟩ neg (Machine.exactly z) y
    (let y := fpExp2 f a
     let k := x / 2 ^ 800
     let pow : Nat := 2 ^ (k + 800).toNat
     Machine.NanOr f [a] false y
      (if Machine.infCode f a then y = ⟨if sa then 0 else a, 0⟩ else if 200 < k then y = ⟨f.maxc + 1, 5⟩
       else if k < -200 then y = ⟨0, 3⟩
       else if x % 2 ^ 800 = 0 then Machine.Rounded f ⟨.rne, false⟩ false (Machine.exactly pow) y
       else near false pow (2 * pow) y)) ∧
    (let y := fpLog2 f a
     Machine.NanOr f [a] (sa && !Machine.zeroCode f a && !Machine.nanCode f a) y
      (if Machine.zeroCode f a then y = ⟨f.maxc + 1 + 2 ^ (f.eb + f.mb), 8⟩ else if Machine.infCode f a then y = ⟨a, 0⟩
       else ∀ k : Nat, (2 ^ k : Int) ≤ x → x < 2 ^ (k + 1) →
        let i := (k : Int) - 800
        if x = 2 ^ k then Machine.SumIs f false false (i * 2 ^ 800) y
        else if 0 ≤ i then near false (i.toNat * 2 ^ 800) ((i.toNat + 1) * 2 ^ 800) y
        else near true ((-i).toNat * 2 ^ 800 - 2 ^ 800) ((-i).toNat * 2 ^ 800) y))

/-- 07_core_vector R131, R138: the order of two codes that are no NaNs is that of their values, −0 equal to +0 in a compare, and below
it in `VMIN` and `VMAX`, which deliver one of their operands. -/
def Machine.OrderOfValues : Prop :=
  ∀ f ∈ [fmtF32, fmtBF16, fmtE4M3, fmtE5M2], ∀ a b : Nat, a < 2 ^ f.width → b < 2 ^ f.width →
    -- an infinity is beyond every finite value
    let v (c : Nat) : Int := Machine.signed (Machine.signOf f c) (if Machine.infCode f c then 2 ^ 2000 else Machine.magOf 800 f c)
    (Machine.nanCode f a = false → Machine.nanCode f b = false →
      fpCmp f a b = if v a < v b then -1 else if v a = v b then 0 else 1) ∧
    (∀ c, c < 2 ^ f.width → f.isNan c = Machine.nanCode f c ∧ f.isSNan c = Machine.signals f c) ∧
    Machine.NanOr f [a, b] false (fpMinMax f false a b)
      (fpMinMax f false a b = ⟨if v a < v b ∨ (v a = v b ∧ Machine.signOf f a = true) then a else b, 0⟩) ∧
    Machine.NanOr f [a, b] false (fpMinMax f true a b)
      (fpMinMax f true a b = ⟨if v b < v a ∨ (v a = v b ∧ Machine.signOf f a = false) then a else b, 0⟩)

/-- 02_numbers R34, R373: what a conversion delivers, by its destination, from a NaN with this sign, an infinity, and a finite value
of a magnitude `x` in units of 2^-800; `same` is what a NaN gives that keeps its bits or a part of them. TYPE codes as in R104. -/
def Machine.NanTo (dst : Nat) (r : Rnd) (neg : Bool) (same : Option Nat) (sig : Bool) : Res :=
  if 5 ≤ dst then ⟨if r.sat then 0 else 2 ^ (tyWidth dst - 1), 16⟩
  else
    let f := tyFmt dst
    ⟨if dst = 4 then 0x80 else same.getD (f.cnan + if neg then 2 ^ (f.eb + f.mb) else 0), if sig then 16 else 0⟩
def Machine.InfTo (dst : Nat) (r : Rnd) (neg : Bool) : Res :=
  let f := tyFmt dst
  let bit : Nat := if neg then 2 ^ (f.eb + f.mb) else 0
  if 5 ≤ dst then ⟨if r.sat = true ∧ neg = false then 2 ^ (tyWidth dst - 1) - 1 else 2 ^ (tyWidth dst - 1), 16⟩
  else if dst = 4 then ⟨if neg then 0x81 else 1, 1⟩
  else if r.sat then ⟨f.maxc + bit, 1⟩
  else if dst = 2 then ⟨0x7F + bit, 16⟩
  else ⟨f.maxc + 1 + bit, 0⟩
def Machine.FiniteTo (dst : Nat) (r : Rnd) (neg : Bool) (x : Nat) (y : Res) : Prop :=
  if 5 ≤ dst then Machine.RoundedInt (tyWidth dst) r neg x y
  else if dst = 4 then (x = 0 → y = ⟨0, 0⟩) ∧ (0 < x → Machine.RoundedRl r neg x y)
  else
    let f := tyFmt dst
    (x = 0 → y = ⟨if neg then 2 ^ (f.eb + f.mb) else 0, 0⟩) ∧ (0 < x → Machine.Rounded f r neg (Machine.exactly x) y)

/-- 02_numbers R22, R24, R27, R31, R33, R34, R373: a conversion between the types of the vector unit, TYPE codes 0 to 7. -/
def Machine.Conversions : Prop :=
  ∀ (src dst c : Nat) (r : Rnd), src < 8 → dst < 8 → c < 2 ^ tyWidth src →
    let y := convert src c dst r
    let f := tyFmt src
    (src < 4 →
      let n := Machine.signOf f c
      let same : Option Nat :=
        if src = dst then some (if f.eb = 8 then c ||| 2 ^ (f.mb - 1) else c)
        else if src = 0 ∧ dst = 1 then some (c / 2 ^ 16 ||| 0x40)
        else if src = 1 ∧ dst = 0 then some (c * 2 ^ 16 ||| 0x400000) else none
      if Machine.nanCode f c then y = Machine.NanTo dst r n same (Machine.signals f c)
      else if Machine.infCode f c then y = Machine.InfTo dst r n
      else Machine.FiniteTo dst r n (Machine.magOf 800 f c) y) ∧
    (src = 4 →
      if c = 0x80 then y = Machine.NanTo dst r false none false
      else Machine.FiniteTo dst r (c.testBit 7) (if c = 0 then 0 else Machine.rlMagOf 7 2 (c % 128)) y) ∧
    (5 ≤ src →
      let i : Int := if 2 ^ (tyWidth src - 1) ≤ c then (c : Int) - 2 ^ tyWidth src else c
      Machine.FiniteTo dst r (decide (i < 0)) (i.natAbs * 2 ^ 800) y)

/-- 02_numbers R36, R37, R39: the exact accumulator. An add of a zero follows the rule's pseudocode too where the cell holds a
finite integer of 2^448 or more (notes/assumptions/41.md). -/
def Machine.Accumulator : Prop :=
  ∀ f ∈ [fmtF32, fmtBF16, fmtE4M3, fmtE5M2], ∀ c : Nat, c < 2 ^ 512 →
    let i : Int := if 2 ^ 511 ≤ c then (c : Int) - 2 ^ 512 else c
    let nan := 2 ^ 511
    let inf (n : Bool) : Nat := if n then 2 ^ 511 + 1 else 2 ^ 511 - 1
    let bit (n : Bool) : Nat := if n then 2 ^ (f.eb + f.mb) else 0
    (f.eb = 8 → ∀ r : Rnd,
      let y := xaRead c f r
      (c = nan → y = ⟨f.cnan, 0⟩) ∧
      (∀ n, c = inf n → y = if r.sat then ⟨f.maxc + bit n, 1⟩ else ⟨f.maxc + 1 + bit n, 0⟩) ∧
      (c = 0 → y = ⟨0, 0⟩) ∧
      (c ≠ 0 → c ≠ nan → (∀ n, c ≠ inf n) → Machine.Rounded f r (decide (i < 0)) (Machine.exactly (i.natAbs * 2 ^ 544)) y)) ∧
    (∀ x : Nat, x < 2 ^ f.width →
      let n := Machine.signOf f x
      let y := xaAdd c (f.val x)
      if c = nan ∨ Machine.nanCode f x = true then y = nan
      else if Machine.infCode f x then y = if c = inf (!n) then nan else inf n
      else if c = inf true ∨ c = inf false then y = c
      else
        let t := i + Machine.signed n (Machine.magOf 256 f x)
        y = if 2 ^ 448 ≤ t then inf false else if t ≤ -2 ^ 448 then inf true else (t % 2 ^ 512).toNat)

/-- 02_numbers R20, R22 to R24, R27, R31 to R34, R36, R37, R39, R43, R373, 07_core_vector R130 to R132, R137, R138: sums, products,
quotients, roots, fused words, conversions and the exact accumulator deliver the exact result rounded once, with its flags;
powers and logarithms of two; and the order of values. That UF is judged on the value rounded with unbounded exponent is the model's
reading of R43 (notes/assumptions/9.md); others of its readings stand at the parts (notes/assumptions/10.md, 40.md, 41.md). -/
def Obligations.Rounding : Prop :=
  Machine.FloatingArithmetic ∧ Machine.QuotientsAndRoots ∧ Machine.PowersAndLogarithms ∧ Machine.OrderOfValues ∧
    Machine.Conversions ∧ Machine.Accumulator

/-! ## Vector instructions, continued -/

/-- A word that writes a mask: bit `k` of the low `n` is `f k` where the element is active, an inactive bit as R78 says. -/
def Machine.MaskResult (i : Bool → Instr) (s : State) (b : Barge) (r : Run) (d n : Nat) (m : Mask)
    (f : Nat → Bool × Nat) : Prop :=
  let c := ctxOf s b r
  ∃ v : VReg,
    WritesV i s b r d v (Machine.flagsOf c m n (fun k => (f k).2)) ∧
    ∀ k < 1024, v.getLsbD k =
      (if k < n then (if c.active m k then (f k).1 else if m = .zero then false else (c.v d).getLsbD k) else false)

/-- 07_core_vector R138: the compare words. A class I type compares integers; a class F type compares values, a NaN
answering as the rule gives and raising NV where it is signalling, or in `VCLT` and `VCLE` wherever it is a NaN. The order is the
model's `fpCmp`, which `Obligations.Rounding` pins. -/
def Obligations.VectorCompares : Prop :=
  ∀ (s : State) (b : Barge) (r : Run), Issuing s b r → ∀ (d p q : Nat) (m : Mask) (t : ETy),
    let c := ctxOf s b r
    let w := t.width
    let n := b.rvl32 * 32 / w
    let x (k : Nat) := elem (c.v p) w k
    let y (k : Nat) := elem (c.v q) w k
    let I (i : Bool → Instr) (f : BitVec w → BitVec w → Bool) : Prop := Machine.MaskResult i s b r d n m (fun k =>
      (f (BitVec.ofNat w (x k)) (BitVec.ofNat w (y k)), 0))
    (t.cls = .I →
      I (.vceq · d p q m t) (fun a e => a == e) ∧ I (.vcne · d p q m t) (fun a e => a != e) ∧
      I (.vclt · d p q m t) (fun a e => a.slt e) ∧ I (.vcle · d p q m t) (fun a e => a.sle e) ∧
      I (.vcltu · d p q m t) (fun a e => a.ult e) ∧ I (.vcleu · d p q m t) (fun a e => a.ule e)) ∧
    (t.cls = .F → ∀ e ∈ Machine.floatCompares d p q m t, Machine.MaskResult e.1 s b r d n m (fun k => e.2 (x k) (y k)))

/-- 07_core_vector R139 to R143: select, conversion, and the permutations that give each element by its index. -/
def Obligations.VectorSelectAndPermute : Prop :=
  ∀ (s : State) (b : Barge) (r : Run), Issuing s b r → ∀ (d p q : Nat) (m : Mask) (t u : ETy) (rnd : Rnd),
    let c := ctxOf s b r
    let w := t.width
    let n := b.rvl32 * 32 / w
    let x (k : Nat) := elem (c.v p) w k
    let y (k : Nat) := elem (c.v q) w k
    let on (k : Nat) : Bool := (c.v 0).getLsbD k
    let E (i : Bool → Instr) (m : Mask) (f : Nat → Nat) : Prop := Machine.Elementwise i s b r d w n m (fun k => (f k, 0))
    let shift := (c.x q).toNat
    E (.vsel · d p q t) .all (fun k => if on k then x k else y k) ∧
    E (.vperm · d p q m t) m (fun k => if y k < n then x (y k) else 0) ∧
    E (.vslideup · d p q m t) m (fun k => if shift ≤ k then x (k - shift) else 0) ∧
    E (.vslidedn · d p q m t) m (fun k => if k + shift < n then x (k + shift) else 0) ∧
    E (.vbcast · d p m t) m (fun _ => (c.x p).toNat) ∧
    E (.vidx · d m t) m (fun k => k) ∧
    E (.vexpand · d p t) .all (fun k => if on k then x ((List.range k).countP on) else 0) ∧
    (∃ v, WritesV (.vcompress · d p t) s b r d v 0 ∧ ∀ j, w * (j + 1) ≤ 1024 →
      elem v w j = ((((List.range n).filter on)[j]?).map x).getD 0) ∧
    WritesS (.vextr · d p q t) s b r d
      (let e := if shift < n then x shift else 0
       if t.cls = .I then (BitVec.ofNat w e).signExtend 64 else BitVec.ofNat 64 e) ∧
    Machine.Elementwise (.vcvt · d p u m t rnd) s b r d u.width (b.rvl32 * 32 / max w u.width) m (fun k =>
      let z := convert t.code (x k) u.code rnd
      (z.code, z.fl))

/-- A pairwise tree over `2 ^ k` values: the first half is combined with the second, level by level (02_numbers R40). -/
def Machine.pairTree (f : Nat → Nat → Nat) : Nat → (Nat → Nat) → Nat
  | 0, g => g 0
  | k + 1, g => Machine.pairTree f k (fun i => f (g i) (g (i + 2 ^ k)))

/-- 07_core_vector R144, 02_numbers R40: an integer or bitwise reduction combines the active elements, an inactive one and
the padding to a power of two counting as the identity, and element 0 takes the result, every other element being zero. (A vector has at most 2 ^ 7 elements.) -/
def Machine.VectorReductions : Prop :=
  ∀ (s : State) (b : Barge) (r : Run), Issuing s b r → ∀ (d p : Nat) (m : Mask) (t : ETy),
    let c := ctxOf s b r
    let w := t.width
    let n := b.rvl32 * 32 / w
    let T (i : Bool → Instr) (f : BitVec w → BitVec w → BitVec w) (z : BitVec w) : Prop :=
      ∃ k, (n ≤ 2 ^ k ∨ k = 7) ∧ (k = 0 ∨ 2 ^ (k - 1) < n) ∧
        WritesV i s b r d (BitVec.ofNat 1024 (Machine.pairTree (fun x y => (f (BitVec.ofNat w x) (BitVec.ofNat w y)).toNat) k
          (fun j => if j < n ∧ c.active m j = true then elem (c.v p) w j else z.toNat))) 0
    (t.cls = .I →
      T (.vredsum · d p m t) (fun x y => x + y) 0 ∧
      T (.vredmax · d p m t) (fun x y => if y.sle x then x else y) (BitVec.intMin w) ∧
      T (.vredmin · d p m t) (fun x y => if x.sle y then x else y) (BitVec.intMax w)) ∧
    T (.vredand · d p m t) (fun x y => x &&& y) (BitVec.allOnes w) ∧ T (.vredor · d p m t) (fun x y => x ||| y) 0 ∧
    T (.vredxor · d p m t) (fun x y => x ^^^ y) 0

/-- The same tree for values some of which may be absent (07_core_vector R144), with the flags that its steps raise. -/
def Machine.markedTree (f : Nat → Nat → Res) : Nat → (Nat → Option Nat) → Option Nat × Nat
  | 0, g => (g 0, 0)
  | k + 1, g =>
    let step (i : Nat) : Option Nat × Nat :=
      match g i, g (i + 2 ^ k) with
      | none, y => (y, 0)
      | x, none => (x, 0)
      | some x, some y => let z := f x y; (some z.code, z.fl)
    let rest := Machine.markedTree f k (fun i => (step i).1)
    (rest.1, (List.range (2 ^ k)).foldl (fun a i => a ||| (step i).2) rest.2)

/-- 07_core_vector R144: the floating-point reductions, each with its step, its identity (none where the type has none) and what a
result that is absent delivers. The identities are −0, −∞ and +∞; in E4M3, which has no infinity, an absent value stands for
the identity of a maximum or a minimum, and an absent result delivers −448 or 448. -/
def Machine.floatReductions (d p : Nat) (m : Mask) (t : ETy) : List ((Bool → Instr) × (Nat → Nat → Res) × Option Nat × Nat) :=
  let g := etyFmt t
  let w := t.width
  [((.vredsum · d p m t), fun x y => fpAdd g x y, some (2 ^ (w - 1)), 0),
   ((.vredmax · d p m t), fpMinMax g true, if t = .e4m3 then none else some (g.infc + 2 ^ (w - 1)), 0xFE),
   ((.vredmin · d p m t), fpMinMax g false, if t = .e4m3 then none else some g.infc, 0x7E)]

/-- 07_core_vector R144, 02_numbers R40: what such a reduction delivers and raises: the tree of the active elements, its size the
next power of two, an inactive element and the padding counting as the identity. (A vector has at most 2 ^ 7 elements.) -/
def Machine.ReducedTo (c : WCtx) (p : Nat) (m : Mask) (t : ETy) (e : (Nat → Nat → Res) × Option Nat × Nat) (v : VReg) (fl : Nat) :
    Prop :=
  let w := t.width
  let n := c.b.rvl32 * 32 / w
  ∃ k, (n ≤ 2 ^ k ∨ k = 7) ∧ (k = 0 ∨ 2 ^ (k - 1) < n) ∧
    let z := Machine.markedTree e.1 k (fun j => if j < n ∧ c.active m j = true then some (elem (c.v p) w j) else e.2.1)
    v = BitVec.ofNat 1024 (z.1.getD e.2.2 % 2 ^ w) ∧ fl = z.2

/-- 07_core_vector R144, 02_numbers R40: the floating-point reductions; element 0 takes the result, every other element being
zero. -/
def Machine.FloatingReductions : Prop :=
  ∀ (s : State) (b : Barge) (r : Run), Issuing s b r → ∀ (d p : Nat) (m : Mask) (t : ETy), t.cls = .F →
    ∀ e ∈ Machine.floatReductions d p m t, ∃ v fl, Machine.ReducedTo (ctxOf s b r) p m t e.2 v fl ∧ WritesV e.1 s b r d v fl

/-- 07_core_vector R144, 02_numbers R40: the reductions. -/
def Obligations.Reductions : Prop := Machine.VectorReductions ∧ Machine.FloatingReductions

/-- 07_core_vector R145: the mask words act on the low n bits, the bits above them being zero. -/
def Obligations.MaskWords : Prop :=
  ∀ (s : State) (b : Barge) (r : Run), Issuing s b r → ∀ (d p q : Nat) (t : ETy),
    let c := ctxOf s b r
    let n := b.rvl32 * 32 / t.width
    let B (i : Bool → Instr) (f : Bool → Bool → Bool) : Prop := ∃ v : VReg, WritesV i s b r d v 0 ∧
      ∀ k < 1024, v.getLsbD k = (decide (k < n) && f ((c.v p).getLsbD k) ((c.v q).getLsbD k))
    let ones := (List.range n).filter (fun k => (c.v p).getLsbD k)
    B (.vmand · d p q t) (fun x y => x && y) ∧ B (.vmor · d p q t) (fun x y => x || y) ∧
    B (.vmxor · d p q t) (fun x y => x ^^ y) ∧ B (.vmandn · d p q t) (fun x y => x && !y) ∧
    B (.vmnot · d p t) (fun x _ => !x) ∧
    WritesS (.vmpopc · d p t) s b r d (BitVec.ofNat 64 ones.length) ∧
    WritesS (.vmffs · d p t) s b r d (BitVec.ofNat 64 ((ones.head?.map (· + 1)).getD 0))

/-! ## Loads and stores -/

/-- The effective address of an M word of access size `2 ^ lg` with displacement field `x` (08_core_memory R147, 04_encoding
R79). -/
def Machine.eaOf (s : State) (b : Barge) (r : Run) (base lg x : Nat) : Word :=
  let k : Word := match r.pfx with
    | none => (BitVec.ofNat 10 x).signExtend 64
    | some (p, _) => ((BitVec.ofNat 25 p) ++ (BitVec.ofNat 10 x)).signExtend 64
  (ctxOf s b r).x base + k <<< lg

/-- The words of 08_core_memory R146 that load a scalar, and whether they extend the sign: by access size. -/
def Machine.loads (d base : Nat) (spc : Space) (x : Nat) : List (Nat × Bool × (Bool → Instr)) :=
  [(0, true, (.ldb · d base spc x)), (1, true, (.ldh · d base spc x)), (2, true, (.ldw · d base spc x)),
   (3, true, (.ldd · d base spc x)), (0, false, (.ldbu · d base spc x)), (1, false, (.ldhu · d base spc x)),
   (2, false, (.ldwu · d base spc x))]

/-- The words that store a scalar. -/
def Machine.stores (d base : Nat) (spc : Space) (x : Nat) : List (Nat × (Bool → Instr)) :=
  [(0, (.stb · d base spc x)), (1, (.sth · d base spc x)), (2, (.stw · d base spc x)), (3, (.std · d base spc x))]

/-- `n` bytes extended to a register. -/
def Machine.extended (sign : Bool) (bs : List Byte) : Word :=
  if sign then (BitVec.ofNat (8 * bs.length) (leNum bs)).signExtend 64 else BitVec.ofNat 64 (leNum bs)

/-- 08_core_memory R147, R148, R12: a scalar load from the scratchpad delivers the window's bytes with the region's own
buffered stores over them, and changes nothing else; `VLD` delivers four bytes for each element of the shape. -/
def Obligations.ScratchpadLoads : Prop :=
  ∀ (s : State) (b : Barge) (r : Run), Issuing s b r → ∀ (d base x m off : Nat),
    let c := ctxOf s b r
    let clean (n : Nat) : Prop := ∀ k, off / 8 ≤ k → k ≤ (off + n - 1) / 8 → tgetD false (s.barge m).spPoison k = false
    let bytes (n : Nat) : List Byte := overlayWin c.effs m off (readTab (s.barge m).window off n)
    (∀ e ∈ Machine.loads d base .sp x,
      let ea := Machine.eaOf s b r base e.1 x
      ea.toNat % 2 ^ e.1 = 0 → s.spad s.cur ea (2 ^ e.1) = some (m, off) → clean (2 ^ e.1) →
      WritesS e.2.2 s b r d (Machine.extended e.2.1 (bytes (2 ^ e.1)))) ∧
    (let ea := Machine.eaOf s b r base 7 x
     let n := b.rvl32 * 4
     ea.toNat % 4 = 0 → s.spad s.cur ea n = some (m, off) → clean n →
     WritesV (.vld · d base .sp x) s b r d (BitVec.ofNat 1024 (leNum (bytes n))) 0)

/-- The bytes of the pieces of a global access as `f` finds them, with the region's buffered stores over them. -/
def Machine.globalBytes (c : WCtx) (f : Seg → List Byte) (gs : List Seg) : List Byte :=
  gs.flatMap (fun g => overlayMem c.effs g.pa (f g))

/-- Every piece can be read, at its home or as the core sees it: its target answers and is not isolated, what the load finds there is
not poisoned, and no barge of another core has leased a granule of it or has asked for one before. -/
def Machine.readable (s : State) (b : Barge) (home : Bool) (gs : List Seg) : Prop :=
  ∀ g ∈ gs, s.isIsolated g.pa = false ∧ s.unheard b g.vc g.pa g.len = none ∧ s.segPoison b.core home g = false ∧
    s.loadStops b.core s.cur g.pa g.len = []

/-- No write of a byte of the pieces is on its way. -/
def Machine.quiet (s : State) (gs : List Seg) : Prop := ∀ g ∈ gs, ∀ w ∈ s.mem.out ++ s.mem.flight, w.meets g.pa g.len = false

/-- 09_core_ordering R175, R179: what a load of a core finds: under `.l1` what the core sees, no view changing; at the home, where no
write of those bytes is on its way, the home's bytes, no view changing. Where one is, every write of those bytes that the core has
released or sees, or that the home has, is brought to the home and to the core's own die first, piece after piece; a store that waits
behind a lease (08_core_memory R163) waits on. -/
def Machine.BytesFound : Prop :=
  ∀ (c : WCtx) (s : State),
    (∀ gs : List Seg, c.readSegs false s gs = (s, Machine.globalBytes c (fun g => s.seenAt c.b.core g.pa g.len) gs)) ∧
    (∀ gs : List Seg, Machine.quiet s gs →
      c.readSegs true s gs = (s, Machine.globalBytes c (fun g => s.bytesAt (s.homeDie g.vc g.pa) g.pa g.len) gs)) ∧
    ∀ (g : Seg) (gs : List Seg),
      let home := s.homeDie g.vc g.pa
      let t := (c.readSegs true s [g]).1
      let rest := c.readSegs true t gs
      c.readSegs true s (g :: gs) = (rest.1, Machine.globalBytes c (fun g => t.bytesAt home g.pa g.len) [g] ++ rest.2) ∧
      (∀ w ∈ t.mem.out, w.core = c.b.core → w.meets g.pa g.len = true → s.mem.holds w.id = true) ∧
      (((s.mem.out ++ s.mem.flight).map (fun w => w.id)).Nodup → ∀ w ∈ t.mem.flight, w.meets g.pa g.len = true →
        w.seenBy c.b.core = true ∨ w.views.contains home = true →
        w.views.contains home = true ∧ w.views.contains (dieOf c.b.core) = true) ∧
      t = { s with mem := t.mem }

/-- 08_core_memory R147, R148, R149: a load from global memory whose address is aligned, in range and translated with read
right delivers the bytes: those its core sees under `.l1`, those of the home under `.home` and `.strm`. It changes no byte of
memory in any view but by what it finds at the home. -/
def Machine.LoadsDeliver : Prop :=
  ∀ (s : State) (b : Barge) (r : Run), Issuing s b r → ∀ (d base x : Nat) (spc : Space) (gs : List Seg), spc ≠ .sp →
    Machine.readable s b (spc != .l1) gs →
    let found := (ctxOf s b r).readSegs (spc != .l1) s gs
    let t := (found.1.useNodes s.cur (gs.map Seg.node)).touchSegs b.core spc gs
    (∀ die a, t.byteAt die a = found.1.byteAt die a) ∧ t.tls = s.tls ∧ t.map = s.map ∧
    (∀ e ∈ Machine.loads d base spc x,
      let ea := Machine.eaOf s b r base e.1 x
      let v := Machine.extended e.2.1 found.2
      ea.toNat % 2 ^ e.1 = 0 → s.access b.core b.ctx ea.toNat (2 ^ e.1) .r = .ok gs →
      LeavesIn e.2.2 s b r t (t.barge s.cur) [.sreg d v] 0 ((t.barge s.cur).withS d v)) ∧
    (let ea := Machine.eaOf s b r base 7 x
     let v := BitVec.ofNat 1024 (leNum found.2)
     ea.toNat % 4 = 0 → s.access b.core b.ctx ea.toNat (b.rvl32 * 4) .r = .ok gs →
     LeavesIn (.vld · d base spc x) s b r t (t.barge s.cur) [.vreg d v] 0 ((t.barge s.cur).withV d v))

/-- 08_core_memory R147 to R149, 09_core_ordering R175: loads from global memory. -/
def Obligations.GlobalLoads : Prop := Machine.BytesFound ∧ Machine.LoadsDeliver

/-- 08_core_memory R147, R148, 01_engines R12: a store whose checks pass and whose region has room is buffered, and no byte of
memory or of a window changes; the bytes are the low ones of its register. -/
def Obligations.Stores : Prop :=
  ∀ (s : State) (b : Barge) (r : Run), Issuing s b r → ∀ (d base x : Nat),
    let c := ctxOf s b r
    -- in a scratchpad window
    (∀ (m off : Nat), ∀ e ∈ Machine.stores d base .sp x,
      let ea := Machine.eaOf s b r base e.1 x
      let new := [Effect.spad m off (leBytes (2 ^ e.1) (c.x d).toNat)]
      ea.toNat % 2 ^ e.1 = 0 → s.spad s.cur ea (2 ^ e.1) = some (m, off) → c.countWith new ≤ 128 →
      Leaves e.2 s b r (new.map .eff) 0 { b with eff := b.eff ++ new }) ∧
    (∀ (m off : Nat),
      let ea := Machine.eaOf s b r base 7 x
      let n := b.rvl32 * 4
      let new := [Effect.spad m off (leBytes n (c.v d).toNat)]
      ea.toNat % 4 = 0 → s.spad s.cur ea n = some (m, off) → c.countWith new ≤ 128 →
      Leaves (.vst · d base .sp x) s b r (new.map .eff) 0 { b with eff := b.eff ++ new }) ∧
    -- in global memory
    (∀ (spc : Space) (gs : List Seg), spc ≠ .sp →
      let t := s.useNodes s.cur (gs.map Seg.node)
      (∀ die a, t.byteAt die a = s.byteAt die a) ∧
      (∀ e ∈ Machine.stores d base spc x,
        let ea := Machine.eaOf s b r base e.1 x
        let new := [Effect.store spc (storeSegs gs (leBytes (2 ^ e.1) (c.x d).toNat))]
        ea.toNat % 2 ^ e.1 = 0 → s.access b.core b.ctx ea.toNat (2 ^ e.1) .w = .ok gs → c.countWith new ≤ 128 →
        LeavesIn e.2 s b r t (t.barge s.cur) (new.map .eff) 0 { t.barge s.cur with eff := b.eff ++ new }) ∧
      (let ea := Machine.eaOf s b r base 7 x
       let new := [Effect.store spc (storeSegs gs (leBytes (b.rvl32 * 4) (c.v d).toNat))]
       ea.toNat % 4 = 0 → s.access b.core b.ctx ea.toNat (b.rvl32 * 4) .w = .ok gs → c.countWith new ≤ 128 →
       LeavesIn (.vst · d base spc x) s b r t (t.barge s.cur) (new.map .eff) 0 { t.barge s.cur with eff := b.eff ++ new }))

/-- 08_core_memory R147, 10_core_faults R184, R186: the checks of a load or store in their order: a misaligned address raises the
alignment fault, with the size's logarithm as its detail; then a scratchpad address that names no byte of a window raises
the scratchpad-bounds fault; a global address the fault of its check. `VLD` and `VST` are checked the same way for their four
bytes an element. -/
def Machine.AddressFaults : Prop :=
  ∀ (s : State) (b : Barge) (r : Run), Issuing s b r → ∀ (st : Bool) (d base x : Nat) (spc : Space),
    (∀ e ∈ (Machine.loads d base spc x).map (fun e => (e.1, e.2.2, Right.r)) ++
        (Machine.stores d base spc x).map (fun e => (e.1, e.2, Right.w)),
      let ea := Machine.eaOf s b r base e.1 x
      (ea.toNat % 2 ^ e.1 ≠ 0 → Traps (e.2.1 st) s r 3 e.1 ea) ∧
      (ea.toNat % 2 ^ e.1 = 0 → spc = .sp → s.spad s.cur ea (2 ^ e.1) = none → Traps (e.2.1 st) s r 5 0 ea) ∧
      (ea.toNat % 2 ^ e.1 = 0 → spc ≠ .sp → ∀ w, s.access b.core b.ctx ea.toNat (2 ^ e.1) e.2.2 = .error w →
        Traps (e.2.1 st) s r w.cls w.detail w.s3)) ∧
    (∀ e ∈ [(Instr.vld st d base spc x, Right.r), (.vst st d base spc x, .w)],
      let ea := Machine.eaOf s b r base 7 x
      let n := b.rvl32 * 4
      (ea.toNat % 4 ≠ 0 → Traps e.1 s r 3 2 ea) ∧
      (ea.toNat % 4 = 0 → spc = .sp → s.spad s.cur ea n = none → Traps e.1 s r 5 0 ea) ∧
      (ea.toNat % 4 = 0 → spc ≠ .sp → ∀ w, s.access b.core b.ctx ea.toNat n e.2 = .error w → Traps e.1 s r w.cls w.detail w.s3))

/-- 08_core_memory R147 checks 2 to 4, R186: what a global access is refused for: an address at or above 2^48, a page that
does not translate, a page without the right, a direct-window address outside a direct virtual cache. The translation fault
carries the first failing byte's address, and says which right was needed and whether a range exists. -/
def Machine.AccessChecks : Prop :=
  ∀ (s : State) (core ctx ea n : Nat) (rt : Right), 0 < n → ea % 4096 + n ≤ 4096 →
    let bit : Nat := match rt with | .r => 1 | .w => 2 | .x => 4
    let at_ := s.translateAt core ctx ea
    (2 ^ 48 ≤ ea → s.access core ctx ea n rt = .error ⟨4, 0, BitVec.ofNat 64 ea⟩) ∧
    (ea < 2 ^ 48 → at_ = none → s.access core ctx ea n rt = .error ⟨6, bit, BitVec.ofNat 64 ea⟩) ∧
    (∀ k nd pa, ea < 2 ^ 48 → at_ = some (k, nd, pa) → peerOf pa = none →
      (nd.has rt = false → s.access core ctx ea n rt = .error ⟨6, bit + 8, BitVec.ofNat 64 ea⟩) ∧
      (nd.has rt = true → s.directOk pa = false → s.access core ctx ea n rt = .error ⟨4, 0, BitVec.ofNat 64 ea⟩) ∧
      (nd.has rt = true → s.directOk pa = true →
        s.access core ctx ea n rt = .ok [⟨ea, pa, n, s.servedBy ctx nd.vcid pa, k⟩]))

/-- The reductions of 08_core_memory R154, by their op code. -/
def Machine.reductions (p q : Nat) (z : Bool) (sc : Scope) : List (Nat × Bool × (Bool → Instr)) :=
  [(0, z, (.redadd · p q z sc)), (1, z, (.redand · p q z sc)), (2, z, (.redor · p q z sc)), (3, z, (.redxor · p q z sc)),
   (4, z, (.redmin · p q z sc)), (5, z, (.redmax · p q z sc)), (6, z, (.redminu · p q z sc)), (7, z, (.redmaxu · p q z sc)),
   (8, false, (.redfmin · p q sc)), (9, false, (.redfmax · p q sc))]

/-- 01_engines R12: the effect `e` takes the region beyond its capacity, and of the granules `l` that it writes, in the order of its
bytes, that at place `j` would be the region's 129th: as many of those before it are new to the region as the region has room for. -/
def Machine.breaks (c : WCtx) (e : Effect) (l : List (Nat × Nat)) (j : Nat) : Prop :=
  let old := c.effs.flatMap Effect.grans
  c.count ≤ 128 ∧ 128 < c.countWith [e] ∧ j < l.length ∧ l.getD j (0, 0) ∉ old ∧
    (List.range j).countP (fun k => decide (l.getD k (0, 0) ∉ old)) = 128 - c.count

/-- 01_engines R12, 08_core_memory R150, R154, R155, 10_core_faults R184: a store, an `STF`, a reduction or an `XAADD` of which a granule
would be the region's 129th raises the capacity fault, and s3 holds the address of that granule. -/
def Machine.CapacityFaults : Prop :=
  ∀ (s : State) (b : Barge) (r : Run), Issuing s b r → ∀ (st : Bool) (d base x p q : Nat),
    let c := ctxOf s b r
    -- in a window: the granule of the store's `j`-th
    (∀ (m off j : Nat),
      let faults (i : Instr) (ea : Word) (bs : List Byte) : Prop :=
        s.spad s.cur ea bs.length = some (m, off) →
        Machine.breaks c (.spad m off bs) ((granules off bs.length).map (fun g => (m, g))) j →
        Traps i s r 8 0 (BitVec.ofNat 64 ((ea.toNat / 64 + j) * 64))
      (∀ e ∈ Machine.stores d base .sp x,
        let ea := Machine.eaOf s b r base e.1 x
        ea.toNat % 2 ^ e.1 = 0 → faults (e.2 st) ea (leBytes (2 ^ e.1) (c.x d).toNat)) ∧
      (let ea := Machine.eaOf s b r base 7 x
       ea.toNat % 4 = 0 → faults (.vst st d base .sp x) ea (leBytes (b.rvl32 * 4) (c.v d).toNat)) ∧
      (let ea := Machine.eaOf s b r base 3 x
       ea.toNat % 8 = 0 → s.spad s.cur ea 8 = some (m, off) → Machine.breaks c (.stf m off (c.x d)) [(m, off / 64)] 0 →
       Traps (.stf st d base x) s r 8 0 (BitVec.ofNat 64 (ea.toNat / 64 * 64)))) ∧
    -- in global memory, whose translations the word has used
    (∀ (gs : List Seg) (j : Nat),
      let faults (i : Instr) (ea : Word) (e : Effect) (l : List Nat) : Prop :=
        Machine.breaks c e (l.map (fun g => (0, g))) j →
        let t := s.useNodes s.cur (gs.map Seg.node)
        exec i s = .next ((t.issued (t.barge s.cur)).takeExc s.cur
          { cls := 8, pc := r.at, s3 := BitVec.ofNat 64 ((ea.toNat / 64 + j) * 64) })
      (∀ spc : Space, spc ≠ .sp →
        let store (i : Instr) (ea : Word) (bs : List Byte) : Prop := s.access b.core b.ctx ea.toNat bs.length .w = .ok gs →
          let ps := storeSegs gs bs
          faults i ea (.store spc ps) (ps.flatMap (fun p => granules p.pa p.bytes.length))
        (∀ e ∈ Machine.stores d base spc x,
          let ea := Machine.eaOf s b r base e.1 x
          ea.toNat % 2 ^ e.1 = 0 → store (e.2 st) ea (leBytes (2 ^ e.1) (c.x d).toNat)) ∧
        (let ea := Machine.eaOf s b r base 7 x
         ea.toNat % 4 = 0 → store (.vst st d base spc x) ea (leBytes (b.rvl32 * 4) (c.v d).toNat))) ∧
      (∀ (g : Seg) (z : Bool) (sc : Scope) (ty : XTy), gs = [g] → j = 0 →
        let ea := c.x p
        (∀ e ∈ Machine.reductions p q z sc,
          let n := if e.2.1 then 8 else 4
          ea.toNat % n = 0 → s.access b.core b.ctx ea.toNat n .w = .ok gs →
          faults (e.2.2 st) ea (.red e.1 e.2.1 sc g.pa g.vc (c.x q)) [g.pa / 64]) ∧
        (ea.toNat % 64 = 0 → s.access b.core b.ctx ea.toNat 64 .w = .ok gs →
          faults (.xaadd st p q sc ty) ea (.xa ty sc g.pa g.vc (c.x q)) [g.pa / 64])))

/-- 08_core_memory R149, R156, 12_sluice R217, R219, 10_core_faults R184: a load, a `VLD` or an `XARD` that reads poison, of a window
word or of a granule at the home or as the core sees it, or that reads from an isolated target, raises the poison fault with its
effective address, and writes no register. Of the pieces of an access the first that cannot be read decides. -/
def Machine.PoisonFaults : Prop :=
  (∀ (s : State) (core : Nat) (g : Seg), s.mem.out = [] → s.mem.flight = [] → ∀ home : Bool,
    let die := if home then s.homeDie g.vc g.pa else dieOf core
    s.segPoison core home g = (granules g.pa g.len).any (fun k => s.poisonedAt die (64 * k))) ∧
  ∀ (s : State) (b : Barge) (r : Run), Issuing s b r → ∀ (st : Bool) (d base p x m off : Nat) (spc : Space) (pre post : List Seg) (g : Seg),
    let c := ctxOf s b r
    let home : Bool := spc != .l1
    let window (i : Instr) (ea : Word) (n : Nat) : Prop :=
      spc = .sp → s.spad s.cur ea n = some (m, off) →
      (∃ k, off / 8 ≤ k ∧ k ≤ (off + n - 1) / 8 ∧ tgetD false (s.barge m).spPoison k = true) → Traps i s r 0x0A 0 ea
    let global (i : Instr) (ea : Word) (n : Nat) : Prop :=
      spc ≠ .sp → s.access b.core b.ctx ea.toNat n .r = .ok (pre ++ g :: post) → Machine.readable s b home pre →
      (s.isIsolated g.pa = true ∨ (s.isIsolated g.pa = false ∧ s.unheard b g.vc g.pa g.len = none ∧
        s.loadStops b.core s.cur g.pa g.len = [] ∧ s.segPoison b.core home g = true)) → Traps i s r 0x0A 0 ea
    (∀ e ∈ Machine.loads d base spc x,
      let ea := Machine.eaOf s b r base e.1 x
      ea.toNat % 2 ^ e.1 = 0 → window (e.2.2 st) ea (2 ^ e.1) ∧ global (e.2.2 st) ea (2 ^ e.1)) ∧
    (let ea := Machine.eaOf s b r base 7 x
     let n := b.rvl32 * 4
     ea.toNat % 4 = 0 → (0 < n → window (.vld st d base spc x) ea n) ∧ global (.vld st d base spc x) ea n) ∧
    (∀ (rnd : Rnd) (f : Bool), spc = .home → (c.x p).toNat % 64 = 0 → global (.xard st d p rnd f) (c.x p) 64)

/-- The words that act on one word or cell of global memory, with the logarithm of its size and the right they need: the atomics
and the reductions on 4 or 8 bytes, the exact accumulator and a lease on 64. -/
def Machine.globalWords (st : Bool) (d p q : Nat) (z : Bool) (sc : Scope) (ty : XTy) (rnd : Rnd) (f : Bool) :
    List (Instr × Nat × Right) :=
  let lg := if z then 3 else 2
  ([.amoswap d p q z sc, .amocas d p q z sc, .amoadd d p q z sc, .amoand d p q z sc, .amoor d p q z sc, .amoxor d p q z sc,
    .amomin d p q z sc, .amomax d p q z sc, .amominu d p q z sc, .amomaxu d p q z sc, .redadd st p q z sc, .redand st p q z sc,
    .redor st p q z sc, .redxor st p q z sc, .redmin st p q z sc, .redmax st p q z sc, .redminu st p q z sc,
    .redmaxu st p q z sc] : List Instr).map (fun i => (i, lg, Right.w)) ++
  [(.redfmin st p q sc, 2, .w), (.redfmax st p q sc, 2, .w), (.xaadd st p q sc ty, 6, .w), (.xard st d p rnd f, 6, .r),
   (.lease st p, 6, .w)]

/-- 08_core_memory R150, R153 to R156, R161, R167, R168, 18_mapping R298, R300, by the checks of R147: the faults at issue of the other words
that name memory. A full/empty word, an arrival, a wait at a barrier and a receipt stand in a window: a misaligned address raises
the alignment fault, then one that names no byte of a window the scratchpad-bounds fault. An atomic, a reduction, a word of the
exact accumulator or a lease names global memory: the alignment fault, then the fault of its access check. That a barrier word checks
alignment before bounds, and that an atomic's alignment fault has the logarithm of its size as detail, are the model's readings
(notes/assumptions/32.md). -/
def Machine.WordFaults : Prop :=
  ∀ (s : State) (b : Barge) (r : Run), Issuing s b r → ∀ (st : Bool) (d base x p q : Nat),
    let c := ctxOf s b r
    let window (i : Instr) (ea : Word) (lg n : Nat) : Prop :=
      (ea.toNat % 2 ^ lg ≠ 0 → Traps i s r 3 lg ea) ∧
      (ea.toNat % 2 ^ lg = 0 → s.spad s.cur ea n = none → Traps i s r 5 0 ea)
    (∀ i ∈ [Instr.ldf d base x, .ldfn d base x, .ste d base x, .stf st d base x], window i (Machine.eaOf s b r base 3 x) 3 8) ∧
    (∀ i ∈ [Instr.barv st p, .barvx st p q, .bwait p q], window i (c.x p) 6 64) ∧
    (∀ poll : Bool, ∀ i ∈ [Instr.recv p q poll, .call p q], window i (c.x q) 4 16) ∧
    ∀ (z : Bool) (sc : Scope) (ty : XTy) (rnd : Rnd) (f : Bool), ∀ e ∈ Machine.globalWords st d p q z sc ty rnd f,
      let ea := c.x p
      (ea.toNat % 2 ^ e.2.1 ≠ 0 → Traps e.1 s r 3 e.2.1 ea) ∧
      (ea.toNat % 2 ^ e.2.1 = 0 → ∀ w, s.access b.core b.ctx ea.toNat (2 ^ e.2.1) e.2.2 = .error w →
        Traps e.1 s r w.cls w.detail w.s3)

/-- 08_core_memory R147, R149, R150, R153 to R156, R161, R167, R168, 01_engines R12, 10_core_faults R184, 12_sluice R217, 18_mapping R298,
R300: the checks of the words that name memory, in their order, the poison that loads meet and the region's capacity. -/
def Obligations.AddressChecks : Prop :=
  Machine.AddressFaults ∧ Machine.AccessChecks ∧ Machine.WordFaults ∧ Machine.PoisonFaults ∧ Machine.CapacityFaults

/-- No write is on its way: every view holds every write released. -/
def Machine.still (s : State) : Prop := s.mem.out = [] ∧ s.mem.flight = []

/-- After a step from `s` no write is on its way, but those that wait behind a lease. -/
def Machine.drained (s t : State) : Prop := t.mem.flight = [] ∧ ∀ w ∈ t.mem.out, s.mem.holds w.id = true

/-- The byte at `a` once bytes stand at `pa`. -/
def Machine.over (pa : Nat) (bs : List Byte) (old : Nat → Byte) (a : Nat) : Byte :=
  if pa ≤ a ∧ a < pa + bs.length then bs.getD (a - pa) 0 else old a

/-- 09_core_ordering R173, R175, R176: where no write is on its way, a released store shows on its own core, byte for byte, on no
other core, and in no die's view, and every other byte stays as it was. Where nothing holds it back, it shows in every view once
everything has been performed at .M. Where its granule is leased from it, or others have asked for the granule before, the store
waits in the order of arrival, and no view has it even then (08_core_memory R163); and where that lease, or an earlier request, is of
its own core, whose loads are of the committed contents, it does not show there either. That it shows nowhere else at once is the
model's reading (notes/assumptions/6.md). -/
def Obligations.ReleasedWrites : Prop :=
  ∀ (s : State) (bid core vc pa : Nat) (spc : Space) (bs : List Byte), s.MemWf → Machine.still s → s.isIsolated pa = false →
    s.homeStopped vc pa = false →
    let t := s.releaseStore bid core spc [⟨pa, vc, bs⟩]
    t.MemWf ∧ (∀ die a, t.byteAt die a = s.byteAt die a) ∧
    ((∀ g ∈ granules pa bs.length, s.unseenAt bid core g = false) →
      ∀ a, t.seenAt core a 1 = [Machine.over pa bs (s.byteAt (dieOf core)) a]) ∧
    (∀ other a, other ≠ core → t.seenAt other a 1 = [s.byteAt (dieOf other) a]) ∧
    (s.mem.leaseQ = [] → (∀ g ∈ granules pa bs.length, s.leasedFrom bid g = false) →
      ∀ die < 4, ∀ a, t.drainAll.byteAt die a = Machine.over pa bs (s.byteAt die) a) ∧
    (bs ≠ [] → pa % 64 + bs.length ≤ 64 → s.blockedAt bid (pa / 64) = true →
      (∀ die a, t.drainAll.byteAt die a = s.byteAt die a) ∧
      (s.unseenAt bid core (pa / 64) = false →
        t.mem.leaseQ = s.mem.leaseQ ++ [.store bid core s.mem.nextW (cutWords pa bs).length spc vc pa bs.length]) ∧
      (s.unseenAt bid core (pa / 64) = true →
        t.mem.leaseQ = s.mem.leaseQ ++ [.effect bid core (.store spc [⟨pa, vc, bs⟩])] ∧
        ∀ a, t.seenAt core a 1 = [s.byteAt (dieOf core) a]))

/-- 01_engines R12, R13, 05_core_state R90: a commit with one buffered store, to granules that no other barge holds leased, releases its bytes, which its core sees, and no other
byte of memory changes; where the region holds the granules leased, every view has them with the commit (09_core_ordering
R182). The barge goes on behind `ckpt` with s1 to s6 and every other register zero. That without a lease no other core sees them
yet is the model's reading (notes/assumptions/6.md). -/
def Obligations.CommitOfAStore : Prop :=
  ∀ (s : State) (b : Barge) (r : Run), Alone s b r → ∀ (pa vc : Nat) (spc : Space) (bs : List Byte),
    b.eff = [.store spc [⟨pa, vc, bs⟩]] → b.late = [] → (∀ g ∈ granules pa bs.length, s.leasedFrom s.cur g = false) →
    s.isIsolated pa = false → s.homeStopped vc pa = false → s.MemWf → Machine.still s → s.mem.leaseQ = [] →
    ∃ t, exec .ckpt s = .next t ∧
      (∀ a, t.seenAt b.core a 1 = [Machine.over pa bs (s.byteAt (dieOf b.core)) a]) ∧
      (b.leases = [] → (∀ die a, t.byteAt die a = s.byteAt die a) ∧
        ∀ other a, other ≠ b.core → t.seenAt other a 1 = [s.byteAt (dieOf other) a]) ∧
      ((∀ a, pa ≤ a → a < pa + bs.length → ∃ l ∈ b.leases, l.granule = a / 64) →
        ∀ die < 4, ∀ a, t.byteAt die a = Machine.over pa bs (s.byteAt die) a) ∧
      ∃ b', t.barge? s.cur = some b' ∧ b'.pc = r.here.pc + 4 ∧ b'.resume = (r.here.pc + 4) % 2 ^ 48 ∧ b'.run = none ∧ b'.eff = [] ∧
        b'.late = [] ∧ b'.commit = none ∧ b'.leases = [] ∧ b'.vreg = [] ∧ (∀ k, tgetD 0 b'.sreg k = if 1 ≤ k ∧ k ≤ 6 then tgetD 0 b.sreg k else 0)

/-! ## Commit points -/

/-- The barge of a word alone in its run, whose region has buffered nothing, once the region has committed with the resume
address `n`: its record holds s1 to s6, the shape and the floating-point state, and every register but s0 to s6 is zero. That a
resume address of 2^48, for which the record has no room (R98), is recorded as 0 is the model's choice (notes/assumptions/11.md). -/
def Machine.committed (b : Barge) (n : Nat) : Barge :=
  let six := [tgetD 0 b.sreg 1, tgetD 0 b.sreg 2, tgetD 0 b.sreg 3, tgetD 0 b.sreg 4, tgetD 0 b.sreg 5, tgetD 0 b.sreg 6]
  { b with
    resume := n % 2 ^ 48, pc := n, carry := six, sreg := carryTab six, vreg := [], fpen := b.rfpen, fpfl := b.rfpfl
    vl32 := b.rvl32, tcode := b.rtcode, eff := [], used := [], leases := [], run := none, frame := none, unanswered := none }

/-- The commit of barge `b`, whose region has buffered nothing, with the resume address `n` and what is to follow: what the region has
written to the granules that it holds leased is performed toward every party (09_core_ordering R182), the record is written, the
leases end, and the requests that waited behind them are served (08_core_memory R163, R164). -/
def Machine.commits (b : Barge) (n : Nat) (f : Follow) (s : State) : State :=
  let settled := s.setMem (b.leases.foldl (fun m l => m.settle allDies (64 * l.granule) 64) s.mem)
  ((settled.setB s.cur { Machine.committed b n with commit := some ⟨n, f, true⟩ }).leaveQueue s.cur).updB s.cur (fun e =>
    { e with commit := none })

/-- 01_engines R13, 05_core_state R90, 06_core_scalar R125, 08_core_memory R164: `CKPT` and `LREL` commit, end the leases and have
no effect of their own; `TRAP` and `BKPT` commit and raise their exceptions, `BKPT` to resume at itself; `END` commits and
ends the barge. The requests that waited behind the leases are served. -/
def Machine.CommitsOfNothing : Prop :=
  ∀ (s : State) (b : Barge) (r : Run), Alone s b r → b.eff = [] → b.late = [] → ∀ (p q code : Nat),
    let c := ctxOf s b r
    let after := Machine.commits b (r.here.pc + 4)
    let trap : Exc := { cls := 0x0F, pc := r.here.pc, s3 := BitVec.ofNat 64 code, s5 := c.x p, s6 := c.x q, after := true }
    let bkpt : Exc := { cls := 0x10, pc := r.here.pc, after := true }
    exec .ckpt s = .next (s.doing b (after (.goOn none))) ∧ exec .lrel s = .next (s.doing b (after (.goOn none))) ∧
    exec (.trap p q code) s = .next (s.doing b (fun s => (after (.goOn (some trap)) s).takeExc s.cur trap)) ∧
    exec .bkpt s = .next (s.doing b (fun s => (Machine.commits b r.here.pc (.goOn (some bkpt)) s).takeExc s.cur bkpt)) ∧
    exec .endOp s = .next (s.doing b (fun s => (after .end_ s).endBarge s.cur false))

/-- 01_engines R13, 06_core_scalar R125, R126, 08_core_memory R164, 10_core_faults R188, 20_wharf R323: how a commit goes on that cannot
release everything at once. Its effects are released in program order, up to the first that must wait: for what a lease holds back
and that it orders behind it, or for a record that is not read. The record is written, and the leases end, once every wharf command
and every effect on a granule that the region holds leased is released; what follows the commit takes place once nothing is left.
That no other effect holds up the leases' end is the model's reading (notes/assumptions/29.md). -/
def Machine.CommitsInStages : Prop :=
  ∀ (s : State) (k : Nat) (b : Barge), s.barge? k = some b →
    (∀ (n : Nat) (f : Follow), s.commitRegion k n f = (s.setB k { b with
      eff := [], used := [], run := none, frame := none, unanswered := none, late := b.late ++ b.eff,
      commit := some ⟨n, f, false⟩ }).goLate k) ∧
    (∀ (e : Effect) (l : List Effect),
      performAll k s (e :: l) = if s.keptBack k (s.coreWaits k b.core) e then s
        else performAll k ((s.setB k { b with late := l }).perform k e) l) ∧
    (∀ c, b.commit = some c →
      (b.late ≠ [] → (c.recorded = true ∨ (∃ e ∈ b.late, (∃ t n k, e = Effect.cmd t n k ∧ k.op.isWharf = true) ∨
          ∃ l ∈ b.leases, l.granule ∈ e.global)) → s.goCommit k = s) ∧
      (b.late ≠ [] → c.recorded = false → (∀ e ∈ b.late, (∀ t n k, e = Effect.cmd t n k → k.op.isWharf = false) ∧
          ∀ l ∈ b.leases, l.granule ∉ e.global) →
        s.goCommit k = s.endLeases k (fun e => { e.recordCommit c.resume with commit := some { c with recorded := true } })) ∧
      (b.late = [] → c.recorded = true → s.goCommit k = (s.setB k { b with commit := none }).follow k c.follow))

/-- 01_engines R13, 05_core_state R90, 06_core_scalar R125, R126, 08_core_memory R164, 10_core_faults R188, 20_wharf R323: the commit
points without an effect of their own on memory, and the stages of a commit. -/
def Obligations.PlainCommitPoints : Prop := Machine.CommitsOfNothing ∧ Machine.CommitsInStages

/-- 06_core_scalar R126, 20_wharf R336: `YIELD` commits, and the barge returns to the wharf as READY. A member of a gang another member
of which is still resident keeps its slot, unless the wharf has asked for it: the next dispatch of the barge is to that slot. That
the slot is kept so is the model's reading (notes/assumptions/36.md). -/
def Machine.Yield : Prop :=
  ∀ (s : State) (b : Barge) (r : Run), Alone s b r → b.eff = [] → b.late = [] → b.leases = [] → s.mem.leaseQ = [] →
    ∃ t b', exec .yield s = .next t ∧ t.barge? s.cur = some b' ∧ b'.st = .ready ∧ b'.resume = (r.here.pc + 4) % 2 ^ 48 ∧
      b'.carry = (Machine.committed b (r.here.pc + 4)).carry ∧ b'.readySeq = s.whf.readySeq ∧ b'.core = b.core ∧ b'.slot = b.slot ∧
      (b'.kept = true ↔ b.preempt = false ∧ ∃ m ∈ s.gangOf s.cur, m ≠ s.cur ∧ (s.barge m).st = .resident) ∧
      (∀ k, k ≠ s.cur → t.barge? k = s.barge? k) ∧ t.mem = s.mem ∧ t.tls = s.tls

/-- 20_wharf R328, 08_core_memory R102: `END` of a barge outside a gang, without successors and with no command in an engine,
leaves no barge, where no barge holds a lease, behind which the write of its record would wait (R163). -/
def Machine.EndReleasesTheBarge : Prop :=
  ∀ (s : State) (b : Barge) (r : Run), Alone s b r → b.eff = [] → s.mem.leaseQ = [] → b.gang = 0 → b.succ = [] →
    s.inEngine s.cur = false → s.issuedIn s.cur = false → tsorted s.barges 0 = true → (∀ e ∈ s.barges, e.2.leases = []) →
    b.late = [] → ∃ t, exec .endOp s = .next t ∧ t.barge? s.cur = none

/-- 06_core_scalar R126, 20_wharf R336: a barge for which a slot is kept comes back to that slot and to no other, and no other barge
is dispatched to it: the model's reading (notes/assumptions/36.md). -/
def Machine.KeptSlots : Prop :=
  ∀ (s : State) (k : Nat) (b : Barge), s.barge? k = some b → s.keeps k b = true →
    (∀ core, s.allowed k b core = true → core = b.core ∧ ((s.seat k core).barge k).slot = b.slot) ∧ b.slot ∉ s.freeSlots b.core

/-- 06_core_scalar R126, 20_wharf R328, R336: `YIELD` and `END`, and the slot that a `YIELD` leaves kept. -/
def Obligations.YieldAndEnd : Prop := Machine.Yield ∧ Machine.EndReleasesTheBarge ∧ Machine.KeptSlots

/-! ## Full/empty words, atomics, reductions -/

/-- The barge after a commit point whose own effect gives register `d` the value `v`: kept for s1 to s6, in the record too. -/
def Machine.resulted (b' b : Barge) (r : Run) (d : Nat) (v : Word) : Prop :=
  b'.held = none ∧ b'.pc = r.here.pc + 4 ∧ b'.resume = (r.here.pc + 4) % 2 ^ 48 ∧ b'.run = none ∧
  ∀ k, tgetD 0 b'.sreg k = (if 1 ≤ k ∧ k ≤ 6 then (if k = d then v else tgetD 0 b.sreg k) else 0) ∧
    (1 ≤ k → k ≤ 6 → b'.carry.getD (k - 1) 0 = tgetD 0 b'.sreg k)

/-- No barge waits longer for the same state of the same window word. -/
def Machine.firstFor (s : State) (m off : Nat) (full : Bool) : Prop :=
  ∀ e ∈ s.barges, e.1 ≠ s.cur → e.2.st = .resident → ∀ h, e.2.held = some h → h.since < s.whf.readySeq →
    h.op.feWord ≠ some (m, off, full)

/-- 08_core_memory R150, R151: `LDF`, `LDFN` and `STE` are performed at once where the word's bit allows it and no barge has
waited for it longer, taking or setting word and bit together; else the barge waits with the operation held. A load of a poisoned
word takes the poison fault after its commit, its destination zero and the word as it was (10_core_faults R193); `STE` clears the
poison of its word (R217). `STF` is buffered. -/
def Obligations.FullEmptyWords : Prop :=
  ∀ (s : State) (b : Barge) (r : Run), Issuing s b r → ∀ (d base x m off : Nat),
    let c := ctxOf s b r
    let ea := Machine.eaOf s b r base 3 x
    let w := s.barge m
    let held (op : HeldOp) : Held := ⟨r.at, op, s.whf.readySeq, s.whf.readySeq, (b.core, b.slot)⟩
    ea.toNat % 8 = 0 → s.spad s.cur ea 8 = some (m, off) →
    (c.countWith [.stf m off (c.x d)] ≤ 128 →
      Leaves (.stf · d base x) s b r [.eff (.stf m off (c.x d))] 0 { b with eff := b.eff ++ [.stf m off (c.x d)] }) ∧
    (Alone s b r → b.eff = [] → b.leases = [] → b.late = [] → s.mem.leaseQ = [] →
      (Machine.firstFor s m off true → w.isFull off = true → w.wordPoison off = false →
        (∃ t, exec (.ldf d base x) s = .next t ∧ (t.barge m).full = tput false w.full (off / 8) false ∧
          (t.barge m).window = w.window ∧ Machine.resulted (t.barge s.cur) b r d (w.wordAt off) ∧ t.mem = s.mem) ∧
        (∃ t, exec (.ldfn d base x) s = .next t ∧ (t.barge m).full = w.full ∧ (t.barge m).window = w.window ∧
          Machine.resulted (t.barge s.cur) b r d (w.wordAt off) ∧ t.mem = s.mem)) ∧
      (Machine.firstFor s m off true → w.isFull off = true → w.wordPoison off = true →
        ∀ i ∈ [Instr.ldf d base x, .ldfn d base x], ∃ u : State, exec i s = .next ((u.takeExc s.cur
            { cls := 0x0A, pc := r.at, s3 := ea, after := true, site := some (b.core, b.slot) }).doneWaiting s.cur) ∧
          (u.barge m).full = w.full ∧ (u.barge m).window = w.window ∧ (u.barge m).spPoison = w.spPoison ∧
          Machine.resulted (u.barge s.cur) b r d 0 ∧ u.mem = s.mem) ∧
      (Machine.firstFor s m off false → w.isFull off = false → Machine.still s →
        ∃ t, exec (.ste d base x) s = .next t ∧ (t.barge m).full = tput false w.full (off / 8) true ∧
          (t.barge m).window = writeTab w.window off (leBytes 8 (c.x d).toNat) ∧
          (t.barge m).spPoison = tdel w.spPoison (off / 8) ∧ Machine.resulted (t.barge s.cur) b r 0 0 ∧ t.mem = s.mem) ∧
      (w.isFull off = false ∨ ¬ Machine.firstFor s m off true →
        ∀ e ∈ [(Instr.ldf d base x, HeldOp.ldf d m off ea.toNat), (.ldfn d base x, .ldfn d m off ea.toNat)],
          ∃ t, exec e.1 s = .next t ∧ (t.barge s.cur).held = some (held e.2) ∧
            (t.barge m).full = w.full ∧ (t.barge m).window = w.window ∧ (t.barge s.cur).resume = (r.here.pc + 4) % 2 ^ 48) ∧
      (w.isFull off = true ∨ ¬ Machine.firstFor s m off false →
        ∃ t, exec (.ste d base x) s = .next t ∧ (t.barge s.cur).held = some (held (.ste m off (c.x d))) ∧
          (t.barge m).full = w.full ∧ (t.barge m).window = w.window ∧ (t.barge s.cur).resume = (r.here.pc + 4) % 2 ^ 48))

/-- The atomics of 08_core_memory R153 with what each writes, from the old word, its operand and its comparand. -/
def Machine.atomics (d p q : Nat) (z : Bool) (sc : Scope) (w : Nat) (old x cmp : BitVec w) : List (Instr × Option (BitVec w)) :=
  [(.amoswap d p q z sc, some x), (.amocas d p q z sc, if old = cmp then some x else none), (.amoadd d p q z sc, some (old + x)),
   (.amoand d p q z sc, some (old &&& x)), (.amoor d p q z sc, some (old ||| x)), (.amoxor d p q z sc, some (old ^^^ x)),
   (.amomin d p q z sc, some (if old.sle x then old else x)), (.amomax d p q z sc, some (if old.sle x then x else old)),
   (.amominu d p q z sc, some (if old.ule x then old else x)), (.amomaxu d p q z sc, some (if old.ule x then x else old))]

/-- 08_core_memory R160, 18_mapping R305: a word of this scope that is performed counts one where its context's scope limit narrows it,
in that context alone. -/
def Machine.narrowed (s t : State) (ctx : Nat) (sc : Scope) : Prop :=
  t.map.ctxs = if (s.ctx ctx).scope < sc.code
    then tupd {} s.map.ctxs ctx (fun c => { c with scopecnt := min (c.scopecnt + 1) (2 ^ 48 - 1) }) else s.map.ctxs

/-- 08_core_memory R149, R153, R160, 10_core_faults R193, 05_core_state R90: an atomic whose word is at an aligned address with write
right, held by no other barge's lease and answering, where no write is on its way: it reads the word at its home, writes the new
one there (a compare-and-swap that fails writes nothing), delivers the old one, counts one where its scope is narrowed, and changes
no other byte of memory. Its own core sees the new word; that no other die's view has it yet is the model's reading
(notes/assumptions/6.md). Where its target is isolated, or it meets poison, it writes nothing, its destination is zero, and it takes
the poison fault after its commit. -/
def Obligations.Atomics : Prop :=
  ∀ (s : State) (b : Barge) (r : Run), Alone s b r → b.eff = [] → b.leases = [] → b.late = [] → s.mem.leaseQ = [] →
    Machine.still s → s.MemWf → ∀ (d p q : Nat) (z : Bool) (sc : Scope) (g : Seg),
    let c := ctxOf s b r
    let n := if z then 8 else 4
    let w := 8 * n
    let ea := c.x p
    ea.toNat % n = 0 → s.access b.core b.ctx ea.toNat n .w = .ok [g] → s.blocked s.cur g.pa n = false →
    let home := s.homeDie g.vc g.pa
    let heard : Prop := s.unheard { b with heard := false } g.vc g.pa n = none
    let old : BitVec w := BitVec.ofNat w (leNum (s.bytesAt home g.pa n))
    ∀ e ∈ Machine.atomics d p q z sc w old ((c.x q).setWidth w) ((c.x d).setWidth w),
      (s.isIsolated g.pa = false → heard → s.poisonedIn home g.pa n = false →
        ∃ t, exec e.1 s = .next t ∧ Machine.resulted (t.barge s.cur) b r d (old.signExtend 64) ∧ Machine.narrowed s t b.ctx sc ∧
          match e.2 with
          | some v =>
            (∀ die < 4, ∀ a, t.byteAt die a =
              if die = home then Machine.over g.pa (leBytes n v.toNat) (s.byteAt die) a else s.byteAt die a) ∧
            ∀ a, t.seenAt b.core a 1 = [Machine.over g.pa (leBytes n v.toNat) (s.byteAt (dieOf b.core)) a]
          | none => ∀ die a, t.byteAt die a = s.byteAt die a) ∧
      (s.isIsolated g.pa = true ∨ (heard ∧ s.poisonedIn home g.pa n = true) →
        ∃ u : State, exec e.1 s = .next ((u.takeExc s.cur
            { cls := 0x0A, pc := r.at, s3 := ea, after := true, site := some (b.core, b.slot) }).doneWaiting s.cur) ∧
          Machine.resulted (u.barge s.cur) b r d 0 ∧ ∀ die a, u.byteAt die a = s.byteAt die a)

/-- 08_core_memory R154, R155, R12: a reduction or an `XAADD` whose checks pass is buffered, and no byte of memory changes. -/
def Machine.BufferedReductions : Prop :=
  ∀ (s : State) (b : Barge) (r : Run), Issuing s b r → ∀ (p q : Nat) (z : Bool) (sc : Scope) (ty : XTy) (g : Seg),
    let c := ctxOf s b r
    let ea := c.x p
    let t := s.useNodes s.cur [g.node]
    let kept (i : Bool → Instr) (e : Effect) : Prop := c.countWith [e] ≤ 128 →
      LeavesIn i s b r t (t.barge s.cur) [.eff e] 0 { t.barge s.cur with eff := b.eff ++ [e] }
    (∀ die a, t.byteAt die a = s.byteAt die a) ∧
    (∀ e ∈ Machine.reductions p q z sc,
      ea.toNat % (if e.2.1 then 8 else 4) = 0 → s.access b.core b.ctx ea.toNat (if e.2.1 then 8 else 4) .w = .ok [g] →
      kept e.2.2 (.red e.1 e.2.1 sc g.pa g.vc (c.x q))) ∧
    (ea.toNat % 64 = 0 → s.access b.core b.ctx ea.toNat 64 .w = .ok [g] →
      kept (.xaadd · p q sc ty) (.xa ty sc g.pa g.vc (c.x q)))

/-- The place of an FP32 pattern in the order of values, −0 below +0. -/
def Machine.fpOrder (x : BitVec 32) : Int := if x.msb then -((x.toNat : Int) - 2 ^ 31) - 1 else x.toNat

/-- Is an FP32 pattern a NaN? -/
def Machine.fpNaN (x : BitVec 32) : Bool := x.extractLsb' 23 8 == 255 && x.extractLsb' 0 23 != 0

/-- The merges of 08_core_memory R154, by op code: eight on integers and bits, two on FP32 values, where a NaN gives the canonical
NaN and −0 lies below +0. -/
def Machine.merged {w : Nat} (op : Nat) (m x : BitVec w) : BitVec w :=
  let a := m.setWidth 32
  let b := x.setWidth 32
  let nan := Machine.fpNaN a || Machine.fpNaN b
  match op with
  | 0 => m + x | 1 => m &&& x | 2 => m ||| x | 3 => m ^^^ x
  | 4 => if m.sle x then m else x | 5 => if m.sle x then x else m
  | 6 => if m.ule x then m else x | 7 => if m.ule x then x else m
  | 8 => if nan then 0x7FC00000 else if Machine.fpOrder a ≤ Machine.fpOrder b then m else x
  | _ => if nan then 0x7FC00000 else if Machine.fpOrder a ≤ Machine.fpOrder b then x else m

/-- 08_core_memory R154, R155: where no write is on its way, a released reduction merges its operand into the word at the word's
home, and an XA add its value into the cell (by the model's `xaAdd`, 02_numbers R37); no other byte changes, and the own core
sees the result; and as it is released it counts one where its scope is narrowed (R160). Where the granule is leased from it, or others have asked for it before, it waits in the order of arrival and
changes no byte (R163). That no other die's view has the result yet is the model's reading (notes/assumptions/6.md). -/
def Machine.ReductionMerges : Prop :=
  ∀ (s : State) (k : Nat) (b : Barge), s.barge? k = some b → Machine.still s → s.MemWf →
    ∀ (sc : Scope) (pa vc : Nat) (x : Word), s.isIsolated pa = false → s.homeStopped vc pa = false →
    let home := s.homeDie vc pa
    let became (e : Effect) (bs : List Byte) : Prop :=
      let t := s.perform k e
      Machine.narrowed s t b.ctx sc ∧
      (s.mem.leaseQ = [] → s.leasedFrom k (pa / 64) = false →
        (∀ die < 4, ∀ a, t.byteAt die a = if die = home then Machine.over pa bs (s.byteAt die) a else s.byteAt die a) ∧
        ∀ a, t.seenAt b.core a 1 = [Machine.over pa bs (s.byteAt (dieOf b.core)) a]) ∧
      (s.blockedAt k (pa / 64) = true →
        t.mem.leaseQ = s.mem.leaseQ ++ [.effect k b.core e] ∧ ∀ die a, t.byteAt die a = s.byteAt die a)
    (∀ (op : Nat) (z : Bool), op < 10 → (8 ≤ op → z = false) →
      let n := if z then 8 else 4
      let m : BitVec (8 * n) := BitVec.ofNat (8 * n) (leNum (s.bytesAt home pa n))
      became (.red op z sc pa vc x) (leBytes n (Machine.merged op m (x.setWidth (8 * n))).toNat)) ∧
    ∀ ty : XTy, became (.xa ty sc pa vc x)
      (leBytes 64 (xaAdd (leNum (s.bytesAt home pa 64)) ((xtyFmt ty).val (x.toNat % 2 ^ (xtyFmt ty).width))))

/-- 08_core_memory R154, R155: reductions in memory, as issued and as performed. -/
def Obligations.MemoryReductions : Prop := Machine.BufferedReductions ∧ Machine.ReductionMerges

/-- 08_core_memory R156: `XARD` reads its cell at the cell's home and delivers it by the model's `xaRead` (02_numbers R39), with
that function's flags. The bits of the destination above that code are zero: the model's reading, for R39 and R156 give them no
value (notes/assumptions/40.md). -/
def Obligations.ExactAccumulatorRead : Prop :=
  ∀ (s : State) (b : Barge) (r : Run), Issuing s b r → ∀ (d p : Nat) (rnd : Rnd) (f : Bool) (gs : List Seg),
    Machine.readable s b true gs →
    let c := ctxOf s b r
    let ea := c.x p
    let found := c.readSegs true s gs
    let t := (found.1.useNodes s.cur (gs.map Seg.node)).touchSegs b.core .home gs
    let v := xaRead (leNum found.2) (if f then fmtBF16 else fmtF32) rnd
    (Machine.quiet s gs →
      found = (s, Machine.globalBytes c (fun g => s.bytesAt (s.homeDie g.vc g.pa) g.pa g.len) gs)) ∧
    (ea.toNat % 64 = 0 → s.access b.core b.ctx ea.toNat 64 .r = .ok gs →
      LeavesIn (.xard · d p rnd f) s b r t (t.barge s.cur) [.sreg d (BitVec.ofNat 64 v.code)] v.fl
        ((t.barge s.cur).withS d (BitVec.ofNat 64 v.code)))

/-! ## Enabled flags -/

/-- 10_core_faults R190: what is left of a word alone in its run that has raised `fl`, with an enable of it set: barge `c'` with the
flags, its region committed at the end of the run, and then the FP exception, at the address of the word. `t` is the state as
its issue changes it. -/
def Machine.trapped (t : State) (b : Barge) (r : Run) (c' : Barge) (fl : Nat) : State :=
  let x : Exc :=
    { cls := 0x0E, pc := r.at, s5 := BitVec.ofNat 64 (fl + b.rfpen * 32), after := true, site := some (b.core, b.slot) }
  t.doing b (fun s =>
    (Machine.commits { c' with rfpfl := b.rfpfl ||| fl } (r.here.pc + 4) (.goOn (some x)) s).takeExc s.cur x)

/-- 10_core_faults R190: where a word raises a flag whose enable is set, its results are written, the region commits at the
end of its run, and the FP exception is taken after the commit, at the address of the word: of every word that raises flags, those
of elements, the conversions, the compares, the floating-point reductions and `XARD`. That `XARD` gives zeros above the code of
its type is the model's reading, for R39 and R156 give those bits no value (notes/assumptions/40.md). -/
def Obligations.EnabledFlagTraps : Prop :=
  ∀ (s : State) (b : Barge) (r : Run), Alone s b r → b.eff = [] → b.late = [] → ∀ (d p q : Nat) (m : Mask) (t u : ETy) (rnd : Rnd),
    let c := ctxOf s b r
    let w := t.width
    let n := b.rvl32 * 32 / w
    let x (k : Nat) := elem (c.v p) w k
    let y (k : Nat) := elem (c.v q) w k
    let traps (i : Instr) (v : VReg) (fl : Nat) : Prop := exec i s = .next (Machine.trapped s b r (b.withV d v) fl)
    let elements (i : Instr) (w n : Nat) (f : Nat → Nat × Nat) : Prop :=
      let fl := Machine.flagsOf c m n (fun k => (f k).2)
      fl &&& b.rfpen ≠ 0 → ∃ v, traps i v fl ∧ ∀ k, w * (k + 1) ≤ 1024 → elem v w k =
        (if k < n then (if c.active m k then (f k).1 % 2 ^ w else if m = .zero then 0 else elem (c.v d) w k) else 0)
    elements (.vcvt true d p u m t rnd) u.width (b.rvl32 * 32 / max w u.width) (fun k =>
      let z := convert t.code (x k) u.code rnd
      (z.code, z.fl)) ∧
    (t.cls = .F →
      (∀ e ∈ Machine.floatWords d p q m t, elements (e.1 true) w n (Machine.floatAt c d p q w e.2)) ∧
      (∀ e ∈ Machine.floatCompares d p q m t,
        let fl := Machine.flagsOf c m n (fun k => (e.2 (x k) (y k)).2)
        fl &&& b.rfpen ≠ 0 → ∃ v : VReg, traps (e.1 true) v fl ∧ ∀ k < 1024, v.getLsbD k =
          (if k < n then (if c.active m k then (e.2 (x k) (y k)).1 else if m = .zero then false else (c.v d).getLsbD k) else false)) ∧
      (∀ e ∈ Machine.floatReductions d p m t, ∃ v fl, Machine.ReducedTo c p m t e.2 v fl ∧
        (fl &&& b.rfpen ≠ 0 → traps (e.1 true) v fl))) ∧
    (∀ (f : Bool) (gs : List Seg), Machine.readable s b true gs → (c.x p).toNat % 64 = 0 →
      s.access b.core b.ctx (c.x p).toNat 64 .r = .ok gs →
      let found := c.readSegs true s gs
      let z := (found.1.useNodes s.cur (gs.map Seg.node)).touchSegs b.core .home gs
      let v := xaRead (leNum found.2) (if f then fmtBF16 else fmtF32) rnd
      v.fl &&& b.rfpen ≠ 0 → exec (.xard true d p rnd f) s = .next (Machine.trapped z (z.barge s.cur) r
        ((z.barge s.cur).withS d (BitVec.ofNat 64 v.code)) v.fl))

/-! ## Synchronisation words -/

/-- 08_core_memory R161, R162, R165: `LEASE` takes the granule for CORE.LEASEMAX cycles where it lies above every one held and is
not a fifth, and then no other core's L1 holds it; out of that order it raises the lease-order fault. R163: behind another
barge's lease, or another's earlier request, the word waits in the order of arrival; in the model it then stands at the head of
its run and has not issued (notes/assumptions/29.md), and the L1 states are those of notes/assumptions/7.md. The own die's view
and the home's have the granule's current bytes once it is leased, but for stores that wait behind it. The model's reading too:
toward an isolated target it raises the poison fault, toward one that does not answer it waits (notes/assumptions/14.md, 29.md),
and where every way of the granule's L1 set holds a leased line it waits (notes/assumptions/7.md). -/
def Obligations.Leases : Prop :=
  ∀ (s : State) (b : Barge) (r : Run), Issuing s b r → ∀ (st : Bool) (p : Nat) (g : Seg),
    let ea := (ctxOf s b r).x p
    let k := g.pa / 64
    let lease : Lease := ⟨k, s.cycle + s.leaseMaxOf b.core⟩
    let fits : Prop := b.leases.length < 4 ∧ ∀ l ∈ b.leases, l.granule < k
    let answers : Prop := s.isIsolated g.pa = false ∧ s.unheard b g.vc g.pa 64 = none
    -- the word stands at the head of its run and waits for granules, or (`waits`) for something else
    let stands (l : List Nat) (waits : Bool) (f : State → Barge → Barge) : State :=
      let t := s.enqueue s.cur l
      t.updB s.cur (fun e => { f t e with run := some { r with words := r.here :: r.words, stall := l, waits := waits } })
    ea.toNat % 64 = 0 → s.access b.core b.ctx ea.toNat 64 .w = .ok [g] → k < 2 ^ 46 →
    (fits → answers → s.blockedAt s.cur k = false → s.l1Full b.core k = false →
      ∃ t, LeavesIn (.lease · p) s b r t (t.barge s.cur) [] 0 (t.barge s.cur) ∧
        (t.barge s.cur).leases = b.leases ++ [lease] ∧
        (∃ st, (l1Key b.core k, st) ∈ t.mem.l1 ∧ st ≠ .s) ∧
        (∀ e ∈ t.mem.l1, e.1 % 2 ^ 46 = k → e.1 / 2 ^ 46 = b.core) ∧
        (∀ w ∈ t.mem.out, w.meets g.pa 64 = true → s.mem.holds w.id = true) ∧
        (∀ w ∈ t.mem.flight, w.meets g.pa 64 = true →
          w.views.contains (dieOf b.core) = true ∧ w.views.contains (s.homeDie g.vc g.pa) = true) ∧
        (Machine.quiet s [g] → ∀ die a, t.byteAt die a = s.byteAt die a)) ∧
    (4 ≤ b.leases.length ∨ (∃ l ∈ b.leases, k ≤ l.granule) → Traps (.lease st p) s r 9 0 ea) ∧
    (fits → answers → s.blockedAt s.cur k = true → exec (.lease st p) s = .next (stands [k] false (fun _ e => e))) ∧
    (fits → answers → s.blockedAt s.cur k = false → s.l1Full b.core k = true →
      exec (.lease st p) s = .next (stands [] true (fun _ e => e))) ∧
    (fits → s.isIsolated g.pa = true → Traps (.lease st p) s r 0x0A 0 ea) ∧
    (fits → s.isIsolated g.pa = false → ∀ tgt, s.unheard b g.vc g.pa 64 = some tgt → exec (.lease st p) s =
      .next { stands [] false (fun t e => { e with unanswered := some (tgt, (e.unanswered.map (·.2)).getD t.cycle) }) with
        fresh := (s.enqueue s.cur []).fresh + 1 }) ∧
    (s.mem.leaseQ = [] → s.blockedAt s.cur k = s.leasedFrom s.cur k ∧ (s.enqueue s.cur [k]).mem.leaseQ = [.wait s.cur k])

/-- 08_core_memory R159, R160: `FENCE` performs at its scope what its core released before and has seen: of that, nothing is left
that no core of the flight or of the span sees at .F or .G, that the die's view lacks at .D, or that any view lacks from .M up. It
stands among the region's buffered effects without counting, and a narrowed one is counted at the end of its run, of one word or of
several. Wider than .C, it
waits in the model while a lease of another core holds back what its core has released (R163, notes/assumptions/29.md). -/
def Obligations.Fences : Prop :=
  ∀ (s : State) (b : Barge) (r : Run), Issuing s b r → ∀ sc : Scope,
    let t := s.performAt b.core b.ctx sc
    let at_ := min sc.code (s.ctx b.ctx).scope
    (1 ≤ at_ → ∀ w ∈ t.mem.out, w.core = b.core → s.mem.holds w.id = true) ∧
    (∀ w ∈ t.mem.flight, w.seenBy b.core = true →
      (at_ = 1 ∨ at_ = 2 → at_ ≤ w.reach) ∧ (at_ = 3 → w.views.contains (dieOf b.core) = true) ∧ at_ < 4) ∧
    let counted (t : State) : State := if (t.ctx b.ctx).scope < sc.code
      then t.updCtx b.ctx (fun c => { c with scopecnt := min (c.scopecnt + 1) (2 ^ 48 - 1) }) else t
    (at_ = 0 ∨ s.coreWaits s.cur b.core = false →
      exec (.fence false sc) s = .next (t.doing b (fun t => t.setB s.cur (b.later r [Item.eff (Effect.fence sc)]))) ∧
      (r.raised &&& b.rfpen = 0 → exec (.fence true sc) s =
        .next (t.doing b (fun t => (t.putItems s.cur (r.items ++ [Item.eff (Effect.fence sc)])).updB s.cur (fun e =>
          ({ e with rfpfl := e.rfpfl ||| r.raised }).goOn r.here.pc (r.here.pc + 4))))) ∧
      (Alone s b r → exec (.fence true sc) s =
        .next (t.doing b (fun t => (counted t).setB s.cur ({ b with eff := b.eff ++ [Effect.fence sc] }.past r))))) ∧
    (∀ (u : State) (c : Barge) (l : List Item), u.barge? s.cur = some c → c.ctx = b.ctx →
      u.putItems s.cur (Item.eff (Effect.fence sc) :: l) =
        ((counted u).setB s.cur { c with eff := c.eff ++ [Effect.fence sc] }).putItems s.cur l) ∧
    (1 ≤ at_ → s.coreWaits s.cur b.core = true → ∀ st, exec (.fence st sc) s = .next ((s.enqueue s.cur []).updB s.cur (fun e =>
      { e with run := some { r with words := r.here :: r.words, stall := [], waits := true } })))

/-- 08_core_memory R167: an arrival at a record in form is buffered; one at a record whose EXPECT is zero or that has a reserved
bit set, or that adds 2^40 bytes or more, raises the barrier fault. The record is read with the region's own buffered stores over
it: the model's reading of R167's "as read at issue" (notes/assumptions/32.md). -/
def Machine.BarrierArrivals : Prop :=
  ∀ (s : State) (b : Barge) (r : Run), Issuing s b r → ∀ (p q m off : Nat),
    let c := ctxOf s b r
    let ea := c.x p
    let rec_ := leNum (overlayWin c.effs m off (readTab (s.barge m).window off 64))
    let ok : Prop := rec_ % 2 ^ 16 ≠ 0 ∧ rec_ / 2 ^ 33 % 2 ^ 31 = 0 ∧ rec_ / 2 ^ 112 = 0
    ea.toNat % 64 = 0 → s.spad s.cur ea 64 = some (m, off) →
    (ok → c.countWith [.arrive m off 0] ≤ 128 →
      Leaves (.barv · p) s b r [.eff (.arrive m off 0)] 0 { b with eff := b.eff ++ [.arrive m off 0] } ∧
      ((c.x q).toNat < 2 ^ 40 → Leaves (.barvx · p q) s b r [.eff (.arrive m off (c.x q).toNat)] 0
        { b with eff := b.eff ++ [.arrive m off (c.x q).toNat] })) ∧
    (¬ ok → ∀ st, Traps (.barv st p) s r 0x0C 0 ea ∧ Traps (.barvx st p q) s r 0x0C 0 ea) ∧
    (2 ^ 40 ≤ (c.x q).toNat → ∀ st, Traps (.barvx st p q) s r 0x0C 0 ea)

/-- 08_core_memory R167 `arrive` and `complete_check`: an arrival counts and adds its bytes; the one that completes the count with
no byte pending, of 48 bits, turns the phase; one beyond the count is queued for the next phase. -/
def Machine.BarrierPhases : Prop :=
  ∀ (r : BarRec) (y n : Nat), r.queue = [] → 2 ≤ n →
    let sum := (BitVec.ofInt 48 (r.pending + y)).toInt
    (r.arrived < r.expect → barStep n r (some y) =
      if r.arrived + 1 = r.expect ∧ sum = 0 then { r with arrived := 0, pending := 0, phase := 1 - r.phase }
      else { r with arrived := r.arrived + 1, pending := sum }) ∧
    (r.arrived = r.expect → barStep n r (some y) = { r with queue := [y] }) ∧
    (barStep n r none = if r.arrived = r.expect ∧ r.pending = 0 then { r with arrived := 0, phase := 1 - r.phase } else r)

/-- 08_core_memory R167: split barriers. That an arrival's record is checked as the region's own stores leave it is the model's
reading (notes/assumptions/32.md). -/
def Obligations.Barriers : Prop := Machine.BarrierArrivals ∧ Machine.BarrierPhases

/-- 08_core_memory R168, R170, R172, R151: the waits. Each commits; where what it waits for holds already it is done, else the barge
waits with the operation held. A name, number or entry that the rule does not allow raises its fault at issue. -/
def Obligations.Waits : Prop :=
  ∀ (s : State) (b : Barge) (r : Run), Issuing s b r → ∀ (p q m off : Nat),
    let c := ctxOf s b r
    let done (i : Instr) : Prop := ∃ t, exec i s = .next t ∧ Machine.resulted (t.barge s.cur) b r 0 0 ∧ t.mem = s.mem
    let waits (i : Instr) (op : HeldOp) : Prop := ∃ t, exec i s = .next t ∧ t.mem = s.mem ∧
      (t.barge s.cur).held = some ⟨r.at, op, s.whf.readySeq, s.whf.readySeq, (b.core, b.slot)⟩ ∧ (t.barge s.cur).resume = (r.here.pc + 4) % 2 ^ 48 ∧
      (t.barge s.cur).st = .resident
    let ph := (c.x q).toNat % 2
    let v := (c.x p).toNat
    let key := v / 2 ^ 16 % 8 * 65536 + v % 65536
    let n := (c.x q).toNat
    let named : Prop := v < 2 ^ 19 ∧ v % 65536 < tlLimit (v / 2 ^ 16 % 8) ∧ n ≤ (s.tl key).issued ∧
      s.mayWait b.ctx (v / 2 ^ 16 % 8) (v % 65536) n = true
    (¬ named → Traps (.tlwait p q) s r 0x0D 0 (c.x p)) ∧
    (64 ≤ v ∨ c.tileState v = none → Traps (.ttwait p) s r 0x0B 0 (BitVec.ofNat 64 (v % 64))) ∧
    (∀ e, v < 64 → c.tileState v = some e → e.st = .empty ∨ e.st = .draining →
      Traps (.ttwait p) s r 0x0B 0 (BitVec.ofNat 64 v)) ∧
    (Alone s b r → b.eff = [] → b.leases = [] → b.late = [] → s.mem.leaseQ = [] →
      ((c.x p).toNat % 64 = 0 → s.spad s.cur (c.x p) 64 = some (m, off) →
        (((s.barge m).barRec off).phase ≠ ph → done (.bwait p q)) ∧
        (((s.barge m).barRec off).phase = ph → waits (.bwait p q) (.bwait m off ph))) ∧
      (named → (n ≤ (s.tl key).completed → done (.tlwait p q)) ∧
        ((s.tl key).completed < n → waits (.tlwait p q) (.tlwait key n))) ∧
      (v < 64 → v < b.tiles →
        ((tgetD {} b.tileTab v).st = .ready → done (.ttwait p)) ∧
        ((tgetD {} b.tileTab v).st = .filling → waits (.ttwait p) (.ttwait v))))

/-- 08_core_memory R171, R172, R105: `TTDEF` and `TTREL` whose checks pass are buffered; a bad operand, one that names no entry among them,
or an entry in another state raises the tile-state fault, a misaligned base the alignment fault and a tile that leaves the footprint the scratchpad-bounds
fault. That these two report the BASE operand is the model's reading (notes/assumptions/39.md). -/
def Obligations.TileWords : Prop :=
  ∀ (s : State) (b : Barge) (r : Run), Issuing s b r → ∀ (p q : Nat),
    let c := ctxOf s b r
    let v := (c.x p).toNat
    let t := v % 64
    let ty := v / 2 ^ 8 % 16
    let rows := shapeRows b.rtcode
    let cols := shapeCols b.rtcode
    let base := (c.x q).toNat
    let good : Prop := v < 2 ^ 17 ∧ v / 2 ^ 6 % 4 = 0 ∧ v / 2 ^ 12 % 16 = 0 ∧ ty < 10
    let entry : Tile := { st := if v / 2 ^ 16 % 2 = 1 then .ready else .filling, ty := ty, cols := cols, rows := rows, base := base }
    (good → (c.tileState t).map Tile.st = some .empty → base % 64 = 0 → base + rows * cols * tyWidth ty / 8 ≤ b.spf * 4096 →
      c.countWith [.tileDef t entry] ≤ 128 →
      Leaves (.ttdef · p q) s b r [.eff (.tileDef t entry)] 0 { b with eff := b.eff ++ [.tileDef t entry] }) ∧
    (¬ good ∨ (c.tileState t).map Tile.st ≠ some .empty → ∀ st, Traps (.ttdef st p q) s r 0x0B 0 (BitVec.ofNat 64 t)) ∧
    (good → (c.tileState t).map Tile.st = some .empty → ∀ st,
      (base % 64 ≠ 0 → Traps (.ttdef st p q) s r 3 6 (c.x q)) ∧
      (base % 64 = 0 → b.spf * 4096 < base + rows * cols * tyWidth ty / 8 → Traps (.ttdef st p q) s r 5 0 (c.x q))) ∧
    (64 ≤ v ∨ c.tileState v = none → ∀ st, Traps (.ttrel st p) s r 0x0B 0 (BitVec.ofNat 64 (v % 64))) ∧
    (∀ e, v < 64 → c.tileState v = some e →
      (e.st = .ready → c.countWith [.tileRel v] ≤ 128 →
        Leaves (.ttrel · p) s b r [.eff (.tileRel v)] 0 { b with eff := b.eff ++ [.tileRel v] }) ∧
      (e.st ≠ .ready → ∀ st, Traps (.ttrel st p) s r 0x0B 0 (BitVec.ofNat 64 v)))

/-! ## Commands and queries -/

/-- 01_engines R16: a command takes the next number of its timeline, which becomes the latest of its context there; the status of
a number is 14 until it finishes and its code then, 15 for a number not issued; *completed* is raised as far as every
number up to it has finished. -/
def Obligations.TimelineNumbers : Prop :=
  ∀ (s : State) (k ctx n code : Nat),
    let t := s.tl k
    let u := (s.reserve k ctx).2
    (s.reserve k ctx).1 = t.issued + 1 ∧ (u.tl k).issued = t.issued + 1 ∧ (u.tl k).latestOf ctx = t.issued + 1 ∧
    (u.tl k).completed = t.completed ∧ (∀ j, j ≠ k → u.tl j = s.tl j) ∧ u.barges = s.barges ∧ u.mem = s.mem ∧
    (t.issued < n → (t.status n).code = 15) ∧
    (0 < n → n ≤ t.issued → t.finished n = false → (∀ e ∈ t.ends, e.n ≠ n) → (t.status n).code = 14) ∧
    (0 < n → n ≤ t.issued →
      let v := (s.finish k n code).tl k
      (v.status n).code = code ∧ v.issued = t.issued ∧ v.finished n = true ∧
      (n = t.completed + 1 → n ≤ v.completed) ∧ (n ≠ t.completed + 1 → t.ahead = [] → v.completed = t.completed))

/-- 14_array R230, R242 to R250: the array's commands take numbers on the timeline of the barge's turn context, with the operands
read at issue. `MACCWR` does so for a ready tile entry, and raises the tile-state fault for another, and for an operand that names
no entry. -/
def Machine.ArrayCommands : Prop :=
  ∀ (s : State) (b : Barge) (r : Run), Issuing s b r → ∀ (d p q : Nat) (o i : Bool),
    let c := ctxOf s b r
    let x := c.x p
    let y := c.x q
    let C (w : Bool → Instr) (op : Op) (x y : Word) : Prop :=
      c.countWith [.cmd (tlKey 1 b.core) 0 (cmdOf s b op x y)] ≤ 128 → Commands w s b r d (tlKey 1 b.core) (cmdOf s b op x y)
    C (.mturn · d p) .mturn x 0 ∧ C (.mtend · d) .mtend 0 0 ∧ C (.mringcfg · d p q) .mringcfg x y ∧
    C (.mringadv · d p q) .mringadv x y ∧ C (.mzero · d p) .mzero x 0 ∧ C (.mma · d p q o) (.mma o) x y ∧
    C (.mmax · d p q) .mmax x y ∧ C (.mrec · d p q) .mrec x y ∧ C (.mldprog · d p) .mldprog x 0 ∧
    C (.maccrd · d p q i) (.maccrd i) x y ∧
    (64 ≤ y.toNat ∨ c.tileState y.toNat = none → ∀ st, Traps (.maccwr st d p q) s r 0x0B 0 (BitVec.ofNat 64 (y.toNat % 64))) ∧
    (∀ e, y.toNat < 64 → c.tileState y.toNat = some e →
      (e.st = .ready → C (.maccwr · d p q) .maccwr x y) ∧
      (e.st ≠ .ready → ∀ st, Traps (.maccwr st d p q) s r 0x0B 0 (BitVec.ofNat 64 y.toNat)))

/-- 12_sluice R204, R206, R213, R214: the sluice's commands take numbers on a queue of the barge's flight; those with a descriptor
carry its eight words, read from the scratchpad at issue. -/
def Machine.SluiceCommands : Prop :=
  ∀ (s : State) (b : Barge) (r : Run), Issuing s b r → ∀ (d p q m off : Nat),
    let c := ctxOf s b r
    let x := c.x p
    let tl := tlKey 0 (b.core / 4 * 16 + q)
    let C (w : Bool → Instr) (k : Cmd) : Prop := c.countWith [.cmd tl 0 k] ≤ 128 → Commands w s b r d tl k
    let words := wordsOf 8 (overlayWin c.effs m off (readTab (s.barge m).window off 64))
    (x.toNat % 64 = 0 → s.spad s.cur x 64 = some (m, off) →
      (∀ j < 8, tgetD false (s.barge m).spPoison (off / 8 + j) = false) →
      ∀ e ∈ [((.scopy · d p q), Op.scopy), ((.scopy2d · d p q), .scopy2d), ((.sfill · d p q), .sfill), ((.scvt · d p q), .scvt),
          ((.shint · d p q), .shint)],
        C e.1 (cmdOf s b e.2 x 0 words)) ∧
    C (.sqcfg · d p q) (cmdOf s b .sqcfg x 0) ∧ C (.sqrst · d q) (cmdOf s b .sqrst 0 0)

/-- 14_array R240, 12_sluice R206: the commands of the array and of the sluice. -/
def Obligations.ArrayAndSluiceCommands : Prop := Machine.ArrayCommands ∧ Machine.SluiceCommands

/-- 12_sluice R204: a descriptor address that is not a multiple of 64 raises the alignment fault, one outside the window the
scratchpad-bounds fault, and a poisoned word in it the poison fault at that word's address. Of several poisoned words the first is
reported, which is the model's reading (notes/assumptions/18.md). -/
def Machine.DescriptorFaults : Prop :=
  ∀ (s : State) (b : Barge) (r : Run), Issuing s b r → ∀ (st : Bool) (d p q : Nat),
    let x := (ctxOf s b r).x p
    ∀ i ∈ [Instr.scopy st d p q, .scopy2d st d p q, .sfill st d p q, .scvt st d p q, .shint st d p q, .cdef st d p,
        .spawn st p, .spawng st p],
      (x.toNat % 64 ≠ 0 → Traps i s r 3 6 x) ∧
      (x.toNat % 64 = 0 → s.spad s.cur x 64 = none → Traps i s r 5 0 x) ∧
      (∀ m off j, x.toNat % 64 = 0 → s.spad s.cur x 64 = some (m, off) → j < 8 →
        tgetD false (s.barge m).spPoison (off / 8 + j) = true →
        (∀ l < j, tgetD false (s.barge m).spPoison (off / 8 + l) = false) →
        Traps i s r 0x0A 0 (x + BitVec.ofNat 64 (8 * j)))

/-- 16_composer R265 to R272: the composer's commands take numbers on the timeline of the virtual cache that their operands name. -/
def Machine.ComposerCommands : Prop :=
  ∀ (s : State) (b : Barge) (r : Run), Issuing s b r → ∀ (d p q m off : Nat),
    let c := ctxOf s b r
    let x := c.x p
    let y := c.x q
    let low := tlKey 2 (x.toNat % 1024)
    let high := tlKey 2 (x.toNat / 2 ^ 54 % 1024)
    let C (w : Bool → Instr) (tl : Nat) (k : Cmd) : Prop := c.countWith [.cmd tl 0 k] ≤ 128 → Commands w s b r d tl k
    let words := wordsOf 8 (overlayWin c.effs m off (readTab (s.barge m).window off 64))
    C (.crsz · d p) low (cmdOf s b .crsz x 0) ∧ C (.cplace · d p q) low (cmdOf s b .cplace x y) ∧
    C (.cdrop · d p) low (cmdOf s b .cdrop x 0) ∧
    C (.cflush · d p q) high (cmdOf s b .cflush x y) ∧ C (.cinval · d p q) high (cmdOf s b .cinval x y) ∧
    (x.toNat % 64 = 0 → s.spad s.cur x 64 = some (m, off) →
      (∀ j < 8, tgetD false (s.barge m).spPoison (off / 8 + j) = false) →
      C (.cdef · d p) (tlKey 2 ((words.getD 0 0).toNat % 1024)) (cmdOf s b .cdef x 0 words))

/-- 18_mapping R291, R292, R295 to R303: the mapping engine's commands take numbers on the context's own timeline; those that send words
carry s1 to s6 as read at issue. -/
def Machine.MappingCommands : Prop :=
  ∀ (s : State) (b : Barge) (r : Run), Issuing s b r → ∀ (d p q : Nat),
    let c := ctxOf s b r
    let x := c.x p
    let y := c.x q
    let six := [c.x 1, c.x 2, c.x 3, c.x 4, c.x 5, c.x 6]
    let tl := tlKey 3 b.ctx
    let C (w : Bool → Instr) (k : Cmd) : Prop := c.countWith [.cmd tl 0 k] ≤ 128 → Commands w s b r d tl k
    C (.map · d p) (cmdOf s b .map x 0 six) ∧ C (.grant · d p) (cmdOf s b .grant x 0 six) ∧
    C (.send · d p) (cmdOf s b .send x 0 six) ∧ C (.reply · d p) (cmdOf s b .reply x 0 six) ∧
    C (.unmap · d p q) (cmdOf s b .unmap x y) ∧ C (.unmapx · d p q) (cmdOf s b .unmapx x y) ∧
    C (.epdrop · d p) (cmdOf s b .epdrop x 0) ∧ C (.chbind · d p q) (cmdOf s b .chbind x y)

/-- 20_wharf R323, R324, R327, R330, R331: the wharf's commands are buffered with the region and take no number. -/
def Machine.WharfCommands : Prop :=
  ∀ (s : State) (b : Barge) (r : Run), Issuing s b r → ∀ (p m off : Nat),
    let c := ctxOf s b r
    let x := c.x p
    let W (w : Bool → Instr) (k : Cmd) : Prop := c.countWith [.cmd 0 0 k] ≤ 128 →
      Leaves w s b r [.eff (.cmd 0 0 k)] 0 { b with eff := b.eff ++ [.cmd 0 0 k] }
    let words := wordsOf 8 (overlayWin c.effs m off (readTab (s.barge m).window off 64))
    W (.pdec · p) (cmdOf s b .pdec x 0) ∧ W (.chpri · p) (cmdOf s b .chpri x 0) ∧ W (.affin · p) (cmdOf s b .affin x 0) ∧
    (x.toNat % 64 = 0 → s.spad s.cur x 64 = some (m, off) →
      (∀ j < 8, tgetD false (s.barge m).spPoison (off / 8 + j) = false) →
      W (.spawn · p) (cmdOf s b .spawn x 0 words) ∧ W (.spawng · p) (cmdOf s b .spawng x 0 words))

/-- 20_wharf R326, R327, R330, R331: what a wharf command does as its region commits. `CHPRI` sets the priority, at most the tenant's
PRIMAX; `AFFIN` the affinity of a barge outside a gang, or counts an error; `PDEC` takes one from the count of a created
barge of its context, which at zero is READY where it waits for no message. -/
def Machine.WharfCommandEffects : Prop :=
  ∀ (s : State) (k : Nat) (b : Barge) (c : Cmd), s.barge? c.barge = some b → Machine.still s →
    let a := c.a.toNat
    (c.op = .chpri → s.perform k (.cmd 0 0 c) = s.setB c.barge
      { b with pri := min (a % 8) (tgetD {} s.whf.tenants (s.ctx c.ctx).partition).primax }) ∧
    (c.op = .affin → b.gang = 0 → a < 2 ^ 14 → a / 2 ^ 10 % 4 = 0 → a % 2 ^ 10 ≤ 639 →
      s.perform k (.cmd 0 0 c) = s.setB c.barge { b with aff := c.a }) ∧
    (c.op = .affin → 2 ^ 14 ≤ a ∨ a / 2 ^ 10 % 4 ≠ 0 ∨ 639 < a % 2 ^ 10 → s.perform k (.cmd 0 0 c) =
      { s with whf := { s.whf with errs := tput 0 s.whf.errs c.ctx (min (tgetD 0 s.whf.errs c.ctx + 1) (2 ^ 48 - 1)) } }) ∧
    (∀ pa j x, c.op = .pdec → s.recAddr c.ctx c.a = some pa → s.poolAt pa = some j → s.barge? j = some x →
      x.ctx = c.ctx → x.st = .created → x.gang = 0 →
      (2 ≤ x.pred → s.perform k (.cmd 0 0 c) = s.setB j { x with pred := x.pred - 1 }) ∧
      (x.pred = 1 → x.bound = false → (s.perform k (.cmd 0 0 c)).barge? j =
        some { x with pred := 0, st := .ready, kept := false, readySeq := s.whf.readySeq }))

/-- 16_composer R265, 18_mapping R292, 20_wharf R323: the commands of the composer, the mapping engine and the wharf. -/
def Obligations.ComposerMappingAndWharfCommands : Prop :=
  Machine.ComposerCommands ∧ Machine.MappingCommands ∧ Machine.WharfCommands ∧ Machine.WharfCommandEffects

/-- 01_engines R12, 10_core_faults R184: a command, an arrival or a change of the tile table that would be the 129th of its region
raises the capacity fault, once the other checks of its word have passed. -/
def Machine.CapacityFault : Prop :=
  ∀ (s : State) (b : Barge) (r : Run), Issuing s b r → ∀ (st : Bool) (d p q m off : Nat) (o : Bool),
    let c := ctxOf s b r
    let x := c.x p
    let y := c.x q
    128 < c.countWith [.arrive 0 0 0] →
    (x.toNat % 64 = 0 → s.spad s.cur x 64 = some (m, off) →
      ((∀ j < 8, tgetD false (s.barge m).spPoison (off / 8 + j) = false) →
        ∀ i ∈ [Instr.scopy st d p q, .scopy2d st d p q, .sfill st d p q, .scvt st d p q, .shint st d p q, .cdef st d p,
          .spawn st p, .spawng st p], Traps i s r 8 0 0) ∧
      (let rec_ := leNum (overlayWin c.effs m off (readTab (s.barge m).window off 64))
       rec_ % 2 ^ 16 ≠ 0 → rec_ / 2 ^ 33 % 2 ^ 31 = 0 → rec_ / 2 ^ 112 = 0 →
         Traps (.barv st p) s r 8 0 0 ∧ (y.toNat < 2 ^ 40 → Traps (.barvx st p q) s r 8 0 0))) ∧
    (∀ e, x.toNat < 64 → c.tileState x.toNat = some e → e.st = .ready → Traps (.ttrel st p) s r 8 0 0) ∧
    (∀ e, y.toNat < 64 → c.tileState y.toNat = some e → e.st = .ready → Traps (.maccwr st d p q) s r 8 0 0) ∧
    (let ty := x.toNat / 2 ^ 8 % 16
     x.toNat < 2 ^ 17 → x.toNat / 2 ^ 6 % 4 = 0 → x.toNat / 2 ^ 12 % 16 = 0 → ty < 10 →
     (c.tileState (x.toNat % 64)).map Tile.st = some .empty → y.toNat % 64 = 0 →
     y.toNat + shapeRows b.rtcode * shapeCols b.rtcode * tyWidth ty / 8 ≤ b.spf * 4096 → Traps (.ttdef st p q) s r 8 0 0) ∧
    ∀ i ∈ [Instr.mturn st d p, .mtend st d, .mringcfg st d p q, .mringadv st d p q, .mzero st d p, .mma st d p q o, .mmax st d p q,
        .mrec st d p q, .mldprog st d p, .maccrd st d p q o, .sqcfg st d p q, .sqrst st d q, .crsz st d p, .cflush st d p q,
        .cinval st d p q, .cplace st d p q, .cdrop st d p, .map st d p, .grant st d p, .unmap st d p q, .unmapx st d p q,
        .send st d p, .reply st d p, .epdrop st d p, .chbind st d p q, .pdec st p, .chpri st p, .affin st p],
      Traps i s r 8 0 0

/-- 12_sluice R204, 01_engines R12: the faults at the issue of a command. -/
def Obligations.CommandFaults : Prop := Machine.DescriptorFaults ∧ Machine.CapacityFault

/-- The STATUS word of a number on a timeline (14_array R251): 15 where the context may not ask. -/
def Machine.statusOn (s : State) (b : Barge) (kind index n : Nat) : Word :=
  BitVec.ofNat 64 ((if s.mayWait b.ctx kind index n then ((s.tl (tlKey kind index)).status n).code else 15) * 2 ^ 44)

/-- 12_sluice R212, 14_array R251, 16_composer R273, 18_mapping R302, R304, 20_wharf R332, R333: what the status queries deliver; none of
them changes anything but its register. DONE and PGRAN of a number with status 14 or 15 are 0, and DONE is the low 40 bits of its
count: the model's choice (notes/assumptions/26.md). -/
def Machine.StatusQueries : Prop :=
  ∀ (s : State) (b : Barge) (r : Run), Issuing s b r → ∀ (d p q : Nat),
    let c := ctxOf s b r
    let x := c.x p
    let y := c.x q
    let part := (s.ctx b.ctx).partition
    let sq (index : Nat) : Word :=
      let e := if s.mayWait b.ctx 0 index x.toNat then (s.tl (tlKey 0 index)).status x.toNat else ⟨x.toNat, 15, 0, 0⟩
      BitVec.ofNat 64 (min e.pgran 255 * 2 ^ 48 + e.code * 2 ^ 44 + e.done % 2 ^ 40)
    let turn := s.turnHeld s.cur
    let ring : Option Ring := turn.bind (fun t => tget t.2.rings x.toNat)
    WritesS (.sqstat · d p q) s b r d (sq (b.core / 4 * 16 + q)) ∧
    (y.toNat < 2560 → WritesS (.sqstatNamed · d p q) s b r d (sq y.toNat)) ∧
    WritesS (.mstat · d p 0) s b r d (Machine.statusOn s b 1 b.core x.toNat) ∧
    (x.toNat < 8 → WritesS (.mstat · d p 1) s b r d (BitVec.ofNat 64 ((ring.map Ring.head).getD 0)) ∧
      WritesS (.mstat · d p 2) s b r d (BitVec.ofNat 64 ((ring.map Ring.tail).getD 0))) ∧
    (x = 0 → WritesS (.mstat · d p 3) s b r d ((turn.map (fun t =>
      BitVec.ofNat 64 (t.2.tiles + t.2.wbase * 2 ^ 8 + t.2.wsize * 2 ^ 16))).getD 0)) ∧
    (x.toNat < 1024 → WritesS (.cquery · d p q 0) s b r d (Machine.statusOn s b 2 x.toNat y.toNat)) ∧
    (1024 ≤ x.toNat → WritesS (.cquery · d p q 0) s b r d (BitVec.ofNat 64 (15 * 2 ^ 44)) ∧
      (y = 0 → WritesS (.cquery · d p q 1) s b r d 0) ∧ WritesS (.cquery · d p q 3) s b r d (BitVec.allOnes 64)) ∧
    (x.toNat < 4 → y = 0 → WritesS (.cquery · d p q 2) s b r d
      (BitVec.ofNat 64 (s.limitOf part x.toNat + s.usedOf part x.toNat * 2 ^ 16))) ∧
    (y = 0 → WritesS (.mquery · d p q 0) s b r d (BitVec.ofNat 64 (((s.tl (tlKey 3 b.ctx)).status x.toNat).code * 2 ^ 44))) ∧
    (x = 0 → y = 0 → WritesS (.mquery · d p q 2) s b r d
      (BitVec.ofNat 64 ((s.ctx b.ctx).scope + (s.ctx b.ctx).measured.toNat * 8 + (s.ctx b.ctx).scopecnt * 2 ^ 16))) ∧
    (s.endpoint b.ctx x = none → WritesS (.epinfo · d p) s b r d 0) ∧
    (∀ e, s.endpoint b.ctx x = some e → WritesS (.epinfo · d p) s b r d
      (BitVec.ofNat 64 (2 ^ 63 + e.gen * 2 ^ 16 + e.g.toNat * 4 + e.m.toNat * 2 + e.s.toNat))) ∧
    (b.gsize < x.toNat → WritesS (.ginfo · d p) s b r d 15) ∧
    (∀ k, x.toNat ≤ b.gsize → x.toNat < 16 → s.member s.cur x.toNat = some k →
      WritesS (.ginfo · d p) s b r d (BitVec.ofNat 64 (s.barge k).st.code)) ∧
    (x ≠ 0 → ∀ l < 3, WritesS (.wstat · d p l) s b r d 0) ∧
    (x = 0 → WritesS (.wstat · d p 2) s b r d (BitVec.ofNat 64 (tgetD 0 s.whf.errs b.ctx)) ∧
      WritesS (.wstat · d p 1) s b r d (s.slotWord b.ctx) ∧
      WritesS (.wstat · d p 0) s b r d
        (BitVec.ofNat 64 (tgetD 0 s.whf.lastServed (part * 4 + b.core / 160) / 4096 * 4096))) ∧
    WritesS (.wstat · d p 3) s b r d (s.poolWord b.ctx x)

/-- 12_sluice R212, 16_composer R273, 18_mapping R304: the queries of a named queue, of a virtual cache and of a translation. -/
def Machine.NamedQueries : Prop :=
  ∀ (s : State) (b : Barge) (r : Run), Issuing s b r → ∀ (d p q : Nat),
    let c := ctxOf s b r
    let x := c.x p
    let y := c.x q
    let part := (s.ctx b.ctx).partition
    (2560 ≤ y.toNat → WritesS (.sqstatNamed · d p q) s b r d (BitVec.ofNat 64 (15 * 2 ^ 44))) ∧
    (x.toNat < 1024 →
      (∀ v, tget s.com.vc x.toNat = some v → v.owner = part →
        (y = 0 → WritesS (.cquery · d p q 1) s b r d (BitVec.ofNat 64
          (v.defw.toNat % 2 ^ 32 * 2 ^ 32 + v.shares.length * 2 ^ 16 + v.faults * 2 ^ 8 + v.state))) ∧
        WritesS (.cquery · d p q 3) s b r d (((v.shares[y.toNat]?).map (BitVec.ofNat 64)).getD (BitVec.allOnes 64))) ∧
      ((∀ v, tget s.com.vc x.toNat = some v → v.owner ≠ part) →
        (y = 0 → WritesS (.cquery · d p q 1) s b r d 0) ∧ WritesS (.cquery · d p q 3) s b r d (BitVec.allOnes 64))) ∧
    (∀ z, (y = 0 ∧ z = b.ctx) ∨ (y ≠ 0 ∧ b.ctx = 0 ∧ z = y.toNat) →
      (s.lookup z x.toNat = none → WritesS (.mquery · d p q 1) s b r d 0 ∧ WritesS (.mquery · d p q 3) s b r d (BitVec.allOnes 64)) ∧
      (∀ k n pa, s.lookup z x.toNat = some (k, n, pa) →
        (∀ v, n.vcid = some v → WritesS (.mquery · d p q 1) s b r d (BitVec.ofNat 64 (2 ^ 63 + n.x.toNat * 2 ^ 62 +
          n.w.toNat * 2 ^ 61 + n.r.toNat * 2 ^ 60 + v * 2 ^ 48 + n.stamp % 2 ^ 40))) ∧
        (b.ctx = 0 → WritesS (.mquery · d p q 3) s b r d (BitVec.ofNat 64 pa)))) ∧
    (b.ctx ≠ 0 → WritesS (.mquery · d p q 3) s b r d (BitVec.allOnes 64) ∧
      (y ≠ 0 → WritesS (.mquery · d p q 1) s b r d 0))

/-- 12_sluice R212, 14_array R251, 16_composer R273, 18_mapping R304, 20_wharf R332, R333: the queries. -/
def Obligations.Queries : Prop := Machine.StatusQueries ∧ Machine.NamedQueries

/-- 18_mapping R298 to R300: `RECV` and `CALL` check their receipt address at issue and commit. A `RECV` on a channel of the
barge's context takes the oldest message at once: its words to s1 to s6, and a receipt with its token, kind, status 0 and
badge; without a message a polling one ends with status 13 and another waits; a `CALL` through an endpoint that is not
valid ends with status 3, and through one whose channel has room sends s1 to s6 with a fresh token and waits. Which token is the
model's choice (notes/assumptions/43.md). -/
def Obligations.Messages : Prop :=
  ∀ (s : State) (b : Barge) (r : Run), Alone s b r → b.eff = [] → b.leases = [] → b.late = [] → s.mem.leaseQ = [] →
    ∀ (p q m off : Nat) (poll : Bool),
    let c := ctxOf s b r
    let n := (c.x p).toNat
    let held (op : HeldOp) : Held := ⟨r.at, op, s.whf.readySeq, s.whf.readySeq, (b.core, b.slot)⟩
    let win (t : State) : List Byte := readTab (t.barge m).window off 16
    let code (t : State) : Nat := leNum (win t) / 2 ^ 36 % 16
    (c.x q).toNat % 16 = 0 → s.spad s.cur (c.x q) 16 = some (m, off) → twf 0 (s.barge m).window = true →
    (n < 65536 → (s.chan n).owner = some b.ctx →
      (∀ g ms, (s.chan n).queue = g :: ms → ∃ t, exec (.recv p q poll) s = .next t ∧
        win t = leBytes 8 (g.token % 2 ^ 32 + g.kind * 2 ^ 32) ++ leBytes 8 g.badge.toNat ∧
        (t.barge s.cur).carry = g.words ∧ (t.chan n).queue = ms ∧ (t.barge s.cur).held = none ∧
        (t.barge s.cur).resume = (r.here.pc + 4) % 2 ^ 48 ∧ t.mem = s.mem) ∧
      ((s.chan n).queue = [] → poll = true → ∃ t, exec (.recv p q poll) s = .next t ∧ code t = 13 ∧
        (t.barge s.cur).held = none ∧ (t.barge s.cur).resume = (r.here.pc + 4) % 2 ^ 48 ∧ t.mem = s.mem) ∧
      ((s.chan n).queue = [] → poll = false → ∃ t, exec (.recv p q poll) s = .next t ∧
        (t.barge s.cur).held = some (held (.recv (some n) m off false)) ∧ s.cur ∈ (t.chan n).waiters)) ∧
    (s.endpoint b.ctx (c.x p) = none → ∃ t, exec (.call p q) s = .next t ∧ code t = 3 ∧ (t.barge s.cur).held = none ∧
      (t.barge s.cur).resume = (r.here.pc + 4) % 2 ^ 48 ∧ t.mem = s.mem) ∧
    (∀ e, s.endpoint b.ctx (c.x p) = some e → e.s = true → (s.ctx e.tctx).st = .live → s.liveOwner e.chan ≠ none →
      (s.chan e.chan).queue.length < 64 → (s.chan e.chan).heldFaults = [] → (s.chan e.chan).waiters = [] →
      let six := [c.x 1, c.x 2, c.x 3, c.x 4, c.x 5, c.x 6]
      let token := b.token false b.calls
      s.map.spent.contains token = false → 0 < token ∧ token < 2 ^ 32 ∧ ∃ t, exec (.call p q) s = .next t ∧
        (t.chan e.chan).queue = (s.chan e.chan).queue ++ [⟨six, e.badge, 1, token⟩] ∧
        (t.barge s.cur).held = some (held (.call (c.x p) m off six (some token))) ∧
        tget t.map.tokens token = some { barge := s.cur, isFault := false, target := e.tctx } ∧
        (t.barge s.cur).calls = b.calls + 1 ∧ (t.barge s.cur).resume = (r.here.pc + 4) % 2 ^ 48)

/-! ## The step, exceptions, reset, encoding -/

/-- What a step's outcome is once its cycle has passed. -/
def Machine.ticked (o : Out) : Out := match o with | .next t => .next t.tick | o => o

/-- 05_core_state R97, 04_encoding R68: where the next thing that happens is that barge `k` issues, a step is `exec` of the next
word of its run, taken from the run with the barge presented on its core and its slot; where it has no run in progress, the
run is the one that its fetch finds, and for a word whose stop bit is set that run is the one instruction that the four
bytes at the program counter decode to. An access of the barge that waited for an answer has had it (21_host R357). Then the cycle passes. An event that is due from outside is performed the same way. -/
def Obligations.StepRunsTheDecodedWord : Prop :=
  (∀ (s t : State) (k : Nat) (b : Barge), s.inputs = [] → s.chooseAct s.acts = (some (.issue k), t) → t.barge? k = some b →
    let c := { b with heard := b.unanswered.isSome, unanswered := none }
    let u := t.setB k c
    (∀ r w ws, b.run = some r → r.words = w :: ws → step s = Machine.ticked (exec w.instr (u.present k c r w ws))) ∧
    (b.run = none → ∀ w ws ks, u.nextRun c = .ok (w :: ws, ks) → ∃ d : Barge, (u.openRun k c).barge? k = some d ∧
      let r : Run := { words := w :: ws, here := w, sys := u.sysNow c }
      d.run = some r ∧ d.pc = b.pc ∧ d.sreg = b.sreg ∧ d.vreg = b.vreg ∧ d.eff = b.eff ∧ d.frame = b.frame ∧ d.st = b.st ∧
      step s = Machine.ticked (exec w.instr ((u.openRun k c).present k { d with heard := false } r w ws))) ∧
    (b.run = none → b.frame = none → ∀ (g : Seg) (i : Instr),
      b.pc < 2 ^ 48 → u.page b.core b.ctx b.pc b.pc 4 .x = .ok g → u.directOk g.pa = true → u.isIsolated g.pa = false →
      u.unheard c g.vc g.pa 4 = none → u.mem.seenPoison b.core g.pa 4 = false →
      let w := leNum (u.seenAt b.core g.pa 4)
      decode32 w = .ok i → (Fields.unpack w).st = 1 → (∀ p, i ≠ .pfx p) → (∀ n l x y z e, i ≠ .rpt n l x y z e) →
      u.nextRun c = .ok ([⟨b.pc, i, 0⟩], [g.node]))) ∧
  (∀ (s : State) (due : Nat) (i : Instr) (rest : List (Nat × Instr)), s.inputs = (due, i) :: rest → due ≤ s.cycle →
    i.isWord = false → step s = Machine.ticked (exec i { s with inputs := rest }))

/-- 10_core_faults R186, R187, R188: taking an exception. The region of an aborting class aborts: the barge stands at its record, its
buffered effects and leases gone. A message that can be delivered is queued with its six words, badge, kind and token (a fresh
one, which is the model's choice: notes/assumptions/43.md), and the barge is parked; for one that cannot, the barge is left to end with fault status. -/
def Obligations.TakingAnException : Prop :=
  ∀ (s : State) (k : Nat) (b : Barge) (x : Exc), s.barge? k = some b → s.mem.leaseQ = [] →
    let at_ := x.site.getD (b.core, b.slot)
    let info := x.cls + x.detail * 2 ^ 8 + b.ctx * 2 ^ 12 + at_.1 * 2 ^ 24 + at_.2 * 2 ^ 34 + x.after.toNat * 2 ^ 37
    let via := if x.cls = 6 then (s.ctx b.ctx).pager else 0
    (∀ ch, s.faultChan b.ctx x.cls = some ch → x.fpx = none →
      let t := s.takeExc k x
      let token := b.token true b.faults
      let m : Msg := ⟨[BitVec.ofNat 64 info, BitVec.ofNat 64 x.pc, x.s3, BitVec.ofNat 64 b.recVa, x.s5, x.s6],
        BitVec.ofNat 64 b.ctx, 2, token⟩
      let room : Prop := (s.chan ch).queue.length < 64 ∧ (s.chan ch).heldFaults = []
      s.map.spent.contains token = false → 0 < token ∧ token < 2 ^ 32 ∧ t.mem = s.mem ∧
      ((s.chan ch).waiters = [] ∨ ¬ room → (∀ j, j ≠ k → t.barge? j = s.barge? j) ∧
        t.barge? k = some { b.restart with
          st := .parked, held := none, fpx := none, preempt := false, faultToken := token, faults := b.faults + 1 }) ∧
      ((s.chan ch).waiters = [] → room → (t.chan ch).queue = (s.chan ch).queue ++ [m]) ∧
      (∀ w ws c pc wb off poll since waited site, (s.chan ch).waiters = w :: ws → w ≠ k → s.barge? w = some c →
        c.held = some ⟨pc, .recv (some ch) wb off poll, since, waited, site⟩ → room →
        (t.barge w).carry = m.words ∧ (t.barge w).held = none ∧ (t.chan ch).waiters = ws ∧ (t.chan ch).queue = (s.chan ch).queue ∧
        (t.barge k).st = .parked) ∧
      (¬ room → (t.chan ch).queue = (s.chan ch).queue ∧
        (t.chan ch).heldFaults = (s.chan ch).heldFaults ++ [{ bid := k, msg := m, pager := via }]) ∧
      (x.after = true → t.tls = s.tls) ∧
      (x.after = false → b.commit = none → ∀ tl n c, b.eff = [.cmd tl n c] → 0 < n → ((t.tl tl).ends.head?).map (fun e => (e.n, e.code)) = some (n, 1))) ∧
    (s.faultChan b.ctx x.cls = none →
      s.takeExc k x = ((if x.after then s else s.abortRegion k).count b.ctx 5 1).endBarge k true)

/-- 10_core_faults R189: what a reply to the fault message of a parked barge does. CONTINUE makes it READY, at its record's resume
address when it is dispatched again, every register but s0 to s6 zero; with SETCARRY its s1 to s5 take the reply's words and s6
stays; END ends it with fault status, a SETCARRY beside it standing in its record (notes/assumptions/35.md: the rule speaks only of a
barge that becomes READY); a reserved disposition and a set bit 63:3 are refused. -/
def Obligations.ReturnFromException : Prop :=
  ∀ (s : State) (k : Nat) (b : Barge), s.barge? k = some b → ∀ (r a1 a2 a3 a4 a5 : Word),
    let carry := if r.getLsbD 2 then [a1, a2, a3, a4, a5, b.carry.getD 5 0] else b.carry
    (r.toNat = 0 ∨ r.toNat = 4 → ∃ t c, s.replyFault k [r, a1, a2, a3, a4, a5] = some t ∧ t.barge? k = some c ∧ c.st = .ready ∧
      c.resume = b.resume ∧ c.carry = carry ∧ c.faultToken = 0 ∧ c.restart.pc = b.resume ∧ c.restart.vreg = [] ∧
      (∀ i, tgetD 0 c.restart.sreg i = if 1 ≤ i ∧ i ≤ 6 then carry.getD (i - 1) 0 else 0) ∧
      (∀ j, j ≠ k → t.barge? j = s.barge? j) ∧ t.mem = s.mem) ∧
    (r.toNat = 1 → s.replyFault k [r, a1, a2, a3, a4, a5] = some ((s.setB k { b with faultToken := 0 }).endBarge k true)) ∧
    (r.toNat = 5 → s.replyFault k [r, a1, a2, a3, a4, a5] =
      some ((s.setB k { b.setCarry [a1, a2, a3, a4, a5, b.carry.getD 5 0] with faultToken := 0 }).endBarge k true)) ∧
    (8 ≤ r.toNat ∨ 2 ≤ r.toNat % 4 → s.replyFault k [r, a1, a2, a3, a4, a5] = none)

/-- 21_host R365, 18_mapping R281, 16_composer R258, 05_core_state R92, 20_wharf R338 to R342: what a start leaves. No barge, no command, no
packet and no number; every byte of memory in every view zero, none poisoned, none cached and nothing on its way; context 0 alone live, in partition 0;
LEASEMAX, TLEASE, SLOTCFG and the slot table at their reset values; LIMIT all shares for partition 0 and none for another. -/
def Obligations.ResetState : Prop :=
  let s := State.reset
  s.barges = [] ∧ s.tls = [] ∧ s.slu.cmds = [] ∧ s.arr.queue = [] ∧ s.arr.turn = [] ∧ s.com.vc = [] ∧ s.com.queue = [] ∧
  s.map.queue = [] ∧ s.hst.packets = [] ∧ s.hst.queues = [] ∧ s.slu.isolated = [] ∧ s.map.seq = 0 ∧
  (∀ die a, s.byteAt die a = 0) ∧ (∀ die a, s.poisonedAt die a = false) ∧ s.mem.wf = true ∧ Machine.still s ∧ s.mem.l1 = [] ∧ s.mem.leaseQ = [] ∧
  (∀ c, (s.ctx c).st = if c = 0 then .live else .free) ∧ (s.ctx 0).partition = 0 ∧ (∀ c h, s.endpoint c h = none) ∧
  (∀ c, (s.chan c).queue = []) ∧ (∀ core, s.leaseMaxOf core = 256) ∧ s.map.tlease = 4096 ∧
  s.whf.slotEn = false ∧ s.whf.slotLen = 1000 ∧ (∀ k, tgetD (BitVec.allOnes 256) s.whf.slots k = BitVec.allOnes 256) ∧
  (∀ p d, d < 4 → s.limitOf p d = (if p = 0 then 6360 else 0) ∧ s.usedOf p d = 0)

/-- The canonical form of memory (notes/assumptions/5.md) stands through every step, from every state that has it. -/
def Obligations.MemoryKeepsItsForm : Prop := ∀ s t : State, s.MemWf → step s = .next t → t.MemWf

/-- The canonical forms of the tables that other statements suppose: the barges and the timelines in order of their keys; the
array accumulators and rings, the windows and the counters so and with no entry that is 0. -/
def Machine.TablesWf (s : State) : Prop :=
  tsorted s.barges 0 = true ∧ tsorted s.tls 0 = true ∧ twf 0 s.arr.acc = true ∧ twf 0 s.arr.ring = true ∧
  twf 0 s.hst.exact = true ∧ twf 0 s.hst.coarse = true ∧ ∀ e ∈ s.barges, twf 0 e.2.window = true

/-- These forms stand through every step, from every state that has them, and the state after a start has them. -/
def Obligations.TablesKeepTheirForm : Prop :=
  Machine.TablesWf State.reset ∧ ∀ s t : State, Machine.TablesWf s → step s = .next t → Machine.TablesWf t

/-- 04_encoding R72 to R88: the word of every instruction that the encoding has decodes to that instruction, with every operand. -/
def Obligations.DecodingAnEncodedWord : Prop :=
  ∀ i : Instr, i.isWord = true → i.wf = true → encode i < 2 ^ 32 ∧ decode32 (encode i) = .ok i

/-- 04_encoding R88: every word that decodes is the word of the instruction it decodes to, and that instruction is well-formed;
so a word with a reserved value or a set bit where the encoding asks for zero decodes to nothing. -/
def Obligations.EncodingADecodedWord : Prop :=
  ∀ (w : Nat) (i : Instr), w < 2 ^ 32 → decode32 w = .ok i → encode i = w ∧ i.isWord = true ∧ i.wf = true

/-- Words written out from the tables of 04_encoding decode to the instructions they stand for, and the all-zero word to none. -/
def Obligations.DecodedSamples : Prop :=
  decode32 0x82000003 = .ok (.or true 0 0 0) ∧ decode32 0x8480000A = .ok (.addi true 8 0 10) ∧
  decode32 0x90740083 = .ok (.srai true 7 8 3) ∧ decode32 0x9C0F8000 = .ok (.jlr 0 31 0) ∧
  decode32 0xFC301009 = .ok (.rpt 3 0 1 0 0 9) ∧ decode32 0xC4009E8C = .ok (.xaadd true 1 7 .d .f32) ∧
  decode32 0x92712345 = .ok (.lui true 7 0x12345) ∧ decode32 0x98000000 = .ok (.j 0) ∧
  decode32 0xDA000010 = .ok .ckpt ∧ decode32 0xDA000020 = .ok .yield ∧ (∀ i, decode32 0 ≠ .ok i)

/-! ## The steps without a word: barges and memory -/

/-- A barge whose region has issued no command. -/
def Machine.noCommands (b : Barge) : Prop := ∀ e ∈ b.eff, ∀ tl n c, e ≠ Effect.cmd tl n c

/-- 08_core_memory R150, R151, 10_core_faults R195, R196, 21_host R357: what happens to a barge without a word of its own. A held
operation whose condition has come about is performed; a lease at its end aborts its region, which stands at its record again
(R165); a pre-emption is taken where no lease is held, a barge at a suspension point keeping its held operation; a target that
has not answered is isolated. Of a barge whose region is being committed a lease at its end ends, and the commit goes on. -/
def Machine.BargeSteps : Prop :=
  ∀ (s : State) (k : Nat) (b : Barge), s.barge? k = some b → b.st = .resident → s.mem.leaseQ = [] →
    (b.commit ≠ none → (∃ l ∈ b.leases, l.until_ ≤ s.cycle) →
      exec (.leaseExpiry k) s = .next ((s.endLeases k (fun b => { b with leases := [] })).goCommit k)) ∧
    (b.late = [] → b.commit = none →
    (∀ pc d m off ea since waited site, b.held = some ⟨pc, .ldf d m off ea, since, waited, site⟩ → b.fpx = none →
      (s.barge m).isFull off = true → (s.barge m).wordPoison off = false → (∀ e ∈ s.barges, e.1 ≠ k → e.2.held = none) →
      ∃ t, exec (.feHeldPerform k) s = .next t ∧ (t.barge m).full = tput false (s.barge m).full (off / 8) false ∧
        (t.barge m).window = (s.barge m).window ∧ (t.barge k).held = none ∧ (t.barge k).pc = b.pc ∧
        (t.barge k).sreg = (if 1 ≤ d ∧ d ≤ 6 then tput 0 b.sreg d ((s.barge m).wordAt off) else b.sreg) ∧ t.mem = s.mem) ∧
    (∀ pc m c off w since waited site, b.held = some ⟨pc, .ste m off w, since, waited, site⟩ → b.fpx = none → s.barge? m = some c →
      c.isFull off = false → (∀ e ∈ s.barges, e.1 ≠ k → e.2.held = none) →
      ∃ t, exec (.feHeldPerform k) s = .next t ∧ (t.barge m).isFull off = true ∧
        (t.barge m).window = writeTab c.window off ((List.range 8).map (fun i => w.extractLsb' (8 * i) 8)) ∧
        (t.barge k).held = none ∧ ∀ die a, t.byteAt die a = s.byteAt die a) ∧
    (∀ pc tl n since waited site, b.held = some ⟨pc, .tlwait tl n, since, waited, site⟩ → b.fpx = none →
      exec (.feHeldPerform k) s = .next (if n ≤ (s.tl tl).completed then s.setB k { b with held := none } else s)) ∧
    ((∃ l ∈ b.leases, l.until_ ≤ s.cycle) → Machine.noCommands b → exec (.leaseExpiry k) s = .next (s.setB k b.restart)) ∧
    ((∀ l ∈ b.leases, s.cycle < l.until_) → exec (.leaseExpiry k) s = .next s) ∧
    (b.preempt = true → b.leases = [] → b.held = none → Machine.noCommands b →
      ∃ t, exec (.preemption k) s = .next t ∧ t.mem = s.mem ∧ (∀ j, j ≠ k → t.barge? j = s.barge? j) ∧
        t.barge? k = some { b.restart with preempt := false, st := .ready, kept := false, readySeq := s.whf.readySeq }) ∧
    (b.preempt = true → b.leases = [] → b.suspended = true →
      ∃ t, exec (.preemption k) s = .next t ∧ t.mem = s.mem ∧ (∀ j, j ≠ k → t.barge? j = s.barge? j) ∧
        t.barge? k = some { b.restart with preempt := false, st := .waiting, readySeq := s.whf.readySeq }) ∧
    (b.preempt = false ∨ b.leases ≠ [] → exec (.preemption k) s = .next s) ∧
    (∀ tgt c, b.unanswered = some (tgt, c) → tgt < 0x300 → c + 3072000 ≤ s.cycle → b.held = none →
      tgetD false s.slu.isolated tgt = false → s.hst.events = [] →
      exec (.hostAccessTimeout k) s = .next
        ({ s with slu := { s.slu with isolated := tput false s.slu.isolated tgt true } }.setB k { b with unanswered := none })))

/-- 08_core_memory R163, 16_composer R261: a back-invalidation waits behind a lease of its granule, and behind requests that
wait for it; any other takes the core's copy away, or has one in M written back and kept in E. What is written back is a write at the
home, which allocates a line there as one does (R263). -/
def Machine.Invalidations : Prop :=
  ∀ (s : State) (core g : Nat) (drop : Bool),
    let waits : Prop := (∃ e ∈ s.barges, ∃ l ∈ e.2.leases, l.granule = g) ∨ ∃ r ∈ s.mem.leaseQ, r.gran = g
    (waits → exec (.backInvalidate core g drop) s = .next
      { s with mem := { s.mem with leaseQ := s.mem.leaseQ ++ [.inval core g drop] } }) ∧
    let key := core * 2 ^ 46 + g
    let back := match s.vcAt (64 * (key % 2 ^ 46)) with | 0 => s | v + 1 => s.touchLine v (64 * (key % 2 ^ 46)) true false
    back.mem = s.mem ∧
    (¬ waits → (∀ e ∈ s.mem.l1, e.1 = key → e.2 ≠ .m) → exec (.backInvalidate core g true) s = .next
      { s with mem := { s.mem with l1 := tdel s.mem.l1 key } }) ∧
    (¬ waits → (∀ e ∈ s.mem.l1, e.1 = key → e.2 ≠ .m) → exec (.backInvalidate core g false) s = .next s) ∧
    (¬ waits → tsorted s.mem.l1 0 = true → tget s.mem.l1 key = some .m →
      exec (.backInvalidate core g true) s = .next { back with mem := { s.mem with l1 := tdel s.mem.l1 key } } ∧
      exec (.backInvalidate core g false) s = .next { back with mem := { s.mem with l1 := tset s.mem.l1 key .e } })

/-- 18_mapping R284, R308, R310: a walk keeps the node that translates an address, as it stands, with the core and with the walker of
its die, for TLEASE cycles: that a lease lasts so long and no less, and that the die which walks holds one too, are the model's
reading (notes/assumptions/22.md). A lease at its end is renewed while a resident region uses a node that translates as it did; else the translation is gone, and a region that
used a node withdrawn, moved or changed aborts. -/
def Machine.TranslationLeases : Prop :=
  (∀ (s : State) (core ctx va key pa : Nat) (n : Node), s.translate ctx va = some (key, n, pa) → tget s.map.nodes key = some n →
    let l := tgetD [] s.mem.tcache core
    let walker := 850 + dieOf core
    let held := tgetD [] s.mem.tcache walker
    let lease : TEntry := ⟨key, n, s.cycle + s.map.tlease⟩
    let first := if ∃ e ∈ held, e.key = key then s.mem.tcache else tset s.mem.tcache walker (held ++ [lease])
    (core < 640 → tsorted s.mem.tcache 0 = true → (∀ e ∈ l, e.key ≠ key) → exec (.translationWalk core ctx va) s = .next
      { s with mem := { s.mem with tcache := tset first core (l ++ [lease]) } }) ∧
    ((∃ e ∈ l, e.key = key) → exec (.translationWalk core ctx va) s = .next s)) ∧
  ∀ (s : State) (core key : Nat) (e : TEntry), s.tleaseOut core key = some e →
    let l := tgetD [] s.mem.tcache core
    let used : Prop := ∃ e ∈ s.barges, e.2.core = core ∧ e.2.st = .resident ∧ key ∈ e.2.used
    let gone := tput [] s.mem.tcache core (l.filter (fun e => e.key != key))
    let kept := tput [] s.mem.tcache core (l.map (fun e => if e.key = key then { e with ends := s.cycle + s.map.tlease } else e))
    (¬ used → exec (.translationLeaseExpiry core key) s = .next { s with mem := { s.mem with tcache := gone } }) ∧
    (used → s.nodeGone e = false → exec (.translationLeaseExpiry core key) s = .next { s with mem := { s.mem with tcache := kept } }) ∧
    (∀ j b, s.nodeGone e = true → s.barge? j = some b → b.commit = none → b.core = core → b.st = .resident → key ∈ b.used → tsorted s.barges 0 = true →
      s.mem.leaseQ = [] → (∀ e ∈ s.barges, Machine.noCommands e.2) →
      ∃ t, exec (.translationLeaseExpiry core key) s = .next t ∧ t.barge? j = some b.restart ∧ t.mem = { s.mem with tcache := gone })

/-- 09_core_ordering R174, R175, R177: a write that the view of a die does not hold yet goes a stage further toward it. One without a place
takes the next place in the coherence order; one that the view may apply enters it, and is on its way no longer once every
view holds it; any other is seen in the next wider unit of its issuer. The stages are the model's (notes/assumptions/6.md). -/
def Machine.ViewSteps : Prop :=
  ∀ (s : State) (die k : Nat) (w : Write), die < 4 → (s.mem.waiting die)[k]? = some w →
    ((s.mem.out ++ s.mem.flight).map (fun x => x.id)).Nodup → (∀ x ∈ s.mem.flight, x.views.length < 4) → s.MemWf →
    let same (t : State) : Prop := ∀ d a, t.byteAt d a = s.byteAt d a
    (s.mem.canMove die w = false → exec (.viewAppliesWrite die k) s = .next s) ∧
    (w ∈ s.mem.out → s.mem.canMove die w = true → ∃ t, exec (.viewAppliesWrite die k) s = .next t ∧
      t.mem.out = s.mem.out.erase w ∧ t.mem.flight = s.mem.flight ++ [w] ∧ same t) ∧
    (w ∈ s.mem.flight → s.mem.may die w = true → ∃ t, exec (.viewAppliesWrite die k) s = .next t ∧ t.mem.out = s.mem.out ∧
      (t.mem.flight.map (fun x => x.id) = if w.views.length < 3 then s.mem.flight.map (fun x => x.id) else (s.mem.flight.erase w).map (fun x => x.id)) ∧
      (w.views.length < 3 → { w with views := w.views ++ [die] } ∈ t.mem.flight) ∧
      ∀ d < 4, ∀ a, t.byteAt d a =
        if d = die ∧ w.pa ≤ a ∧ a < w.pa + w.bytes.length then w.bytes.getD (a - w.pa) 0 else s.byteAt d a) ∧
    (w ∈ s.mem.flight → s.mem.may die w = false → s.mem.canMove die w = true →
      ∃ t, exec (.viewAppliesWrite die k) s = .next t ∧ t.mem.out = s.mem.out ∧ same t ∧
        t.mem.flight = s.mem.flight.map (fun x => if x.id = w.id then { x with reach := x.reach + 1 } else x))

/-- 08_core_memory R150, R151, R163, R165, 10_core_faults R195, R196, 21_host R357, 18_mapping R284, R308, R310, 09_core_ordering R174, R175,
R177: what happens to a barge and to memory without a word being issued. -/
def Obligations.BargeAndMemorySteps : Prop :=
  Machine.BargeSteps ∧ Machine.Invalidations ∧ Machine.TranslationLeases ∧ Machine.ViewSteps

/-! ## The steps of the engines -/

/-- The newest status that a timeline keeps. -/
def Machine.newest (s : State) (tl : Nat) : Option Ended := (s.tl tl).ends.head?

/-- 14_array R230, R231, R241 to R243, R248, R252, 09_core_ordering R180: the array begins the next command of the context whose turn
it is, with its status decided, once what its core has released or seen is performed at .F (`Obligations.Fences`).
An `MTURN` that passes its checks is granted here, an `MTEND` ends its turn, an `MLDPROG` reads its record. -/
def Machine.ArrayBegins : Prop :=
  ∀ (s : State) (f core : Nat) (m : MCmd) (rest : List MCmd), s.matrixNext f = some core →
    tgetD [] s.arr.queue core = m :: rest →
    let st := s.matrixStatus core m
    let c := m.cmd
    let a := { s.arr with
      queue := tput [] s.arr.queue core rest, last := tput 3 s.arr.last f (core % 4)
      running := tset s.arr.running f ⟨core, m, st, s.progRead c⟩ }
    let begun (a : ArraySt) : Out := .next { s with arr := a, mem := s.mem.spread core 1 }
    let turns (t : Turn) : Out := begun { a with turn := tset s.arr.turn core t }
    (c.op ≠ .mturn → (∀ t, tget s.arr.turn core = some t → t.holder ≠ c.barge) → st = 4) ∧
    (∀ w ∈ (s.mem.spread core 1).out, w.core = core → s.mem.holds w.id = true) ∧
    (∀ w ∈ (s.mem.spread core 1).flight, w.seenBy core = true → 1 ≤ w.reach) ∧
    (c.op ≠ .mturn → c.op ≠ .mtend → exec (.matrixCommandBegin f) s = begun a) ∧
    (st ≠ 0 → exec (.matrixCommandBegin f) s = begun a) ∧
    (c.op = .mturn → st = 0 → exec (.matrixCommandBegin f) s = turns
      { holder := c.barge, tiles := (c.a.extractLsb' 0 8).toNat, wbase := (c.a.extractLsb' 8 5).toNat
        wsize := (c.a.extractLsb' 16 6).toNat }) ∧
    (c.op = .mturn → (∃ e ∈ s.arr.turn, e.2.holder = c.barge) → st = 2) ∧
    (∀ t, c.op = .mtend → tget s.arr.turn core = some t → t.holder = c.barge →
      exec (.matrixCommandBegin f) s = turns { t with ending := some m.n }) ∧
    (∀ k off, c.op = .mldprog → s.spad c.barge c.a 64 = some (k, off) →
      s.progRead c = (List.range 8).map (fun i => (s.barge k).wordAt (off + 8 * i)))

/-- 14_array R237 to R239, R241 to R250: a command completes with the status that its begin decided, and one with a status but OK
changes nothing else. Of the others: `MTURN`, `MRINGCFG`, `MRINGADV` and `MLDPROG` change the turn; `MZERO` zeroes its tiles; the
multiply commands give every element of their block the value of `mmaCell` or `recCell` (`Machine.ArrayCells`), consume their rings, and
complete POISON where they have consumed poison; `MACCRD` writes its block, converted, to a window; `MACCWR` writes a tile entry's
elements, a poisoned one as 0x7FC0_0000, and empties the entry whatever its status. -/
def Machine.ArrayCompletes : Prop :=
  ∀ (s : State) (f : Nat) (r : MRun), tget s.arr.running f = some r → flightOf r.core = f → 0 < r.m.n →
    let c := r.m.cmd
    let a := c.a
    let ended (t : State) (code : Nat) : Prop :=
      exec (.matrixCommandComplete f) s = .next t ∧ Machine.newest t (tlKey 1 r.core) = some ⟨r.m.n, code, 0, 0⟩ ∧ t.mem = s.mem ∧
        t.arr.running = tdel s.arr.running f
    (r.status ≠ 0 → ∃ t, ended t r.status ∧ t.arr = { s.arr with running := tdel s.arr.running f }) ∧
    (∀ b, c.op = .maccwr → s.barge? c.barge = some b → b.st ≠ .ended → ∃ t code, ended t code ∧
      (t.barge c.barge).tileTab = tdel b.tileTab (c.b.extractLsb' 0 6).toNat) ∧
    (r.status = 0 → c.op = .mturn → ∃ t, ended t 0 ∧ t.arr.turn = s.arr.turn) ∧
    (∀ tn, r.status = 0 → tget s.arr.turn r.core = some tn → tsorted s.arr.acc 0 = true →
      let turns (t : State) (tn : Turn) : Prop := t.arr.turn = tset s.arr.turn r.core tn
      let cells (t : State) (new : Nat → Nat → Nat → Nat) : Prop :=
        ∀ tile < 8, ∀ i < 128, ∀ j < 96, t.arr.cell f tile i j = new tile i j
      (c.op = .mringcfg → ∃ t, ended t 0 ∧ cells t (s.arr.cell f) ∧ turns t { tn with
        rings := tset tn.rings a.toNat ⟨(c.b.extractLsb' 0 21).toNat, (c.b.extractLsb' 32 22).toNat, 0, 0⟩ }) ∧
      (∀ g, c.op = .mringadv → tget tn.rings (a.toNat % 8) = some g → ∃ t, ended t 0 ∧ cells t (s.arr.cell f) ∧ turns t { tn with
        rings := tset tn.rings (a.toNat % 8) { g with tail := g.tail + (a.extractLsb' 16 32).toNat } }) ∧
      (c.op = .mldprog → ∃ t, ended t 0 ∧ cells t (s.arr.cell f) ∧ turns t { tn with prog := some r.prog }) ∧
      (c.op = .mzero → ∃ t, ended t 0 ∧ t.arr.turn = s.arr.turn ∧
        cells t (fun tile i j => if a.getLsbD tile then 0 else s.arr.cell f tile i j)) ∧
      (∀ val : Nat → Nat → Nat → Nat, c.mN ≤ 96 → (c.mRings.map (fun x => x.1)).Nodup →
        let q := c.mulRings tn
        let prog := tn.prog.getD []
        ((∃ x, c.op = .mma x) ∧ val = s.arr.mmaCell f r.core c q) ∨ (c.op = .mmax ∧ val = s.arr.recCell f r.core c q mmaxSteps 0 0) ∨
          (c.op = .mrec ∧ val = s.arr.recCell f r.core c q (progSteps prog) ((prog.getD 1 0).extractLsb' 0 32).toNat
            ((prog.getD 1 0).extractLsb' 32 32).toNat) →
        let bad : Prop := ∃ x ∈ c.mRings, ∃ g, tget tn.rings x.1 = some g ∧ s.arr.ringPoison f g (c.mK / 32 * x.2) = true
        ∃ t tn' code, ended t code ∧ (bad → code = 7) ∧ (¬ bad → code = 0) ∧ turns t tn' ∧
          cells t (fun tile i j => if tile = c.mTile ∧ i < c.mM ∧ j < c.mN then val i j (s.arr.cell f tile i j) % 2 ^ 32
            else s.arr.cell f tile i j) ∧
          tn' = { tn with rings := tn'.rings } ∧ ∀ x ∈ c.mRings, ∀ g, tget tn.rings x.1 = some g →
            tget tn'.rings x.1 = some { g with head := g.head + c.mK / 32 * x.2 }) ∧
      (∀ i k off w, c.op = .maccrd i → s.spad c.barge c.b c.rBytes = some (k, off) → s.barge? k = some w → w.st ≠ .ended →
        c.rTy < 8 → c.rTy ≠ 4 → twf 0 w.window = true → ∃ t, ended t 0 ∧ t.arr.turn = s.arr.turn ∧ cells t (s.arr.cell f) ∧
          let size := tyWidth c.rTy / 8
          (∀ row < c.rRows, ∀ col < c.rCols,
            let x := s.arr.cell f c.rTile (c.rRow0 + row) (c.rCol0 + col)
            readTab (t.barge k).window (off + (row * c.rCols + col) * size) size = leBytes size
              (if i = false ∧ c.rTy = 0 ∧ Machine.nanCode fmtF32 x = true then x
               else (convert (if i then 5 else 0) x c.rTy (Rnd.ofCode (a.extractLsb' 24 3).toNat)).code)) ∧
          (∀ p, p < off ∨ off + c.rRows * c.rCols * size ≤ p → tgetD 0 (t.barge k).window p = tgetD 0 w.window p)) ∧
      (∀ b, c.op = .maccwr → s.barge? c.barge = some b → b.st ≠ .ended →
        let e := tgetD {} b.tileTab (c.b.extractLsb' 0 6).toNat
        let tile := (a.extractLsb' 0 3).toNat
        let row0 := (a.extractLsb' 4 7).toNat
        let col0 := (a.extractLsb' 12 7).toNat
        let at_ (i j : Nat) : Nat := e.base + 4 * ((i - row0) * e.cols + (j - col0))
        c.b.toNat < 64 → row0 + e.rows ≤ 128 → col0 + e.cols ≤ 96 → ∃ t code, ended t code ∧ t.arr.turn = s.arr.turn ∧
          (code = 7 ∨ code = 0) ∧ (code = 7 ↔ ∃ k < e.rows * e.cols, b.wordPoison (e.base + 4 * k) = true) ∧
          cells t (fun l i j => if l = tile ∧ row0 ≤ i ∧ i < row0 + e.rows ∧ col0 ≤ j ∧ j < col0 + e.cols
            then (if b.wordPoison (at_ i j) then 0x7FC00000 else leNum (readTab b.window (at_ i j) 4)) else s.arr.cell f l i j)))

/-- 14_array R234, R241: a byte of a ring at a counter value, zero where its granule is poisoned. -/
def Machine.ringByteAt (a : ArraySt) (f : Nat) (r : Ring) (n : Nat) : Byte :=
  let off := r.base + n % r.size
  if tgetD false a.rpoison (f * 2 ^ 15 + off / 64) then 0 else tgetD 0 a.ring (f * 2 ^ 21 + off)

/-- 14_array R235: the code of the element of line `i` at position `k`, in a ring whose groups have `lines` lines of elements of `w` bits. -/
def Machine.ringElement (a : ArraySt) (f : Nat) (r : Ring) (lines w i k : Nat) : Nat :=
  let at_ := r.head + k / 32 * (lines * 4 * w) + i * (4 * w)
  leNum ((List.range (4 * w)).map (fun b => Machine.ringByteAt a f r (at_ + b))) / 2 ^ (k % 32 * w) % 2 ^ w

/-- 02_numbers R25, R29, 14_array R236: a value with the scale byte of its block, if it has one. -/
def Machine.scaledBy (scale : Option Byte) (v : FVal) : FVal :=
  match scale with
  | none => v
  | some b => if b = 255 then .nan else match v with | .fin n m e => .fin n m (e + (b.toNat - 127)) | x => x

/-- 14_array R237: the exact product of two values. -/
def Machine.product : FVal → FVal → FVal
  | .nan, _ => .nan
  | _, .nan => .nan
  | .fin n m e, .fin n' m' e' => .fin (n ^^ n') (m * m') (e + e')
  | .fin n m _, .inf n' => if m = 0 then .nan else .inf (n ^^ n')
  | .inf n, .fin n' m _ => if m = 0 then .nan else .inf (n ^^ n')
  | .inf n, .inf n' => .inf (n ^^ n')

/-- 02_numbers R41, R42: one group of products, from position `k` on, is added into an accumulator, with one rounding; the NaN that
a group makes, and which of two NaNs stays. -/
def Machine.GroupAdds (core k acc : Nat) (p : List FVal) (y : Nat) : Prop :=
  let at_ (t : Nat) : FVal := p.getD t (.fin false 0 0)
  let born (t : Nat) : Nat := 0x7FC00000 + core % 1024 * 4096 + (k + t) % 4096
  let inf (n : Bool) : Nat := if n then 0xFF800000 else 0x7F800000
  let firstInf (t : Nat) (n : Bool) : Prop := at_ t = .inf n ∧ ∀ u < t, ∀ n', at_ u ≠ .inf n'
  let makes (t : Nat) : Prop :=
    (at_ t = .nan ∧ ∀ u < t, at_ u ≠ .nan) ∨
      ((∀ u, at_ u ≠ .nan) ∧ ∃ t0 n, firstInf t0 n ∧ at_ t = .inf (!n) ∧ ∀ u < t, at_ u ≠ .inf (!n))
  let nan := Machine.nanCode fmtF32 acc
  (∀ t, makes t → y = if nan = true ∧ acc % 2 ^ 22 ≤ born t % 2 ^ 22 then acc else born t) ∧
  ((∀ t, ¬ makes t) →
    (nan = true → y = acc) ∧
    (nan = false → ∀ t n, firstInf t n → y = if acc = inf (!n) then born t else inf n) ∧
    (nan = false → (∀ t n, at_ t ≠ .inf n) →
      (Machine.infCode fmtF32 acc = true → y = acc) ∧
      (Machine.infCode fmtF32 acc = false →
        -- in units of 2^-800
        let mag (v : FVal) : Nat := match v with | .fin _ m e => m * 2 ^ (e + 800).toNat | _ => 0
        let q := 2 ^ (Nat.log2 ((p.map mag).foldl max 0) - 60)
        let sum : Int := (p.map (fun v => match v with
          | .fin n _ _ => Machine.signed n (mag v / q * q)
          | _ => 0)).sum
        let minus := decide (sum < 0) || p.all (fun v => match v with | .fin n m _ => n && m == 0 | _ => false)
        let n := Machine.signOf fmtF32 acc
        ∃ fl, Machine.SumIs fmtF32 n minus (Machine.signed n (Machine.magOf 800 fmtF32 acc) + sum) ⟨y, fl⟩)))

/-- 14_array R235 to R239, 02_numbers R41, R42: what a multiply command gives an element. Of INT8 the sum of all products, modulo
2^32; of other types the groups of 32 products in turn, each added by R41; of `MMAX` and `MREC` the accumulator that is left when
the program has run for every position. Codes stand for their values by the model's `tyVal` and `convert`. -/
def Machine.ArrayCells : Prop :=
  (∀ (core k acc : Nat) (p : List FVal), p.length = 32 → acc < 2 ^ 32 → (∀ n m e, FVal.fin n m e ∈ p → -700 ≤ e) →
    Machine.GroupAdds core k acc p (arrayGroup core k acc p)) ∧
  ∀ (a : ArraySt) (f core : Nat) (c : Cmd) (q : MulRings) (i j acc : Nat),
    let x (k : Nat) : Nat := Machine.ringElement a f q.ra c.mM (tyWidth c.mTA) i k
    let y (k : Nat) : Nat := Machine.ringElement a f q.rb c.mN (tyWidth c.mTB) j k
    let scale (r : Option Ring) (lines l g : Nat) : Option Byte :=
      r.map (fun r => Machine.ringByteAt a f r (r.head + g * lines + l))
    (c.mTA = 7 → c.mTB = 7 → (a.mmaCell f core c q i j acc : Int) = (acc +
        ((List.range (c.mK / 32 * 32)).map (fun k => (BitVec.ofNat 8 (x k)).toInt * (BitVec.ofNat 8 (y k)).toInt)).sum) % 2 ^ 32) ∧
    (c.mTA ≠ 7 → ∃ s : Nat → Nat, s 0 = acc ∧ s (c.mK / 32) = a.mmaCell f core c q i j acc ∧
      ∀ g < c.mK / 32, s (g + 1) = arrayGroup core (32 * g) (s g) ((List.range 32).map (fun t =>
        Machine.product (Machine.scaledBy (scale q.sa c.mM i g) (tyVal c.mTA (x (32 * g + t))))
          (Machine.scaledBy (scale q.sb c.mN j g) (tyVal c.mTB (y (32 * g + t))))))) ∧
    ∀ (steps : List Nat) (k0 k1 : Nat), ∃ s : Nat → Cell, s 0 = [acc, 0, 0, 0, 0, k0, k1, 0] ∧
      a.recCell f core c q steps k0 k1 i j acc = (s (c.mK / 32 * 32)).getD 0 0 ∧
      ∀ k < c.mK / 32 * 32,
        let wide (ty e : Nat) : Nat := if ty = 0 then e else (convert ty e 0 ⟨.rne, false⟩).code
        s (k + 1) = steps.foldl (recStep core k) (((s k).set 3 (wide c.mTA (x k))).set 4 (wide c.mTB (y k)))

/-- 14_array R238, R239: a step of a microprogram puts its result in place of its destination; the sources are c, t0, t1, a, b, K0, K1
and +0. A result that is a NaN is, of the NaNs that the registers hold which the step reads, the one with the smallest bits 21:0,
the first of equal ones, else the NaN that the array makes. That a CSEL reads its S3 whichever value it delivers is the model's
reading (notes/assumptions/19.md). -/
def Machine.ProgramSteps : Prop :=
  ∀ (core k : Nat) (v : Cell) (d n1 n2 n3 : Nat), d < 3 → n1 < 8 → n2 < 8 → n3 < 8 → (∀ e ∈ v, e < 2 ^ 32) →
    let x := v.getD n1 0
    let y := v.getD n2 0
    let z := v.getD n3 0
    let nan (x : Nat) : Bool := Machine.nanCode fmtF32 x
    let less : Bool := nan x == false && nan y == false && fpCmp fmtF32 x y == -1
    let result : List Nat := [(fpAdd fmtF32 x y).code, (fpAdd fmtF32 x y true).code, (fpMul fmtF32 x y).code,
      (fpFma fmtF32 false false x y z).code, (fpMinMax fmtF32 true x y).code, (fpMinMax fmtF32 false x y).code, x,
      if less then z else v.getD d 0]
    ∀ op < 8,
      let w := op * 2 ^ 28 + d * 2 ^ 26 + n1 * 2 ^ 23 + n2 * 2 ^ 20 + n3 * 2 ^ 17
      let r := result.getD op 0
      let reads : List Nat := if op = 6 then [n1] else if op = 3 ∨ op = 7 then [n1, n2, n3] else [n1, n2]
      let held := ((reads.filter (fun n => n < 3) ++ if op = 7 ∧ less = false then [d] else []).map (fun n => v.getD n 0)).filter nan
      (nan r = false → recStep core k v w = v.set d r) ∧
      (nan r = true → held = [] → recStep core k v w = v.set d (0x7FC00000 + core % 1024 * 4096 + k % 4096)) ∧
      (nan r = true → ∀ i < held.length,
        (∀ l < held.length, held.getD i 0 % 2 ^ 22 < held.getD l 0 % 2 ^ 22 ∨
          (held.getD i 0 % 2 ^ 22 = held.getD l 0 % 2 ^ 22 ∧ i ≤ l)) →
        recStep core k v w = v.set d (held.getD i 0))

/-- 14_array R232, R243: a turn at its end is released. Its tiles and its window are zero, its claim is gone, and the `MTEND` that
ended it completes. -/
def Machine.TurnsEnd : Prop :=
  ∀ (s : State) (core : Nat) (tn : Turn), tget s.arr.turn core = some tn → s.turnReady core = true →
    tsorted s.arr.acc 0 = true → tsorted s.arr.ring 0 = true →
    let f := flightOf core
    ∃ t, exec (.turnRelease core) s = .next t ∧ t.arr.turn = tdel s.arr.turn core ∧ t.mem = s.mem ∧
      (∀ tile < 8, ∀ i < 128, ∀ j < 96, t.arr.cell f tile i j = if tn.tiles.testBit tile then 0 else s.arr.cell f tile i j) ∧
      (∀ off < 2 ^ 21, tgetD 0 t.arr.ring (ringKey f off) =
        if tn.wbase * 65536 ≤ off ∧ off < (tn.wbase + tn.wsize) * 65536 then 0 else tgetD 0 s.arr.ring (ringKey f off)) ∧
      (∀ n, tn.ending = some n → 0 < n → Machine.newest t (tlKey 1 core) = some ⟨n, 0, 0, 0⟩) ∧
      (tn.ending = none → t.tls = s.tls)

/-- 14_array R230 to R232, R235 to R239, R241 to R250, R252, 02_numbers R41, R42: the array begins and completes its commands, and ends
its turns. -/
def Obligations.ArraySteps : Prop :=
  Machine.ArrayBegins ∧ Machine.ArrayCompletes ∧ Machine.ArrayCells ∧ Machine.ProgramSteps ∧ Machine.TurnsEnd

/-- 12_sluice R203, R215, R216, R180: the sluice begins a command. What came before it is performed at .M, every core's
writes with it, which is the model's choice (notes/assumptions/6.md); its ranges are checked; it holds the cycle and the status that its checks give, 2 for a refused one. -/
def Machine.SluiceBegins : Prop :=
  ∀ (s : State) (f q : Nat) (sc : SCmd), s.slNextOf f q = some sc →
    let d := s.drainAll
    let v := d.slVerdict sc (d.resolve f sc.cmd)
    (sc.refused = true → v = 2) ∧ (v ≠ 2 → v = topStatus (d.resolve f sc.cmd).fails) ∧
    ∃ t, exec (.sluiceCommandBegin f q) s = .next t ∧ t.tls = s.tls ∧ t.barges = s.barges ∧
      Machine.drained s t ∧
      (∃ c, t.findSc f q sc.n = some c ∧ c.begun = true ∧ c.start = s.cycle ∧ c.verdict = v) ∧
      (v ≠ 0 ∨ linkPeer sc.cmd (d.resolve f sc.cmd) = none → t.slu.cmds = tput [] s.slu.cmds f
        ((tgetD [] s.slu.cmds f).map (fun c => if c.q = q ∧ c.n = sc.n
          then { c with begun := true, start := s.cycle, verdict := v, peer := none } else c)))

/-- A byte of memory in a die's view (0), of a window (1) or of ring memory (2). -/
def Machine.cellOf (s : State) (die kind k a : Nat) : Byte :=
  if kind = 0 then s.byteAt die a else if kind = 1 then tgetD 0 (s.barge k).window a else tgetD 0 s.arr.ring (ringKey k a)

/-- The bytes of a command's source ranges, each with its poison (12_sluice R207, R217). -/
def Machine.sourceOf (s : State) (r : Resolved) : List (List PByte) :=
  r.src.map (fun ps => ps.flatMap (fun p => (List.range p.len).map (fun i =>
    if 3 ≤ p.kind then (0, false)
    else (Machine.cellOf s (s.homeDie p.vc p.addr) p.kind p.id (p.addr + i),
      if p.kind = 0 then s.poisonedAt (s.homeDie p.vc p.addr) (p.addr + i) else (s.barge p.id).granPoison (p.addr + i)))))

/-- What a command writes, piece by piece. -/
def Machine.written (s : State) (c : Cmd) (r : Resolved) : List (Piece × List PByte) :=
  (List.zipWith placeBytes r.dst (c.outputs (Machine.sourceOf s r))).flatten

/-- The byte that a piece puts at a place, if any; a poisoned one is zero in a window and in ring memory (12_sluice R217). -/
def Machine.putsAt (e : Piece × List PByte) (kind k a : Nat) : Option Byte :=
  if e.1.kind = kind ∧ e.1.id = k ∧ e.1.addr ≤ a ∧ a < e.1.addr + e.2.length then
    let b := e.2.getD (a - e.1.addr) (0, false)
    some (if kind ≠ 0 ∧ b.2 = true then 0 else b.1)
  else none

/-- Every byte of memory, of the windows and of the rings is the one that a list of pieces puts there last, or stands. -/
def Machine.Lands (s t : State) (w : List (Piece × List PByte)) : Prop :=
  ∀ die < 4, ∀ kind < 3, ∀ k a, (kind = 0 → k = 0) → (kind = 2 → a < 2 ^ 21) →
    Machine.cellOf t die kind k a = (w.reverse.findSome? (fun e => Machine.putsAt e kind k a)).getD (Machine.cellOf s die kind k a)

/-- Every such byte is one that a piece puts there, or stands. -/
def Machine.LandsInPart (s t : State) (w : List (Piece × List PByte)) : Prop :=
  ∀ die < 4, ∀ kind < 3, ∀ k a, (kind = 0 → k = 0) → (kind = 2 → a < 2 ^ 21) →
    Machine.cellOf t die kind k a = Machine.cellOf s die kind k a ∨
      ∃ e ∈ w, Machine.putsAt e kind k a = some (Machine.cellOf t die kind k a)

/-- A command of a sluice has begun; its ranges lie in this module's memory, in windows and in ring memory; no lease holds it
back, and it names no barrier. -/
structure Machine.Going (s : State) (f q n : Nat) (sc : SCmd) : Prop where
  found : s.findSc f q n = some sc
  begun : sc.begun = true
  number : 0 < n
  own : sc.peer = none ∧ sc.resp = none
  bar : s.cmdBar sc.cmd = none
  places : (∀ p ∈ (s.resolve f sc.cmd).all, p.kind ≤ 3 ∧ p.peer = none ∧ (p.kind = 0 → p.id = 0) ∧
    (p.kind = 1 → (s.barge? p.id).isSome) ∧ (p.kind = 2 → p.addr + p.len ≤ 2 ^ 21)) ∧ ∀ p ∈ (s.resolve f sc.cmd).src.flatten, p.kind ≠ 2
  free : s.slWaits f sc (s.resolve f sc.cmd) = [] ∧ s.mem.leaseQ = []
  still : Machine.still s
  forms : s.MemWf ∧ Machine.TablesWf s ∧ tsorted s.mem.poison 0 = true
  running : (∀ e ∈ s.barges, e.2.st ≠ .ended) ∧ s.com.failed = [] ∧ s.hst.tripped = [] ∧ s.hst.events = []

/-- 12_sluice R207 to R211, R215, R217, R221: a command ends. One that its checks at begin have given REFUSED, BOUNDS or ISOLATED
writes nothing. One that nothing fails writes every byte of its destination, the later row over the earlier, and reports
POISON where poison has come with its source, OK else. One that fails later, XLATE, writes some of those bytes: which is open
(notes/assumptions/26.md). `SHINT` changes no byte: WARM allocates the line of a granule, COOL leaves none of the range. The
barrier that a descriptor names counts the bytes down whatever the status, and so does the tile entry of a fill. -/
def Machine.SluiceCompletes : Prop :=
  (∀ (s : State) (f q n : Nat) (sc : SCmd), Machine.Going s f q n sc →
    let c := sc.cmd
    let r := s.resolve f c
    let w := Machine.written s c r
    let v := topStatus (sc.verdict :: r.fails)
    let ended (t : State) (code pgran done : Nat) : Prop := exec (.sluiceCommandComplete f q n) s = .next t ∧
      Machine.newest t (tlKey 0 (f * 16 + q)) = some ⟨n, code, pgran, done⟩ ∧
      t.slu.cmds = tput [] s.slu.cmds f ((tgetD [] s.slu.cmds f).filter (fun c => !(c.q == q && c.n == n)))
    let whole (t : State) : Prop := (∃ g, ended t (if g = 0 then 0 else 5) g c.delivered ∧
        (g = 0 ↔ ∀ e ∈ w, ∀ b ∈ e.2, b.2 = false)) ∧ Machine.Lands s t w ∧
      (∀ g, (∃ e ∈ w, e.1.kind = 0 ∧ ∃ i b, e.2[i]? = some b ∧ b.2 = true ∧ (e.1.addr + i) / 64 = g) →
        ∀ die < 4, t.poisonedAt die (64 * g) = true) ∧
      (∀ g, (∀ e ∈ w, ∀ b ∈ e.2, b.2 = false) → (∀ i < 64, ∃ e ∈ w, (Machine.putsAt e 0 0 (64 * g + i)).isSome) →
        ∀ die < 4, t.poisonedAt die (64 * g) = false) ∧
      (∀ g, (∀ e ∈ w, e.1.kind = 0 → 64 * g + 64 ≤ e.1.addr ∨ e.1.addr + e.1.len ≤ 64 * g) →
        ∀ die < 4, t.poisonedAt die (64 * g) = s.poisonedAt die (64 * g))
    (sc.verdict = 2 ∨ sc.verdict = 4 ∨ sc.verdict = 7 → ∃ t, ended t sc.verdict 0 0 ∧ t.mem = s.mem) ∧
    (c.op ≠ .shint → v = 0 → s.slStalled r = none → ∃ t, whole t) ∧
    (∀ m off p, c.op ≠ .scvt → c.op ≠ .shint → v = 0 → s.slStalled r = none → r.dst = [[p]] → p.kind = 1 → p.id = m → p.addr = off →
      p.len = c.len → ∃ t, whole t ∧
      (c.fedst = 0 → (t.barge m).full = (s.barge m).full) ∧
      (c.fedst ≠ 0 → off % 8 = 0 → c.len % 8 = 0 → tsorted (s.barge m).full 0 = true → (w.map (fun e => e.2.length)).sum = c.len → ∀ p,
        (t.barge m).isFull p = if off / 8 ≤ p / 8 ∧ p / 8 < (off + c.len) / 8 then c.fedst == 1 else (s.barge m).isFull p)) ∧
    (c.op ≠ .shint → v = 3 → sc.verdict = 0 ∨ sc.verdict = 3 → s.slStalled r = none →
      ∃ t g done, ended t 3 g done ∧ Machine.LandsInPart s t w) ∧
    (c.op = .shint → sc.verdict = 0 → r.fails = [] → s.slStalled r = none → ∃ t, ended t 0 0 0 ∧ t.mem = s.mem ∧
      (∀ p v, c.tier = 1 → r.src = [[p]] → p.kind = 0 → p.vc ≠ 0 → tget s.com.vc (p.vc - 1) = some v → v.policy ≠ 4 → v.shares ≠ [] →
        0 < p.len → p.addr % 64 + p.len ≤ 64 → (tget t.com.lines (lineKey v (p.vc - 1) (64 * (p.addr / 64)))).isSome) ∧
      (∀ p v, c.tier = 2 → r.src = [[p]] → p.kind = 0 → p.vc ≠ 0 → tget s.com.vc (p.vc - 1) = some v →
        ∀ e, e ∈ t.com.lines ↔ e ∈ s.com.lines ∧ ¬ (e.1 / 2 ^ 46 + 1 = p.vc ∧ overlaps (lineAddr e.1) v.line p.addr p.len = true)))) ∧
  (∀ (s : State) (f q n : Nat) (sc : SCmd), s.findSc f q n = some sc → sc.begun = true → sc.peer = none →
    sc.verdict = 2 ∨ sc.verdict = 4 ∨ sc.verdict = 7 → (∀ e ∈ s.barges, e.2.st ≠ .ended) →
    let c := sc.cmd
    let t := s.slComplete f q n
    exec (.sluiceCommandComplete f q n) s = .next t ∧
    (∀ m off b, sc.counted = false → s.cmdBar c = some (m, off) → s.barge? m = some b →
      t.barge? m = some (b.barChange off none c.delivered)) ∧
    (∀ b e, sc.counted = true → s.cmdBar c = none → s.barge? c.barge = some b → tget b.tileTab c.tile = some e → e.st = .filling →
      let e' : Tile := { e with filled := e.filled + 1, st := if e.filled + 1 = e.fills then .ready else .filling }
      t.barge? c.barge = some { b with tileTab := tset b.tileTab c.tile e' }))

/-- 12_sluice R207, 02_numbers R26: the bytes that a command puts out. A copy's are its source's, an `SFILL`'s the bytes of PATTERN in turn; a
`SCVT` goes block by block of 32 elements, with a scale byte of each block. -/
def Machine.CommandOutputs : Prop :=
  ∀ (c : Cmd) (src : List (List PByte)),
    (c.op = .scopy ∨ c.op = .scopy2d → c.outputs src = src) ∧
    (c.op = .sfill → c.outputs src =
      [(List.range c.len).map (fun i => ((BitVec.ofNat 64 c.aux0).extractLsb' (8 * (i % 8)) 8, false))]) ∧
    (∀ els, c.op = .scvt → c.sbs = false → c.dbs = false → src = [els] → c.outputs src =
      [(List.range ((c.len + 31) / 32)).flatMap (fun k => (cvtBlock c (min 32 (c.len - 32 * k))
        ((els.drop (4 * tyWidth c.stype * k)).take (4 * tyWidth c.stype)) none).1)]) ∧
    (∀ els scales, c.op = .scvt → c.sbs = true → c.len % 32 = 0 → src = [els, scales] →
      let blocks := (List.range (c.len / 32)).map (fun k =>
        cvtBlock c 32 ((els.drop (4 * tyWidth c.stype * k)).take (4 * tyWidth c.stype)) scales[k]?)
      c.outputs src = blocks.flatMap (fun b => b.1) :: if c.dbs then [blocks.map (fun b => b.2)] else []) ∧
    (∀ els, c.op = .scvt → c.sbs = false → c.dbs = true → c.len % 32 = 0 → src = [els] →
      let blocks := (List.range (c.len / 32)).map (fun k =>
        cvtBlock c 32 ((els.drop (4 * tyWidth c.stype * k)).take (4 * tyWidth c.stype)) none)
      c.outputs src = [blocks.flatMap (fun b => b.1), blocks.map (fun b => b.2)])

/-- 12_sluice R208, R217, 02_numbers R25, R26, R35: a block of a `SCVT`. Its elements are packed in the order of their numbers; without a
scale each is converted, with one its value is taken times 2^(scale - 127) and encoded, over the factor of the new scale where
the destination has scales. A poisoned source makes all of them zero and poisoned. -/
def Machine.ConversionOfABlock : Prop :=
  ∀ (c : Cmd) (cnt : Nat) (src : List PByte) (scale : Option PByte), cnt * tyWidth c.dtype % 8 = 0 →
    let out := cvtBlock c cnt src scale
    let code (j : Nat) : Nat := leNum (src.map (fun b => b.1)) / 2 ^ (j * tyWidth c.stype) % 2 ^ tyWidth c.stype
    let got (j : Nat) : Nat := leNum (out.1.map (fun b => b.1)) / 2 ^ (j * tyWidth c.dtype) % 2 ^ tyWidth c.dtype
    let factor (b : Nat) (v : FVal) : FVal :=
      if b = 255 then .nan else match v with | .fin n m e => .fin n m (e + (b - 127)) | x => x
    let val (j : Nat) : FVal := match scale with
      | some b => factor b.1.toNat (tyVal c.stype (code j))
      | none => tyVal c.stype (code j)
    let new := blockScale ((List.range cnt).map val) c.dtype
    let bad : Prop := (∃ b ∈ src, b.2 = true) ∨ ∃ b, scale = some b ∧ b.2 = true
    out.1.length = cnt * tyWidth c.dtype / 8 ∧
    (bad → ∀ b ∈ out.1, b = (0, true)) ∧
    (¬ bad → (∀ b ∈ out.1, b.2 = false) ∧
      (c.sbs = false → c.dbs = false → ∀ j < cnt, got j = (convert c.stype (code j) c.dtype c.rm).code % 2 ^ tyWidth c.dtype) ∧
      (c.sbs = true → c.dbs = false → ∀ j < cnt, got j = encodeVal (val j) c.dtype c.rm % 2 ^ tyWidth c.dtype) ∧
      (c.dbs = true → out.2 = (BitVec.ofNat 8 new, false) ∧ ∀ j < cnt, got j =
        if new = 255 then 0 else (match val j with
          | .fin n m e => encodeVal (.fin n m (e - (new - 127))) c.dtype c.rm
          | x => encodeVal x c.dtype c.rm) % 2 ^ tyWidth c.dtype))

/-- 02_numbers R35: the scale of a block, for magnitudes in units of 2^-1000: 0xFF where a value is not finite, 0 where all are zero; else the
exponent `x` of R35's rule for E2M1 (8), RL8 (4) or RL6 (9), kept within -127 and 127. -/
def Machine.BlockScales : Prop :=
  ∀ (vs : List FVal) (dst : Nat), dst = 4 ∨ dst = 8 ∨ dst = 9 →
    (((∃ n, .inf n ∈ vs) ∨ .nan ∈ vs) → blockScale vs dst = 255) ∧
    ((∀ v ∈ vs, ∃ n m e, v = .fin n m e ∧ -1000 ≤ e) →
      let mag (v : FVal) : Nat := match v with | .fin _ m e => m * 2 ^ (e + 1000).toNat | _ => 0
      let top := (vs.map mag).foldl max 0
      (top = 0 → blockScale vs dst = 0) ∧
      (∀ x : Int, -900 ≤ x →
        (if dst = 8 then 2 ^ (x + 1002).toNat ≤ top ∧ top < 2 ^ (x + 1003).toNat
         else if dst = 4 then 15 * 2 ^ (x + 996).toNat < top ∧ top ≤ 15 * 2 ^ (x + 997).toNat
         else 7 * 2 ^ (x + 997).toNat < top ∧ top ≤ 7 * 2 ^ (x + 998).toNat) →
        blockScale vs dst = (max (-127) (min x 127) + 127).toNat))

/-- 12_sluice R215, R218, R219: a command whose source does not answer within its time isolates that host or expander and completes
TIMEOUT, each byte of its destination old or new. Which bytes, and so DONE, is open (notes/assumptions/26.md). -/
def Machine.SluiceTimeouts : Prop :=
  ∀ (s : State) (f q n : Nat) (sc : SCmd), Machine.Going s f q n sc →
    let r := s.resolve f sc.cmd
    (∀ tgt, sc.verdict = 0 → r.fails = [] → sc.cmd.op ≠ .shint → s.slStalled r = some tgt → tgt < 0x300 →
      sc.start + 2 ^ sc.tout * 3000 ≤ s.cycle →
      ∃ t g done, exec (.sluiceTimeout f q n) s = .next t ∧ Machine.newest t (tlKey 0 (f * 16 + q)) = some ⟨n, 6, g, done⟩ ∧
        tgetD false t.slu.isolated tgt = true ∧ Machine.LandsInPart s t (Machine.written s sc.cmd r)) ∧
    (s.cycle < sc.start + 2 ^ sc.tout * 3000 → exec (.sluiceTimeout f q n) s = .next s)

/-- 12_sluice R203, R207 to R211, R215 to R219, R221, 02_numbers R25, R26, R35: the sluice begins, completes and times out its commands. -/
def Obligations.SluiceSteps : Prop :=
  Machine.SluiceBegins ∧ Machine.SluiceCompletes ∧ Machine.CommandOutputs ∧ Machine.ConversionOfABlock ∧ Machine.BlockScales ∧
    Machine.SluiceTimeouts

/-- No barge holds a lease and no request waits for one. -/
def Machine.noLeases (s : State) : Prop := (∀ e ∈ s.barges, e.2.leases = []) ∧ s.mem.leaseQ = []

/-- 16_composer R260, R262, R266 to R269, R271, R272, R274: the composer takes the first command of a virtual cache, with every effect before it
performed at .M. One with a status but OK completes with it and changes nothing else, DENIED where the cache is another
partition's. `CDEF` takes the shares asked for, `CPLACE` the placement; `CRSZ` takes or gives shares, and of a cache with lines begins
the walk, which completes it; `CDROP` begins to drop, then frees the shares and the VCID. -/
def Machine.ComposerCommandSteps : Prop :=
  ∀ (s : State) (vcid n : Nat) (c : Cmd) (rest : List (Nat × Cmd)), tgetD [] s.com.queue vcid = (n, c) :: rest →
    (∀ v, tget s.com.vc vcid = some v → v.state ≠ 2) → s.comStopped (tget s.com.vc vcid) (some c) = false → 0 < n →
    s.coreWaits c.barge c.core = false →
    let st := s.comStatus vcid c
    let part := (s.ctx c.ctx).partition
    let left := tput [] s.com.queue vcid rest
    let steps (t : State) : Prop := exec (.composerCommandComplete vcid) s = .next t
    let ended (t : State) (code : Nat) : Prop := steps t ∧ Machine.newest t (tlKey 2 vcid) = some ⟨n, code, 0, 0⟩ ∧ t.com.queue = left
    let taken (v : VCache) (k : Nat) : List Nat := (s.freeShares v.die v.place.toNat).take k
    (∀ v, tget s.com.vc vcid = some v → v.owner ≠ part → st = 3) ∧
    (st ≠ 0 → ∃ t, ended t st ∧ t.com = { s.com with queue := left } ∧ t.mem = s.mem.drain) ∧
    (∀ v, st = 0 → c.op = .cplace → tget s.com.vc vcid = some v →
      ∃ t, ended t 0 ∧ t.com.vc = tset s.com.vc vcid { v with place := c.b }) ∧
    (∀ v, st = 0 → c.op = .cdrop → tget s.com.vc vcid = some v →
      (v.state = 1 → ∃ t, steps t ∧ t.com = { s.com with vc := tset s.com.vc vcid { v with state := 3 } } ∧ t.tls = s.tls) ∧
      (v.state = 3 → Machine.noLeases s → tsorted s.com.share 0 = true → ∃ t, ended t 0 ∧ t.com.vc = tdel s.com.vc vcid ∧
        (∀ e ∈ t.com.lines, e.1 / 2 ^ 46 ≠ vcid) ∧
        (∀ k ∈ v.shares, tgetD 0 s.com.share (shareKey v.die k) = vcid + 1 → tgetD 0 t.com.share (shareKey v.die k) = 0) ∧
        (v.policy = 4 → ∀ die < 4, ∀ a, inWindow vcid (a / 64) = true → t.byteAt die a = 0))) ∧
    (st = 0 → c.op = .cdef →
      let w0 := c.args.getD 0 0
      let die := (w0.extractLsb' 10 2).toNat
      let k := (w0.extractLsb' 32 13).toNat
      let l := (s.freeShares die (c.args.getD 2 0).toNat).take k
      l.length = k ∧ ∃ t v, ended t 0 ∧ tget t.com.vc vcid = some v ∧ v.shares = l ∧ v.owner = part ∧ v.state = 1 ∧ v.defw = w0 ∧
        (∀ x ∈ l, tgetD 0 t.com.share (shareKey die x) = vcid + 1)) ∧
    (∀ v, st = 0 → c.op = .crsz → tget s.com.vc vcid = some v →
      let m := (c.a.extractLsb' 16 13).toNat
      let k := v.shares.length
      (m = k → ∃ t, ended t 0 ∧ t.com.vc = s.com.vc) ∧
      (m ≠ k → v.policy = 4 → (taken v (m - k)).length = m - k ∧ ∃ t v', ended t 0 ∧ tget t.com.vc vcid = some v' ∧
        v'.shares = v.shares ++ taken v (m - k) ∧ v'.state = 1) ∧
      (m ≠ k → v.policy ≠ 4 → ∃ t v', steps t ∧ t.tls = s.tls ∧ t.com.queue = s.com.queue ∧ tget t.com.vc vcid = some v' ∧
        v'.state = 2 ∧ v'.old = v.shares ∧ v'.crszN = n ∧
        v'.shares = (if k < m then v.shares ++ taken v (m - k) else v.shares.take m) ∧
        t.com.lines = s.com.lines.map (fun e => if e.1 / 2 ^ 46 = vcid then (e.1, { e.2 with moved := false }) else e)))

/-- 16_composer R270, 10_core_faults R192: what `CFLUSH`, or `CINVAL` (`drop`), of a range of a context leaves of a virtual cache, from
state `s`. Of a cache that is not direct the lines that hold a byte of the range, as the context names it, are clean, or gone, and so
are the L1 copies of its granules in M, or all of them, those of instruction caches too; no byte changes but those of `other`. Where
an L1 holds such a granule in M, its write-back is a write at the home, which may allocate a line first (R263); where none does, no
other line changes. `CINVAL` of a direct cache zeroes the granules that the
range holds whole and that the context may write (18_mapping R290). -/
def Machine.Upkeep (s t : State) (ctx vcid base len : Nat) (v : VCache) (drop : Bool) (other : Nat → Prop) : Prop :=
  let d := s.drainAll
  let has (g : Nat) : Prop := 0 < len ∧ ∃ va ∈ d.namedAt v.die ctx vcid g false, va < base + len ∧ base < va + 64
  let whole (g : Nat) : Prop := ∃ va ∈ d.namedAt v.die ctx vcid g true, base ≤ va ∧ va + 64 ≤ base + len
  let l1 (core g : Nat) : Option L1St := tget t.mem.l1 (core * 2 ^ 46 + g)
  (v.policy ≠ 4 → tsorted s.com.lines 0 = true → (∀ die a, ¬ other a → t.byteAt die a = d.byteAt die a) ∧
    (∀ pa, pa < 2 ^ 52 → (∃ g ∈ lineGrans v (lineKey v vcid pa), has g) →
      ∀ l, tget t.com.lines (lineKey v vcid pa) = some l → drop = false ∧ l.dirty = false) ∧
    (drop = true → ∀ core g, has g → g ∉ tgetD [] t.mem.icache core) ∧
    (∀ pa l, pa < 2 ^ 52 → (∀ e ∈ s.mem.l1, e.2 = .m → d.flushes ctx vcid base len v (e.1 % 2 ^ 46) = false) →
      tget s.com.lines (lineKey v vcid pa) = some l →
      ((∃ g ∈ lineGrans v (lineKey v vcid pa), has g) → tget t.com.lines (lineKey v vcid pa) =
        if drop then none else some { l with dirty := false }) ∧
      ((∀ g ∈ lineGrans v (lineKey v vcid pa), ¬ has g) → tget t.com.lines (lineKey v vcid pa) = some l)) ∧
    (∀ core g, g < 2 ^ 46 → has g → (drop = true → l1 core g = none) ∧ l1 core g ≠ some .m)) ∧
  (v.policy = 4 → drop = true → ∀ die < 4, ∀ a, ¬ other a →
    (whole (a / 64) → t.byteAt die a = 0) ∧ (¬ whole (a / 64) → t.byteAt die a = d.byteAt die a))

/-- 16_composer R270, 08_core_memory R163, 18_mapping R290: the composer performs a `CFLUSH` or a `CINVAL` (`drop`); of a VCID that is not defined nothing changes. -/
def Machine.ComposerUpkeep : Prop :=
  ∀ (s : State) (vcid n : Nat) (c : Cmd) (rest : List (Nat × Cmd)) (drop : Bool), tgetD [] s.com.queue vcid = (n, c) :: rest →
    c.op = (if drop then .cinval else .cflush) → s.comStatus vcid c = 0 → vcid = (c.a.extractLsb' 54 10).toNat → 0 < n → s.MemWf →
    s.comStopped (tget s.com.vc vcid) (some c) = false → Machine.noLeases s → s.coreWaits c.barge c.core = false →
    let ended (t : State) : Prop := exec (.composerCommandComplete vcid) s = .next t ∧
      Machine.newest t (tlKey 2 vcid) = some ⟨n, 0, 0, 0⟩ ∧ t.com.vc = s.com.vc
    (tget s.com.vc vcid = none → ∃ t, ended t ∧ t.com.lines = s.com.lines ∧ t.mem = s.mem.drain) ∧
    (∀ v, tget s.com.vc vcid = some v → v.state ≠ 2 →
      ∃ t, ended t ∧ Machine.Upkeep s t c.ctx vcid (c.a.extractLsb' 0 48).toNat c.b.toNat v drop (fun _ => False))

/-- 16_composer R274, R275, 08_core_memory R163: the walk of a resize moves a line and changes no byte; when all have moved, the shares
given up are free and the `CRSZ` completes. To a line with a leased granule it sends a probe for each such granule, which waits in the
order of arrival, and the line moves as the last is served. -/
def Machine.ResizeSteps : Prop :=
  (∀ (s : State) (vcid key : Nat) (v : VCache) (l : Line), tget s.com.vc vcid = some v → s.walkLine vcid = some (key, l) →
    s.linePinned v key = true → exec (.resizeLineMove vcid) s = .next { s with mem := { s.mem with
      leaseQ := s.mem.leaseQ ++ ((lineGrans v key).filter s.granLeased).map (LeaseReq.probe vcid) } }) ∧
  (∀ (s : State) (vcid g : Nat) (v : VCache) (l : Line), tget s.com.vc vcid = some v →
    let key := lineKey v vcid (64 * g)
    tget s.com.lines key = some l →
    s.serveReq (.probe vcid g) =
      if v.state = 2 ∧ l.moved = false ∧ s.linePinned v key = false then s.shiftLine vcid v key l else s) ∧
  (∀ (s : State) (vcid key : Nat) (v : VCache) (l : Line), tget s.com.vc vcid = some v → s.walkLine vcid = some (key, l) →
    s.linePinned v key = false → v.shares ≠ [] → ∃ t l', exec (.resizeLineMove vcid) s = .next t ∧ tget t.com.lines key = some l' ∧ l'.moved = true ∧ l'.rank = l.rank ∧
      (l.dirty = true → l'.dirty = true) ∧ (∀ die a, t.byteAt die a = s.byteAt die a) ∧ t.com.vc = s.com.vc ∧ t.tls = s.tls) ∧
  (∀ (s : State) (vcid n : Nat) (c : Cmd) (rest : List (Nat × Cmd)) (v : VCache), tget s.com.vc vcid = some v → v.state = 2 →
    s.dieStopped v.die = false → tgetD [] s.com.queue vcid = (n, c) :: rest → tsorted s.com.share 0 = true →
    (s.walked vcid = false → exec (.composerCommandComplete vcid) s = .next s) ∧
    (s.walked vcid = true → ∃ t, exec (.composerCommandComplete vcid) s = .next t ∧
      t.com.vc = tset s.com.vc vcid { v with old := [], state := 1, crszN := 0 } ∧
      (∀ k ∈ v.old, k ∉ v.shares → tgetD 0 s.com.share (shareKey v.die k) = vcid + 1 → tgetD 0 t.com.share (shareKey v.die k) = 0) ∧
      (v.crszN ≠ 0 → 0 < n → Machine.newest t (tlKey 2 vcid) = some ⟨n, 0, 0, 0⟩ ∧ t.com.queue = tput [] s.com.queue vcid rest) ∧
      (v.crszN = 0 → t.tls = s.tls ∧ t.com.queue = s.com.queue)))

/-- 16_composer R277: a share that its bank reports is withdrawn. Another takes its place in a direct cache; a cache with lines gives it
up and begins a walk. -/
def Machine.ShareFaults : Prop :=
  ∀ (s : State) (die k : Nat), die < 4 → k < 6400 →
    let key := shareKey die k
    (tgetD 0 s.com.share key = 2000 → exec (.bankShareFault die k) s = .next s) ∧
    (tgetD 0 s.com.share key = 0 → s.hst.events = [] → exec (.bankShareFault die k) s = .next
      { s with com := { s.com with share := tput 0 s.com.share key 2000 } }) ∧
    (∀ id v, id < 1024 → tgetD 0 s.com.share key = id + 1 → tget s.com.vc id = some v → s.hst.events = [] →
      (∀ z, v.policy = 4 → (s.markShares die 2000 [k]).spareShare die v.place.toNat = some z →
        ∃ t, exec (.bankShareFault die k) s = .next t ∧ t.com.vc = tset s.com.vc id
          { v with shares := v.shares.map (fun x => if x = k then z else x), faults := min 255 (v.faults + 1) }) ∧
      (v.policy ≠ 4 → v.state = 1 → v.old = [] → k ∈ v.shares → v.shares.Nodup →
        ∃ t v', exec (.bankShareFault die k) s = .next t ∧ tget t.com.vc id = some v' ∧ v'.state = 2 ∧
          v'.faults = min 255 (v.faults + 1) ∧ v'.shares.Perm (v.shares.erase k) ∧ tgetD 0 t.com.share key = 2000 ∧
          t.tls = s.tls))

/-- 16_composer R260, R262, R266 to R272, R274, R277, 08_core_memory R163: the composer's steps. -/
def Obligations.ComposerSteps : Prop :=
  Machine.ComposerCommandSteps ∧ Machine.ComposerUpkeep ∧ Machine.ResizeSteps ∧ Machine.ShareFaults

/-- 18_mapping R288, R294 to R296, R306: the mapping engine takes a context's next `SEND`, `MAP` or `GRANT`. One with a status but OK
completes with it and changes no node and no channel; an accepted `SEND` queues its message; a `MAP` of one piece makes its
node; a `GRANT` of one piece moves the node, or splits it and moves the lower part, and completes only when the leases on it
have ended. -/
def Machine.MappingItems : Prop :=
  ∀ (s : State) (ctx n : Nat) (c : Cmd) (rest : List (Nat × Cmd)), tgetD [] s.map.queue ctx = (n, c) :: rest →
    s.mapBusy ctx n = false → s.coreWaits c.barge c.core = false → 0 < n → c.ctx = ctx → c.op = .send ∨ c.op = .map ∨ c.op = .grant →
    let ended (t : State) (code : Nat) : Prop :=
      exec (.mappingCommandBegin ctx) s = .next t ∧ Machine.newest t (tlKey 3 ctx) = some ⟨n, code, 0, 0⟩ ∧
        t.map.queue = tput [] s.map.queue ctx rest
    let it := itemOf c.args
    (s.itemStatus c ≠ 0 →
      ∃ t, ended t (s.itemStatus c) ∧ t.map.nodes = s.map.nodes ∧ t.map.chans = s.map.chans ∧ t.map.seq = s.map.seq) ∧
    (∀ e, s.itemStatus c = 0 → s.endpoint ctx c.a = some e → (s.chan e.chan).waiters = [] →
      let sent (t : State) (kind : Nat) : Prop := (t.chan e.chan).queue = (s.chan e.chan).queue ++ [⟨c.args, e.badge, kind, 0⟩]
      (c.op = .send → ∃ t, ended t 0 ∧ sent t 0 ∧ t.map.nodes = s.map.nodes) ∧
      (∀ p, (s.coverOf ctx it.svgn it.count).1 = [p] →
        let old := s.node p.key
        (c.op = .map → ∃ t, ended t 0 ∧ t.map.seq = s.map.seq + 1 ∧ sent t 3 ∧
          t.map.nodes = tset s.map.nodes (lowestFree s.map.nodes 44)
            { vgn := it.dvgn, ctx := e.tctx, vcid := some it.vcid, pgn := old.pgn + p.off, count := p.cnt, parent := p.key
              stamp := s.map.seq + 1, r := it.rights.testBit 0, w := it.rights.testBit 1, x := it.rights.testBit 2 }) ∧
        (c.op = .grant → p.off = 0 → (∀ f ∈ s.map.nodes, f.2.parent ≠ p.key) → tget s.map.nodes p.key = some old →
          tsorted s.map.nodes 0 = true → ∃ t q, exec (.mappingCommandBegin ctx) s = .next t ∧ t.tls = s.tls ∧
          t.map.queue = s.map.queue ∧ t.map.seq = s.map.seq + 1 ∧ sent t 4 ∧
          t.map.pending = s.map.pending ++ [q] ∧ q.ctx = ctx ∧ q.n = n ∧ q.free = [] ∧ (∀ k, k ∈ q.nodes ↔ k = p.key) ∧
          q.deadline = s.cycle + s.map.tlease ∧
          let moved : Node := { old with
            ctx := e.tctx, vgn := it.dvgn, vcid := some it.vcid, stamp := s.map.seq + 1, count := p.cnt
            r := it.rights.testBit 0, w := it.rights.testBit 1, x := it.rights.testBit 2 }
          tget t.map.nodes p.key = some moved ∧
          (p.cnt = old.count → ∀ j, j ≠ p.key → tget t.map.nodes j = tget s.map.nodes j) ∧
          (p.cnt < old.count →
            let j := lowestFree s.map.nodes 44
            tget t.map.nodes j = some { old with
              vgn := old.vgn + p.cnt, pgn := old.pgn + p.cnt, count := old.count - p.cnt, stamp := s.map.seq + 1 } ∧
            ∀ i, i ≠ p.key → i ≠ j → tget t.map.nodes i = tget s.map.nodes i))))

/-- 18_mapping R297, R306, R310: `UNMAP` makes the nodes derived from its range withdrawing, `UNMAPX` (`ex`) the covered nodes too, and
completes only when they are free; a status but OK ends it with no node changed. -/
def Machine.MappingWithdrawals : Prop :=
  ∀ (s : State) (ctx n : Nat) (c : Cmd) (rest : List (Nat × Cmd)) (ex : Bool), tgetD [] s.map.queue ctx = (n, c) :: rest →
    s.mapBusy ctx n = false → s.coreWaits c.barge c.core = false → 0 < n → c.ctx = ctx → c.op = (if ex then .unmapx else .unmap) →
    let l := (s.coverOf ctx (c.a.toNat / 4096) c.b.toNat).1
    let below := s.derived l
    let ended (t : State) (code : Nat) : Prop :=
      exec (.mappingCommandBegin ctx) s = .next t ∧ Machine.newest t (tlKey 3 ctx) = some ⟨n, code, 0, 0⟩ ∧
        t.map.queue = tput [] s.map.queue ctx rest ∧ t.map.nodes = s.map.nodes
    (s.unmapStatus c ex ≠ 0 → ∃ t, ended t (s.unmapStatus c ex)) ∧
    (s.unmapStatus c ex = 0 → ex = false → below = [] → ∃ t, ended t 0 ∧ t.map.seq = s.map.seq) ∧
    (∀ gone : List Nat, s.unmapStatus c ex = 0 → (ex = true → ∀ p ∈ l, p.off = 0 ∧ p.cnt = (s.node p.key).count) →
      gone ≠ [] → (∀ k, k ∈ gone ↔ k ∈ below ∨ (ex = true ∧ ∃ p ∈ l, p.key = k)) → (∀ k ∈ gone, s.confidential (s.node k).ctx = false) →
      ∃ t q, exec (.mappingCommandBegin ctx) s = .next t ∧ t.tls = s.tls ∧ t.map.queue = s.map.queue ∧
        t.map.seq = s.map.seq + 1 ∧
        t.map.nodes = s.map.nodes.map (fun e => if gone.contains e.1 then (e.1, { e.2 with st := .withdrawing }) else e) ∧
        t.map.pending = s.map.pending ++ [q] ∧ q.ctx = ctx ∧ q.n = n ∧ (∀ k, k ∈ q.free ↔ k ∈ gone) ∧ (∀ k, k ∈ q.nodes ↔ k ∈ gone) ∧
        q.deadline = s.cycle + s.map.tlease)

/-- 18_mapping R299, R301 to R303, R306: `REPLY`, `EPDROP` and `CHBIND`. A reply to a call wakes the caller with the replier's six words in s1 to
s6 and a receipt of KIND 5, whose BADGE is open (notes/assumptions/14.md); one to a fault restarts or ends its barge; a token that
the context may not answer gives 12. That a token with a bit of 63:32 set is refused (2), not unknown, and that `CHBIND` tests
no context but the one that s[a] names, are the model's reading (notes/assumptions/22.md). -/
def Machine.RepliesAndBindings : Prop :=
  ∀ (s : State) (ctx n : Nat) (c : Cmd) (rest : List (Nat × Cmd)), tgetD [] s.map.queue ctx = (n, c) :: rest →
    s.mapBusy ctx n = false → s.coreWaits c.barge c.core = false → 0 < n → c.ctx = ctx →
    let ended (t : State) (code : Nat) : Prop :=
      exec (.mappingCommandBegin ctx) s = .next t ∧ Machine.newest t (tlKey 3 ctx) = some ⟨n, code, 0, 0⟩ ∧
        t.map.queue = tput [] s.map.queue ctx rest
    let tok := c.a.toNat
    (c.op = .reply →
      (2 ^ 32 ≤ tok → ∃ t, ended t 2 ∧ t.barges = s.barges) ∧
      (tok < 2 ^ 32 → (∀ k, tget s.map.tokens tok = some k → k.receiver ≠ some ctx) → ∃ t, ended t 12 ∧ t.barges = s.barges) ∧
      (∀ k, tok < 2 ^ 32 → tget s.map.tokens tok = some k → k.receiver = some ctx →
        (k.isFault = true →
          (s.drainAll.replyFault k.barge c.args = none → ∃ t, ended t 12 ∧ t.barges = s.barges) ∧
          (∀ u, s.drainAll.replyFault k.barge c.args = some u → ∃ t, exec (.mappingCommandBegin ctx) s = .next t ∧ t.barges = u.barges ∧
            t.map.tokens = tdel u.map.tokens tok)) ∧
        (∀ b w pc h wb off six y since waited site, k.isFault = false → s.barge? k.barge = some b →
          b.held = some ⟨pc, .call h wb off six y, since, waited, site⟩ → s.barge? wb = some w → twf 0 w.window = true → ∃ t b', ended t 0 ∧
          t.map.tokens = tdel s.map.tokens tok ∧ t.barge? k.barge = some b' ∧ b'.held = none ∧ b'.sreg = carryTab c.args ∧
          b'.carry = c.args ∧ readTab (t.barge wb).window off 8 = leBytes 8 (5 * 2 ^ 32)))) ∧
    (c.op = .epdrop →
      (∀ e, s.endpoint ctx c.a = some e → ∃ t, ended t 0 ∧ t.map.eps = tset s.map.eps (epKey ctx (tok % 1024))
        { e with valid := false, gen := (e.gen + 1) % 65536 }) ∧
      (s.endpoint ctx c.a = none → ∃ t, ended t 3 ∧ t.map.eps = s.map.eps)) ∧
    (c.op = .chbind → tok = ctx → ctx < 4096 → c.b.toNat < 65536 → (s.ctx ctx).st = .live →
      ∃ t, ended t 0 ∧ t.map.ctxs = tset s.map.ctxs ctx { s.ctx ctx with super := some c.b.toNat })

/-- 18_mapping R307, R310, 10_core_faults R187, 21_host R362: a grant or withdrawal completes, a context that was dying is free and its key gone,
and the oldest fault message held for room enters its channel. -/
def Machine.MappingCompletions : Prop :=
  (∀ (s : State) (ctx n : Nat) (c : Cmd) (rest : List (Nat × Cmd)) (p : Pending), s.mapDone ctx = some p → p.zero = [] →
    tgetD [] s.map.queue ctx = (n, c) :: rest → 0 < n →
    ∃ t, exec (.mappingCommandComplete ctx) s = .next t ∧ t.map.nodes = p.free.foldl tdel s.map.nodes ∧
      t.map.pending = s.map.pending.erase p ∧ Machine.newest t (tlKey 3 ctx) = some ⟨n, 0, 0, 0⟩ ∧ Machine.drained s t) ∧
  (∀ (s : State) (ctx : Nat) (p : Pending), s.ctxDone ctx = some p →
    ∃ t, exec (.contextFree ctx) s = .next t ∧ t.map.nodes = p.free.foldl tdel s.map.nodes ∧
      t.map.ctxs = tput {} s.map.ctxs ctx { s.ctx ctx with st := .free } ∧ t.tru.keys = tdel s.tru.keys ctx) ∧
  (∀ (s : State) (chan : Nat) (h : HeldFault) (rest : List HeldFault), (s.chan chan).heldFaults = h :: rest →
    (∀ x ∈ h :: rest, s.stillBound chan x = true) →
    (64 ≤ (s.chan chan).queue.length → exec (.heldFaultQueue chan) s = .next s) ∧
    ((s.chan chan).queue.length < 64 → (s.chan chan).waiters = [] → ∃ t, exec (.heldFaultQueue chan) s = .next t ∧
      (t.chan chan).queue = (s.chan chan).queue ++ [h.msg] ∧ (t.chan chan).heldFaults = rest ∧ t.barges = s.barges))

/-- 10_core_faults R197, 18_mapping R311: a core or an engine gives up the translations that it is asked for, a core's regions that used
one abort, then it acknowledges, with what was released performed at .M. -/
def Machine.Shootdowns : Prop :=
  ∀ (s : State) (core : Nat),
    let l := s.asked core
    let kept := tput [] s.mem.tcache core ((tgetD [] s.mem.tcache core).filter (fun e => !l.contains e.key))
    ((∀ e ∈ s.barges, e.2.core = core → e.2.st = .resident → ∀ k ∈ e.2.used, k ∉ l) →
      exec (.shootdown core) s = .next { s with mem := { s.mem with tcache := kept } }) ∧
    (∀ k b, s.barge? k = some b → b.commit = none → b.core = core → b.st = .resident → (∃ j ∈ b.used, j ∈ l) → tsorted s.barges 0 = true →
      s.mem.leaseQ = [] → (∀ e ∈ s.barges, Machine.noCommands e.2) →
      ∃ t, exec (.shootdown core) s = .next t ∧ t.barge? k = some b.restart ∧ t.mem = { s.mem with tcache := kept }) ∧
    (s.mayAck core = true → ∃ t, exec (.shootdownAck core) s = .next t ∧ Machine.drained s t ∧ t.map =
      { s.map with pending := s.map.pending.map (fun p => { p with parties := p.parties.filter (fun x => x != core) }) }) ∧
    (s.mayAck core = false → exec (.shootdownAck core) s = .next s)

/-- 18_mapping R288, R294 to R297, R299, R301 to R303, R306, R307, R310, R311, 10_core_faults R187, R197, 21_host R362: the mapping engine's steps. -/
def Obligations.MappingSteps : Prop :=
  Machine.MappingItems ∧ Machine.MappingWithdrawals ∧ Machine.RepliesAndBindings ∧ Machine.MappingCompletions ∧ Machine.Shootdowns

/-- 20_wharf R335, R339 to R341, R343: a die's stage dispatches the barge it has chosen to the core it has chosen, in the first free
slot, to start at its record, a held operation behind those that wait already; that the die of the new core then sees what the
barge saw at its old one is the model's reading (notes/assumptions/6.md); at the end of a weir period what was served becomes what is reported and at most four
flights begin to move; a flight that its donor has left joins the receiver's cut; at a slot boundary every resident
barge that is not eligible in the new slot is asked to leave. -/
def Obligations.WharfSteps : Prop :=
  (∀ (s : State) (die k p ch core : Nat) (b : Barge), s.dieStopped die = false → p ≤ 7 →
    (∀ p', p < p' → p' ≤ 7 → s.pickAt die false p' = none) → s.pickAt die false p = some (k, ch) → s.barge? k = some b →
    b.gang = 0 → s.together k = [k] → s.choosePlace k b (coresOf die) = some core →
    s.allowed k b core = true ∧ dieOf core = die ∧ ∃ t, exec (.slotDispatch die) s = .next t ∧
      t.barge? k = some { b.restart with
        st := .resident, ran := true, kept := false, core := core, slot := (s.freeSlots core).headD 0
        held := b.held.map (fun h => { h with since := s.whf.readySeq }) } ∧
      (∀ j, j ≠ k → t.barge? j = s.barge? j) ∧
      t.whf = { s.whf with ptr := tput 0 s.whf.ptr (die * 8 + p) ch, readySeq := s.whf.readySeq + 1 } ∧
      t.mem = if b.ran then s.mem.follow b.core core else s.mem) ∧
  (∀ (s : State) (die : Nat), tgetD 65536 s.whf.nextWeir die ≤ s.cycle →
    ∃ t, exec (.weirPeriod die) s = .next t ∧ t.mem = s.mem ∧
      t.whf.nextWeir = tput 65536 s.whf.nextWeir die (tgetD 65536 s.whf.nextWeir die + 65536) ∧
      t.whf.served = s.whf.served.filter (fun e => e.1 % 4 != die) ∧ t.whf.moves.length ≤ s.whf.moves.length + 4 ∧
      (s.whf.tenants = [] → t.whf.cut = s.whf.cut ∧ t.whf.moves = s.whf.moves ∧ t.barges = s.barges)) ∧
  (∀ (s : State) (die : Nat), s.cycle < tgetD 65536 s.whf.nextWeir die → s.urgent die = none →
    exec (.weirPeriod die) s = .next s) ∧
  (∀ (s : State) (f : Nat) (m : Move), s.joinable f = some m →
    ∃ t, exec (.flightJoin f) s = .next t ∧ t.whf =
      { s.whf with cut := tput 0 s.whf.cut f (m.dst + 1), moves := s.whf.moves.erase m } ∧ t.barges = s.barges ∧ Machine.drained s t) ∧
  (∀ (s : State), s.slotAt s.now ≠ s.whf.curSlot → tsorted s.barges 0 = true →
    ∃ t, exec .slotBoundary s = .next t ∧ t.whf = { s.whf with curSlot := s.slotAt s.now } ∧ t.mem = s.mem ∧
      ∀ k b, s.barge? k = some b → b.st = .resident → s.eligibleIn (s.ctx b.ctx).partition (s.slotAt s.now) = false →
        t.barge? k = some { b with preempt := true, kept := false }) ∧
  (∀ (s : State), s.slotAt s.now = s.whf.curSlot → exec .slotBoundary s = .next s)

/-! ## The steps of the host edge, the security core and the links -/

/-- `P` of each request packet's step and its TYPE, an ADMIN packet's as 100 + its subcode (21_host R353, R359). -/
def Machine.OnPackets (port q : Nat) (P : Instr → Nat → Prop) : Prop :=
  P (.dispatch port q) 1 ∧ P (.dispatchg port q) 2 ∧ P (.order port q) 3 ∧ P (.maint port q) 4 ∧ P (.ctxcreate port q) 101 ∧
  P (.ctxdestroy port q) 102 ∧ P (.bindq port q) 103 ∧ P (.resetq port q) 104 ∧ P (.unbindq port q) 105 ∧
  P (.setlimit port q) 106 ∧ P (.tenant port q) 107 ∧ P (.slotset port q) 108 ∧ P (.epset port q) 109 ∧ P (.chown port q) 110 ∧
  P (.unisolate port q) 111 ∧ P (.bias port q) 112 ∧ P (.intrset port q) 113 ∧ P (.evring port q) 114 ∧ P (.inject port q) 115 ∧
  P (.peerset port q) 116 ∧ P (.exportOp port q) 117

/-- 21_host R351, R360: a write of the notify page sets a queue's TAIL, or is ignored. A TAIL that runs round the ring over unread
entries has a whole ring of them consumed, before those up to it: how many, and that they are read in the queue's turns, is the
model's reading (notes/assumptions/25.md). -/
def Machine.NotifyPage : Prop :=
  ∀ (s : State) (port q size : Nat) (v : Word), q < 64 →
    let qi := port * 64 + q
    let h := s.hq qi
    let ring := 2 ^ h.logsize
    let tail := v.toNat % ring
    let round : Prop := ring ≤ (h.tail + ring - h.head) % ring + (tail + ring - h.tail) % ring
    (s.tru.verified = true → size = 8 → h.bound = true → v.toNat < 65536 →
      (¬ round → exec (.notifyWrite port (64 * q) size v) s = .next
        { s with hst := { s.hst with queues := tset s.hst.queues qi { h with tail := tail } } }) ∧
      (round → exec (.notifyWrite port (64 * q) size v) s = .next
        { s with hst := { s.hst with queues := tset s.hst.queues qi { h with tail := tail, lapped := h.lapped + ring } } })) ∧
    (s.hst.events = [] → s.tru.verified = false ∨ size ≠ 8 ∨ h.bound = false ∨ 65536 ≤ v.toNat →
      exec (.notifyWrite port (64 * q) size v) s = .next s) ∧
    (s.hst.events = [] → ∀ off, off % 64 ≠ 0 → exec (.notifyWrite port off size v) s = .next s)

/-- 21_host R351 to R355: the host edge reads the packet at HEAD when it is the queue's turn, gives it the next number, and keeps it
or completes it with the status of its check; the queue whose turn it is has the highest priority of those with unread entries, and
while its read is not answered no other is read; a packet that is done completes, and its interrupt is sent once the record is
written: none is sent by a port whose writes wait behind a lease (08_core_memory R163). -/
def Machine.PacketsReadAndCompleted : Prop :=
  (∀ (s : State) (port q : Nat), s.turnOf port = some q →
    let unread (q : Nat) : Prop := (s.hq (port * 64 + q)).bound = true ∧ s.stopped (port * 64 + q) = false ∧
      ((s.hq (port * 64 + q)).head ≠ (s.hq (port * 64 + q)).tail ∨ 0 < (s.hq (port * 64 + q)).lapped)
    q < 64 ∧ unread q ∧ (∀ k < 64, unread k → (s.hq (port * 64 + k)).prio ≤ (s.hq (port * 64 + q)).prio) ∧
    s.readTurn port = if s.edgeWaits port (s.entryAddr (port * 64 + q)) 64 then none else some q) ∧
  (∀ (s : State) (port q : Nat), q < 64 →
    let qi := port * 64 + q
    let h := s.hq qi
    let w := s.entryAt qi
    let n := (s.tl (tlKey 4 qi)).issued + 1
    s.lineHead qi = none → s.readTurn port = some q → Machine.OnPackets port q (fun i k => packetKind w = k →
    ∃ t, exec i s = .next t ∧ (t.tl (tlKey 4 qi)).issued = n ∧ (t.hq qi).head = (h.head + 1) % 2 ^ h.logsize ∧
      (t.hq qi).tail = h.tail ∧ (t.hq qi).lapped = (if h.head = h.tail then h.lapped - 2 ^ h.logsize else h.lapped) ∧
      (h.check w = 0 → t.hst.packets = s.hst.packets ++ [{ qi := qi, n := n, words := w }] ∧ t.mem = s.mem) ∧
      (h.check w ≠ 0 → Machine.newest t (tlKey 4 qi) = some ⟨n, h.check w, 0, 0⟩))) ∧
  (∀ (s : State) (port q n : Nat) (p : Packet), port < 2 → q < 64 → 0 < n →
    let qi := port * 64 + q
    s.hst.packets.find? (fun p => p.qi == qi && p.n == n) = some p → s.packetDone p = true →
    ∃ t, exec (.packetCompletion port q n) s = .next t ∧ Machine.newest t (tlKey 4 qi) = some ⟨n, if p.faulted then 9 else 0, 0, 0⟩ ∧
      t.hst.packets = s.hst.packets.filter (fun p => !(p.qi == qi && p.n == n)) ∧ Machine.drained s t ∧
      (s.hst.events = [] → t.edgeBusy port = true → t.hst.irqs = s.hst.irqs ∧ t.hst.interrupts = s.hst.interrupts) ∧
      (∀ r, Machine.noLeases s → s.hst.irqs = [(qi, n)] → (s.hq qi).intrEn = true → tgetD {} s.hst.remap (port * 2048 + (s.hq qi).intr) = r →
        r.en = true → r.pasid = (s.hq qi).pasid → t.hst.irqs = [] ∧ t.hst.interrupts = s.hst.interrupts ++ [(port, r.vector)]))

/-- 21_host R348, R349, R358, R360, R361, 08_core_memory R163: a host's access within a page, of device memory or of its own window, is served, granule by
granule, at the granule's home, and waits behind a lease. A block in device bias first loses the L1 copies that hold a granule alone. A page
that a confidential context holds reads all ones and takes no write. -/
def Machine.HostAccesses : Prop :=
  ∀ (s : State) (port pa : Nat) (data : List Byte), data ≠ [] → pa % 4096 + data.length ≤ 4096 →
    let home := s.homeDie (s.vcAt pa) pa
    let read (l : List (List Byte)) : HostSt := { s.hst with reads := s.hst.reads ++ l.map (fun bs => (port, bs)) }
    let own : Prop := targetOf pa = some (0x100 + port) ∧ targetOf (pa + data.length - 1) = some (0x100 + port)
    let device : Prop := s.tru.verified = true ∧ pa + data.length ≤ 0xBFC0000000
    let l1 (t : State) (core g : Nat) : Option L1St := tget t.mem.l1 (core * 2 ^ 46 + g)
    (own ∨ device → Machine.still s → s.MemWf → s.mem.leaseQ = [] → (∀ g ∈ granules pa data.length, s.granLeased g = false) → s.homeStopped (s.vcAt pa) pa = false →
      tsorted s.mem.l1 0 = true → (device → s.confGranule (pa / 4096) = false) →
      (∃ t, exec (.hostMemoryAccess port false pa data) s = .next t ∧ t.hst = read ((cutGrans pa data).map (fun e => s.bytesAt home e.1 e.2.length)) ∧
        (∀ die a, t.byteAt die a = s.byteAt die a) ∧ (own ∨ tgetD false s.hst.bias (pa / 65536) = true → t.mem = s.mem) ∧
        (device → tgetD false s.hst.bias (pa / 65536) = false → ∀ core g, pa / 64 ≤ g → g ≤ (pa + data.length - 1) / 64 →
          l1 t core g = if l1 s core g = some .s then some .s else none)) ∧
      (∃ t, exec (.hostMemoryAccess port true pa data) s = .next t ∧ t.hst = s.hst ∧
        (∀ a, t.byteAt home a = Machine.over pa data (s.byteAt home) a) ∧
        (∀ die < 4, ∀ a, t.drainAll.byteAt die a = Machine.over pa data (s.byteAt die) a) ∧
        ∀ core g, pa / 64 ≤ g → g ≤ (pa + data.length - 1) / 64 → l1 t core g = none)) ∧
    (own ∨ (device ∧ s.confGranule (pa / 4096) = false) → s.mem.l1 = [] → pa % 64 + data.length ≤ 64 → s.granLeased (pa / 64) = true →
      exec (.hostMemoryAccess port true pa data) s = .next
        { s with mem := { s.mem with leaseQ := s.mem.leaseQ ++ [.hostWrite port pa data] } } ∧
      exec (.hostMemoryAccess port false pa data) s = .next
        { s with mem := { s.mem with leaseQ := s.mem.leaseQ ++ [.hostRead port pa data.length] } }) ∧
    (device → s.confGranule (pa / 4096) = true → s.hst.events = [] →
      exec (.hostMemoryAccess port true pa data) s = .next s ∧
      exec (.hostMemoryAccess port false pa data) s = .next { s with hst := read [List.replicate data.length 255] }) ∧
    (¬ own → ¬ device → exec (.hostMemoryAccess port true pa data) s = .next s ∧ exec (.hostMemoryAccess port false pa data) s = .next s)

/-- 21_host R349, R353, R359: an ATS invalidation, which leaves no translation of its range cached, an expander that is added, an
injection, whose poison every view of its granule has. That the invalidation performs every write of the port's window that is on its
way, to .M, but for those that wait behind a lease, is the model's reading (notes/assumptions/31.md). -/
def Machine.HostEvents : Prop :=
  (∀ (s : State) (port base len : Nat), ∃ t, exec (.atsInvalidation port base len) s = .next t ∧
    (∀ pasid < 2 ^ 20, ∀ a < 2 ^ 45, 0 < len → base < a / 4096 * 4096 + 4096 → a / 4096 * 4096 < base + len →
      tget t.hst.ats (atsKey port pasid a) = none) ∧
    (∀ pasid < 2 ^ 20, ∀ a < 2 ^ 45, a / 4096 * 4096 + 4096 ≤ base ∨ base + len ≤ a / 4096 * 4096 →
      t.ats port pasid a = s.ats port pasid a) ∧
    t.hst.atsInv = s.hst.atsInv ++ [(port, base, len)] ∧
    let mine (w : Write) : Bool := w.meets (0x800000000000 + port * 0x200000000000) (2 ^ 45)
    (∀ w ∈ t.mem.flight, mine w = false) ∧ (∀ w ∈ t.mem.out, mine w = true → s.mem.holds w.id = true) ∧
    t.barges = s.barges ∧ t.tls = s.tls ∧ t.map = s.map) ∧
  (∀ (s : State) (e port : Nat), e < 16 → port < 2 →
    (tget s.hst.expanders e = none → ∃ t n, exec (.expanderHotAdd e port) s = .next t ∧ t.hst.expanders = tset s.hst.expanders e port ∧
      tget t.map.nodes (12 + e) = some n ∧ n.ctx = 0 ∧ n.root = true ∧ n.pgn * 4096 = 0x400000000000 + e * 2 ^ 40 ∧
      n.vgn = n.pgn ∧ n.count * 4096 = 2 ^ 40 ∧ n.r = true ∧ n.w = true ∧ n.vcid = none) ∧
    ((tget s.hst.expanders e).isSome = true → exec (.expanderHotAdd e port) s = .next s)) ∧
  (∀ (s : State) (k : Nat) (i : Injection), s.hst.injections[k]? = some i →
    let left := s.hst.injections.erase i
    (s.cycle < i.due → exec (.injectionTakesEffect k) s = .next s) ∧
    (i.due ≤ s.cycle → i.kind = 2 → exec (.injectionTakesEffect k) s = .next
      { s with hst := { s.hst with injections := left, stalls := s.hst.stalls ++ [(i.target, i.addr)] } }) ∧
    (i.due ≤ s.cycle → i.kind = 1 → targetOf i.addr = some i.target → ∃ t, exec (.injectionTakesEffect k) s = .next t ∧
      t.hst.injections = left ∧ (∀ die < 4, t.poisonedAt die i.addr = true) ∧
      (Machine.still s → ∀ die a, t.byteAt die a = s.byteAt die a)))

/-- 21_host R348, R349, R351 to R355, R358 to R361: what happens at the host edge. -/
def Obligations.HostSteps : Prop :=
  Machine.NotifyPage ∧ Machine.PacketsReadAndCompleted ∧ Machine.HostAccesses ∧ Machine.HostEvents

/-- The packet step `i` passes packet `p`, the first of its queue that has not passed, of kind `kind`; its number completes with `st`,
and the state after it has `f`. -/
def Machine.Performs (s : State) (i : Instr) (port q : Nat) (p : Packet) (kind st : Nat) (f : State → Prop) : Prop :=
  packetKind p.words = kind →
    ∃ t, exec i s = .next t ∧ Machine.newest t (tlKey 4 (port * 64 + q)) = some ⟨p.n, st, 0, 0⟩ ∧ f t

/-- 21_host R344, R350, R353, R356 to R359, R361, R368, R369, 20_wharf R324, R338, R341, 18_mapping R285, R286, R307, 16_composer R258: what each
request packet does when it passes, with the effects before it performed at .M, and the status that its number completes with.
The refusals of CTXCREATE, CTXDESTROY, EPSET and EVRING, and of RESETQ and UNBINDQ of a queue that is not bound, are the model's
reading, and so is that a CTXDESTROY completes when its context is free (notes/assumptions/25.md). -/
def Obligations.RequestPackets : Prop :=
  ∀ (s : State) (port q : Nat) (p : Packet), s.lineHead (port * 64 + q) = some p → s.mayPass p = true → 0 < p.n →
    s.hst.irqs = [] → Machine.noLeases s →
    let d := s.drainAll
    let P (i : Instr) := Machine.Performs s i port q p
    let h := s.hq (port * 64 + q)
    let x (i : Nat) : Nat := (p.words.getD i 0).toNat
    let passed : State := d.updPacket p.qi p.n (fun p => { p with passed := true })
    -- an attempt to change the binding of queue `k` where it is frozen: its interface enters ERROR (R361)
    let turnedAway (i : Instr) (kind k : Nat) : Prop :=
      ((s.hq k).tdi = .error → P i kind 2 (fun t => t.hst.queues = s.hst.queues)) ∧
      ((s.hq k).tdi = .locked ∨ (s.hq k).tdi = .run → P i kind 2 (fun t => t.hq k = { s.hq k with tdi := .error }))
    -- DISPATCH and DISPATCHG: the spawn of 20_wharf R324, or its status
    (∀ e ∈ [(Instr.dispatch port q, 1, false), (.dispatchg port q, 2, true)],
      let c := passed.create h.ctx e.2.2 ((p.words.drop 1).take 6) (some (p.qi, p.n))
      (packetKind p.words = e.2.1 → c.1 = 0 → exec e.1 s = .next c.2) ∧ (c.1 ≠ 0 → P e.1 e.2.1 c.1 (fun t => t.barges = s.barges))) ∧
    (∀ ctx d pk r w pa, s.recsAt ctx (d.getD 0 (0 : Word)).toNat 1 = [r] → r.words = w → r.pa = some pa →
      (s.create ctx false d pk).1 = 0 → (d.getD 1 0).toNat = 0 → ∃ b, (s.create ctx false d pk).2.barge? s.nextBid = some b ∧
        b.st = .ready ∧ b.resume = (w.getD 0 0).toNat % 2 ^ 48 ∧ b.ctx = (w.getD 1 0).toNat % 2 ^ 12 ∧ b.recPa = pa ∧
        b.carry = (w.drop 2).take 6 ∧ b.chan = (w.getD 1 0).toNat / 2 ^ 12 % 2 ^ 16 ∧ b.pred = 0 ∧ b.gang = 0 ∧ b.packet = pk) ∧
    P (.order port q) 3 0 (fun t => t.barges = s.barges) ∧
    (let st := s.rangeStatus (s.ctx h.ctx).partition (x 1) (x 2) (p.words.getD 3 0 == 1)
     st ≠ 0 → P (.maint port q) 4 st (fun t => t.com.vc = s.com.vc)) ∧
    (tget s.com.vc (x 1 / 2 ^ 54 % 1024) = none →
      s.rangeStatus (s.ctx h.ctx).partition (x 1) (x 2) (p.words.getD 3 0 == 1) = 0 →
      P (.maint port q) 4 0 (fun t => t.com.vc = s.com.vc)) ∧
    (∀ v, tget s.com.vc (x 1 / 2 ^ 54 % 1024) = some v → s.MemWf →
      s.rangeStatus (s.ctx h.ctx).partition (x 1) (x 2) (p.words.getD 3 0 == 1) = 0 →
      P (.maint port q) 4 0 (fun t => t.com.vc = s.com.vc ∧
        Machine.Upkeep s t h.ctx (x 1 / 2 ^ 54 % 1024) (x 1 % 2 ^ 48) (x 2) v (p.words.getD 3 0 == 1) (fun a =>
          let record := hostPa ((port * 64 + q) / 64) (s.ats ((port * 64 + q) / 64) h.pasid (h.cpl + 16 * (p.n % 256)))
          record ≤ a ∧ a < record + 16))) ∧
    -- ADMIN, by subcode
    (x 1 = 1 →
      let c := x 2 % 2 ^ 12
      let new : Ctx := { partition := x 2 / 2 ^ 12 % 2 ^ 8, scope := x 2 / 2 ^ 20 % 8, measured := (p.words.getD 2 0).getLsbD 23
                         st := .live, flights := x 3 + x 4 * 2 ^ 64 + x 5 * 2 ^ 128 }
      ((s.ctx c).st = .free → new.scope ≤ 5 → P (.ctxcreate port q) 101 0 (fun t =>
        t.map.ctxs = tset s.map.ctxs c new ∧ (tget t.tru.keys c).isSome ∧ (tsorted s.tls 0 = true → (t.tl (tlKey 3 c)).issued = 0))) ∧
      ((s.ctx c).st ≠ .free ∨ 5 < new.scope → P (.ctxcreate port q) 101 2 (fun t => t.map.ctxs = s.map.ctxs))) ∧
    (x 1 = 2 →
      (x 2 = 0 ∨ (s.ctx (x 2)).st ≠ .live → P (.ctxdestroy port q) 102 2 (fun t => t.map.ctxs = s.map.ctxs)) ∧
      (x 2 ≠ 0 → (s.ctx (x 2)).st = .live → (∀ e ∈ s.barges, e.2.ctx ≠ x 2) → (∀ e ∈ s.map.nodes, e.2.ctx ≠ x 2) →
        (∀ e ∈ s.map.tokens, e.2.isFault = true ∨ e.2.target ≠ x 2) → packetKind p.words = 102 →
        ∃ t, exec (.ctxdestroy port q) s = .next t ∧ t.tls = s.tls ∧
          t.map.ctxs = tput {} s.map.ctxs (x 2) { s.ctx (x 2) with st := .dying } ∧
          (∃ e ∈ t.map.pending, e.ctx = x 2 ∧ e.n = 0) ∧ ∀ k, (s.chan k).owner = some (x 2) → (t.chan k).queue = [])) ∧
    (x 1 = 3 →
      let t0 := x 2 * 64 + x 3
      let y (i : Nat) : Nat := ((wordsOf 8 (d.hostRead (x 2) (x 4) 64)).getD i 0).toNat
      let form : Prop := x 4 < 2 ^ 45 ∧ y 0 < 2 ^ 45 ∧ y 0 % 4096 = 0 ∧ 4 ≤ y 1 ∧ y 1 ≤ 16 ∧ y 2 < 2 ^ 45 ∧ y 2 % 4096 = 0 ∧ y 3 < 4096 ∧
        y 6 = 0 ∧ y 7 = 0
      turnedAway (.bindq port q) 103 t0 ∧
      ((s.hq t0).tdi = .unlocked →
      ((s.hq t0).bound = false ∨ (s.hq t0).revoked = true → ¬ form → P (.bindq port q) 103 2 (fun t => t.hst.queues = s.hst.queues)) ∧
      ((s.hq t0).bound = false ∨ (s.hq t0).revoked = true → form → P (.bindq port q) 103 0 (fun t => t.hst.queues = tset s.hst.queues t0
          { bound := true, qcb := x 4, ring := y 0, logsize := y 1, cpl := y 2, intr := y 3 % 2048, intrEn := (y 3 / 2048) % 2 == 1
            pasid := x 5, ctx := x 6, prio := x 7 })) ∧
      ((s.hq t0).bound = true → (s.hq t0).revoked = false → P (.bindq port q) 103 2 (fun t => t.hst.queues = s.hst.queues)))) ∧
    (x 1 = 4 →
      let t0 := x 2 * 64 + x 3
      ((s.hq t0).tdi ≠ .unlocked ∨ (s.hq t0).bound = false → P (.resetq port q) 104 2 (fun t => t.hst.queues = s.hst.queues)) ∧
      ((s.hq t0).tdi = .unlocked → (s.hq t0).bound = true → (∀ o ∈ s.hst.packets, o.qi ≠ t0) → packetKind p.words = 104 →
        ∃ t, exec (.resetq port q) s = .next t ∧ ((s.hq t0).lapped = 0 → t.tls = s.tls) ∧
          (t.tl (tlKey 4 t0)).issued = (s.tl (tlKey 4 t0)).issued + (s.hq t0).lapped ∧
          t.hst.queues = tset s.hst.queues t0 { s.hq t0 with head := (s.hq t0).tail, lapped := 0 })) ∧
    (x 1 = 5 →
      let t0 := x 2 * 64 + x 3
      turnedAway (.unbindq port q) 105 t0 ∧
      ((s.hq t0).tdi = .unlocked →
      ((s.hq t0).bound = false → P (.unbindq port q) 105 2 (fun t => t.hst.queues = s.hst.queues)) ∧
      ((s.hq t0).bound = true → P (.unbindq port q) 105 0 (fun t =>
        t.hst.queues = tset s.hst.queues t0 { s.hq t0 with revoked := true })))) ∧
    (x 1 = 6 → P (.setlimit port q) 106 0 (fun t => t.com.limit = tput 0 s.com.limit (x 2 * 4 + x 3) (x 4) ∧ t.com.vc = s.com.vc)) ∧
    (x 1 = 7 →
      let r : Tenant := { target := x 3 % 2 ^ 16, min := x 3 / 2 ^ 16 % 64, max := x 3 / 2 ^ 24 % 64
                          primax := x 3 / 2 ^ 32 % 8, dies := x 3 / 2 ^ 36 % 16 }
      let ts := tput {} s.whf.tenants (x 2) r
      let sum (die : Nat) : Nat := ((ts.filter (fun e => e.2.onDie die)).map (fun e => e.2.min)).sum
      (r.min ≤ 40 → r.min ≤ r.max → r.max ≤ 40 → (∀ d < 4, sum d ≤ 40) → P (.tenant port q) 107 0 (fun t => t.whf.tenants = ts)) ∧
      (r.max < r.min ∨ 40 < r.max ∨ (∃ d < 4, 40 < sum d) → P (.tenant port q) 107 2 (fun t => t.whf.tenants = s.whf.tenants))) ∧
    (x 1 = 8 → P (.slotset port q) 108 0 (fun t => t.whf.slots = tput (BitVec.allOnes 256) s.whf.slots (x 2)
      (p.words.getD 6 0 ++ p.words.getD 5 0 ++ p.words.getD 4 0 ++ p.words.getD 3 0))) ∧
    (x 1 = 9 →
      let old := tgetD {} s.map.eps (epKey (x 2) (x 3))
      (x 3 ≠ 0 → (s.ctx (x 2)).st = .live → P (.epset port q) 109 0 (fun t => t.map.eps = tset s.map.eps (epKey (x 2) (x 3))
        { chan := x 4 % 2 ^ 16, tctx := x 4 / 2 ^ 16 % 2 ^ 12, s := (p.words.getD 4 0).getLsbD 28, m := (p.words.getD 4 0).getLsbD 29
          g := (p.words.getD 4 0).getLsbD 30, gen := if old.valid then (old.gen + 1) % 65536 else old.gen, valid := true
          badge := p.words.getD 5 0 })) ∧
      (x 3 = 0 ∨ (s.ctx (x 2)).st ≠ .live → P (.epset port q) 109 2 (fun t => t.map.eps = s.map.eps))) ∧
    (x 1 = 10 → (s.chan (x 2)).waiters = [] → P (.chown port q) 110 0 (fun t =>
      t.map.chans = tset s.map.chans (x 2) { s.chan (x 2) with owner := some (x 3) })) ∧
    (x 1 = 11 → P (.unisolate port q) 111 0 (fun t => t.slu.isolated = tdel s.slu.isolated (x 2) ∧
      t.slu.discards = tdel s.slu.discards (x 2))) ∧
    (x 1 = 12 →
      (x 2 + x 3 ≤ 12582912 → P (.bias port q) 112 0 (fun t => t.hst.bias = fillTab false s.hst.bias (x 2) (x 3) (x 4 == 1))) ∧
      (12582912 < x 2 + x 3 → P (.bias port q) 112 2 (fun t => t.hst.bias = s.hst.bias))) ∧
    (x 1 = 13 →
      let names (h : HQueue) : Prop := h.bound = true ∧ h.intr = x 3
      ((∀ e ∈ s.hst.queues, e.1 / 64 = x 2 → names e.2 → e.2.tdi = .unlocked) → P (.intrset port q) 113 0 (fun t =>
        t.hst.remap = tset s.hst.remap (x 2 * 2048 + x 3) ⟨x 4, x 5, x 6 == 1⟩)) ∧
      (∀ k, k / 64 = x 2 → names (s.hq k) → (s.hq k).tdi ≠ .unlocked → P (.intrset port q) 113 2 (fun t =>
        t.hst.remap = s.hst.remap ∧ (t.hq k).tdi = .error))) ∧
    (x 1 = 14 →
      let ok : Prop := x 3 % 4096 = 0 ∧ x 3 < 2 ^ 45 ∧ ∃ k ≤ 10, x 4 = 64 * 2 ^ k
      (ok → P (.evring port q) 114 0 (fun t => t.hst.events = tset s.hst.events (x 2) { base := x 3, entries := x 4 })) ∧
      (¬ ok → s.hst.events = [] → P (.evring port q) 114 2 (fun t => t.hst.events = []))) ∧
    (x 1 = 15 →
      let ok : Prop := Config.injectEnabled s.tru.image = true ∧ (x 4 = 1 ∨ x 4 = 2)
      (ok → P (.inject port q) 115 0 (fun t => t.hst.injections = s.hst.injections ++ [⟨x 2, x 3, x 4, s.cycle + 3 * x 5⟩])) ∧
      (¬ ok → P (.inject port q) 115 2 (fun t => t.hst.injections = s.hst.injections))) ∧
    (x 1 = 16 → P (.peerset port q) 116 0 (fun t => t.lnk.mid = x 2 ∧ t.lnk.peers = tput {} s.lnk.peers (x 3) ⟨x 4, x 5, x 6 == 1⟩ ∧
      (x 6 = 1 → tget s.map.nodes (28 + x 3) = none → ∃ n, tget t.map.nodes (28 + x 3) = some n ∧ n.root = true ∧
        n.pgn * 4096 = 0x500000000000 + x 3 * 2 ^ 40 ∧ n.count * 4096 = 2 ^ 40))) ∧
    (x 1 = 17 →
      let chan := x 6 / 2 ^ 16 % 2 ^ 16
      let ok : Prop := (s.chan chan).owner = some (x 3) ∧ x 4 % 4096 = 0 ∧ x 5 % 4096 = 0 ∧ x 5 ≤ 2 ^ 40
      (ok → P (.exportOp port q) 117 0 (fun t => t.lnk.exports = tset s.lnk.exports (x 2)
        { ctx := x 3, base := x 4, size := x 5, r := (p.words.getD 6 0).getLsbD 0, w := (p.words.getD 6 0).getLsbD 1, nchan := chan
          badge := p.words.getD 7 0 })) ∧
      (¬ ok → P (.exportOp port q) 117 2 (fun t => t.lnk.exports = s.lnk.exports)))

/-- 21_host R360 to R366: the security core takes an image whose check succeeds and no other; it answers each message in the
mailbox of its port, a reply to GET_MEASUREMENTS from the measurement that it asks for; a queue interface goes from
CONFIG_UNLOCKED to CONFIG_LOCKED, where a MEASURED context is measured, to RUN, and to ERROR, where its context begins to die;
counters are refreshed at the end of their window; a start leaves no work and no byte of device memory; power and temperature
limits. The model's own: the session flags, the byte that names a measurement, and that all other bytes of a reply are free
(notes/assumptions/16.md); the numbers of the counters (notes/assumptions/33.md); that a start keeps the expanders, that T goes
on, and that a warm start without a verified image does nothing (notes/assumptions/23.md). -/
def Obligations.TrustSteps : Prop :=
  (∀ (s : State) (image : List Byte),
    (s.tru.verified = true → exec (.imageWrite image) s = .next s) ∧
    (s.tru.verified = false → Config.imageOk image = true → exec (.imageWrite image) s = .next
      { s with tru := { s.tru with image := image, verified := true, failed := false } }) ∧
    (s.tru.verified = false → Config.imageOk image = false → ∃ t, exec (.imageWrite image) s = .next t ∧
      t.tru.verified = false ∧ t.tru.failed = true ∧ t.barges = s.barges)) ∧
  (∀ (s : State) (port : Nat) (req : List Byte),
    let answers (i : Instr) (f : TrustSt → TrustSt) : Prop := ∃ t reply, exec i s = .next t ∧
      t.tru = { f s.tru with mailbox := s.tru.mailbox ++ [(port, reply)] } ∧ t.mem = s.mem ∧ t.barges = s.barges ∧ t.hst = s.hst
    answers (.getVersion port req) id ∧ answers (.getCapabilities port req) id ∧ answers (.getDigests port req) id ∧
    answers (.getCertificate port req) id ∧ answers (.challenge port req) id ∧ answers (.getMeasurements port req) id ∧
    answers (.finish port req) id ∧ answers (.negotiateAlgorithms port req) (fun t => { t with negotiated := true }) ∧
    answers (.keyExchange port req) (fun t => { t with session := true }) ∧
    answers (.endSession port req) (fun t => { t with session := false }) ∧
    let reports (bs : List Byte) : Prop := ∃ t, exec (.getMeasurements port req) s = .next t ∧
      t.tru.mailbox = s.tru.mailbox ++ [(port, Config.measureReply s.fresh bs)]
    ((req.getD 3 0).toNat = 1 → reports (1 :: sha512 s.tru.image)) ∧
    (∀ k m, k < 128 → (req.getD 3 0).toNat = 16 + k → (s.hq k).bound = true → tget s.tru.measures (s.hq k).ctx = some m →
      reports (BitVec.ofNat 8 (16 + k) :: m))) ∧
  (∀ (s : State) (port q : Nat),
    let qi := port * 64 + q
    let h := s.hq qi
    let moves (i : Instr) (d : Tdi) : Prop := ∃ t, exec i s = .next t ∧ t.hst.queues = tset s.hst.queues qi { h with tdi := d } ∧
      t.barges = s.barges
    h.bound = true →
    (h.tdi = .unlocked → moves (.configLocked port q) .locked) ∧ (h.tdi = .locked → moves (.run port q) .run) ∧
    (h.tdi = .unlocked → (s.ctx h.ctx).measured = true → ∃ t, exec (.configLocked port q) s = .next t ∧
      tget t.tru.measures h.ctx = some (sha512 (s.drainAll.measured h.ctx))) ∧
    moves (.configUnlocked port q) .unlocked ∧
    (h.tdi ≠ .unlocked → exec (.configLocked port q) s = .next s) ∧ (h.tdi ≠ .locked → exec (.run port q) s = .next s) ∧
    (∀ i ∈ [Instr.error port q, .ideIntegrityFailure port q],
      (h.tdi = .error → exec i s = .next s) ∧
      (h.tdi ≠ .error → (s.ctx h.ctx).st ≠ .live → moves i .error) ∧
      (h.tdi ≠ .error → (s.ctx h.ctx).st = .live → (∀ e ∈ s.barges, e.2.ctx ≠ h.ctx) →
        (∀ e ∈ s.map.nodes, e.2.ctx = h.ctx → e.2.root = true) → (∀ e ∈ s.map.tokens, e.2.isFault = true ∨ e.2.target ≠ h.ctx) →
        moves i .error ∧ ∃ t, exec i s = .next t ∧ t.map.ctxs = tput {} s.map.ctxs h.ctx { s.ctx h.ctx with st := .dying }))) ∧
  (∀ (s : State), s.hst.nextWindow ≤ s.now →
    ∃ t, exec .counterWindow s = .next t ∧ t.hst.nextWindow = s.hst.nextWindow + 100000000 ∧ t.mem = s.mem ∧ t.barges = s.barges ∧
      ∀ n, s.liveTenants = [n] → ∀ k ∈ [0, 3, 4, 5], ∀ e, tgetD 0 s.hst.exact (n * 8 + k) = e → tsorted s.hst.exact 0 = true → tsorted s.hst.coarse 0 = true →
        tgetD 0 t.hst.coarse (n * 8 + k) = e / quantum k * quantum k) ∧
  (∀ (s : State), s.now < s.hst.nextWindow → exec .counterWindow s = .next s) ∧
  (∀ (s : State),
    let started (t : State) : Prop :=
      t.cycle = 0 ∧ t.now = s.now ∧ t.barges = [] ∧ t.tls = [] ∧ t.com.vc = [] ∧ t.map.ctxs = State.reset.map.ctxs ∧
      t.map.eps = [] ∧ t.map.chans = [] ∧ t.map.seq = 0 ∧ t.hst.queues = [] ∧ t.hst.packets = [] ∧ t.slu.isolated = [] ∧
      (∃ k, t.tru.keys = [(0, k)]) ∧ t.tru.measures = [] ∧ (∀ die a, targetOf a = none → t.byteAt die a = 0) ∧
      (∀ e, tgetD 99 t.hst.expanders e = tgetD 99 s.hst.expanders e)
    (∃ t, exec .coldStart s = .next t ∧ started t ∧ t.tru.verified = false ∧ t.com.share = [] ∧ t.hst.tripped = []) ∧
    (s.tru.verified = true → ∃ t, exec .warmStart s = .next t ∧ started t ∧ t.tru.verified = true ∧ t.tru.image = s.tru.image ∧
      t.com.share = s.com.share.filter (fun e => e.2 == 2000) ∧ t.hst.tripped = s.hst.tripped) ∧
    (s.tru.verified = false → exec .warmStart s = .next s)) ∧
  (∀ (s : State) (mw die : Nat),
    exec (.powerLimit mw) s = .next
      (if 6400000 ≤ mw then { s with hst := { s.hst with clockDown := s.hst.clockDown + 1 } } else s) ∧
    (∃ t, exec (.throttle die) s = .next t ∧ t.hst.thermal = tput 0 s.hst.thermal die 1 ∧ t.hst.tripped = s.hst.tripped ∧
      t.barges = s.barges) ∧
    (∃ t, exec (.trip die) s = .next t ∧ t.hst.thermal = tput 0 s.hst.thermal die 2 ∧ die ∈ t.hst.tripped ∧ t.dieStopped die = true))

/-- 21_host R367, R371: a flit in sequence is taken; another starts a replay from the flit that is expected, and what follows that
flit meanwhile is dropped. Eight replays of one flit that fail in a row take its link out of service: the first failure
starts a replay, so the ninth is the eighth that fails (notes/assumptions/20.md). A link out of service leaves every
peer's mask, and a peer without a link is isolated. -/
def Machine.LinkFlits : Prop :=
  (∀ (s : State) (link : Nat) (crc : Bool) (hdr : Word),
    let seq := (hdr.extractLsb' 50 12).toNat
    let here : Prop := seq = tgetD 0 s.lnk.expect link
    let good : Prop := crc = true ∧ (hdr.extractLsb' 44 6).toNat < 7 ∧ here
    let k := tgetD 0 s.lnk.replays link
    (18 ≤ link ∨ link ∈ s.lnk.down → exec (.linkFlitReceive link crc hdr) s = .next s) ∧
    (link < 18 → link ∉ s.lnk.down →
      (good → exec (.linkFlitReceive link crc hdr) s = .next { s with lnk := { s.lnk with
        expect := tput 0 s.lnk.expect link ((seq + 1) % 4096), replays := tdel s.lnk.replays link } }) ∧
      (¬ here → k ≠ 0 → exec (.linkFlitReceive link crc hdr) s = .next s) ∧
      (¬ good → here ∨ k = 0 → k < 8 → exec (.linkFlitReceive link crc hdr) s = .next { s with lnk := { s.lnk with
        replays := tput 0 s.lnk.replays link (k + 1) } }) ∧
      (¬ good → here → 8 ≤ k → ∃ t, exec (.linkFlitReceive link crc hdr) s = .next t ∧ link ∈ t.lnk.down))) ∧
  (∀ (s : State) (link cause : Nat),
    (18 ≤ link ∨ link ∈ s.lnk.down → exec (.linkDown link cause) s = .next s) ∧
    (link < 18 → link ∉ s.lnk.down → ∃ t, exec (.linkDown link cause) s = .next t ∧ link ∈ t.lnk.down ∧
      t.lnk.peers = s.lnk.peers.map (fun e => (e.1, { e.2 with
        mask := if e.2.mask.testBit link then e.2.mask - 2 ^ link else e.2.mask })) ∧
      ∀ j ∈ (s.lnk.peers.filter (fun e => e.2.en && e.2.mask == 2 ^ link)).map (·.1), tgetD false t.slu.isolated (0x200 + j) = true))

/-- The status that the notification of a command reports (21_host R370): that of its issuer, `st` of its last request, at `off`,
or of a request before it. That those are the peer's writes from the first byte of the destination on is the model's reading
(notes/assumptions/20.md). -/
def Machine.noteCode (s : State) (peer off : Nat) (ws : List Word) (st : Nat) : Nat :=
  topStatus ([(ws.getD 3 0).toNat, st] ++ (s.lnk.wrote.filter (fun e =>
    decide (peer * 2 ^ 40 + (ws.getD 1 0).toNat ≤ e.1) && decide (e.1 < peer * 2 ^ 40 + off))).map (·.2))

/-- 21_host R369 to R371: a peer's request outside its export, or without its right, is answered XLATE (code 3), a read inside it with
the bytes and their poison, a write once every view has its bytes; one with a notification is answered when that has been
queued, with the status that the command completes with in s4, whether or not the write failed. A request that has been answered
is answered again and not performed. None arrives over links all of whose peers are isolated. -/
def Machine.PeerRequests : Prop :=
  ∀ (s : State) (peer tag off len : Nat) (wr : Bool) (data : List PByte) (note : Option (List Word)),
    (s.carries peer = false → exec (.linkRequest peer tag wr off len data note) s = .next s) ∧
    (s.carries peer = true → s.lnk.inq = [] → s.lnk.notices = [] → Machine.still s → Machine.noLeases s →
    let r : LinkIn := ⟨peer, tag, wr, off, len, data, note⟩
    let steps (t : State) : Prop := exec (.linkRequest peer tag wr off len data note) s = .next t ∧ t.lnk.inq = []
    let sent (t : State) (bs : List PByte) (st : Nat) : Prop := steps t ∧ t.lnk.sent = s.lnk.sent ++ [(peer, tag, bs, st)]
    (∀ a, tget s.lnk.answered (peer * 2 ^ 34 + tag) = some a → wr = true → ∃ t, sent t a.1 a.2 ∧ t.mem = s.mem) ∧
    (tget s.lnk.answered (peer * 2 ^ 34 + tag) = none →
      let answered (t : State) (bs : List PByte) (st : Nat) : Prop :=
        sent t bs st ∧ tget t.lnk.answered (peer * 2 ^ 34 + tag) = some (bs, st)
      let noted (t : State) (e : Export) (ws : List Word) (st : Nat) : Prop := steps t ∧ t.lnk.sent = s.lnk.sent ∧
        t.lnk.notices = [⟨peer, tag, e.nchan, ⟨ws.set 3 (BitVec.ofNat 64 (Machine.noteCode s peer off ws st)), e.badge, 0, 0⟩, s.cycle⟩]
      ((tget s.lnk.exports peer = none ∨ ∃ e, tget s.lnk.exports peer = some e ∧
          (e.size < off + len ∨ (wr = true ∧ e.w = false) ∨ (wr = false ∧ e.r = false))) →
        (wr = false ∨ note = none ∨ tget s.lnk.exports peer = none → ∃ t, answered t [] 3 ∧ t.mem = s.mem) ∧
        (∀ e ws, wr = true → note = some ws → tget s.lnk.exports peer = some e → ∃ t, noted t e ws 3 ∧ t.mem = s.mem)) ∧
      (∀ e p, s.exportPieces r = .ok (e, [p]) → p.kind = 0 →
        (wr = false → note = none → s.slHang p (p.len - 1) = none →
          let bs := (List.range p.len).map (fun i => (s.byteAt (s.homeDie p.vc p.addr) (p.addr + i),
            s.poisonedAt (s.homeDie p.vc p.addr) (p.addr + i)))
          ∃ t, answered t bs (if ∃ b ∈ bs, b.2 = true then 5 else 0) ∧ ∀ die a, t.byteAt die a = s.byteAt die a) ∧
        (wr = true → s.homeStopped p.vc p.addr = false → data.length = p.len → 0 < p.len → s.MemWf → ∃ t,
          (∀ die < 4, ∀ a, t.byteAt die a = Machine.over p.addr (data.map (·.1)) (s.byteAt die) a) ∧
          (∀ b ∈ data.zipIdx, b.1.2 = true → ∀ die < 4, t.poisonedAt die (p.addr + b.2) = true) ∧
          let st := if ∃ b ∈ data, b.2 = true then 5 else 0
          (note = none → answered t [] st) ∧ (∀ ws, note = some ws → noted t e ws st)))))

/-- 21_host R370, R371: a peer's answer is kept for the command that waits for it. A peer that does not answer is isolated, and
the command completes TIMEOUT; how much of it was written, and so DONE, is open (notes/assumptions/20.md). -/
def Machine.PeerAnswers : Prop :=
  (∀ (s : State) (f q n : Nat) (data : List PByte) (st : Nat) (sc : SCmd), s.findSc f q n = some sc →
    sc.sent = true → sc.peer.isSome = true → sc.resp = none → s.hst.stalls = [] →
    let bytes := data.map (fun b => (b.1, (st == 5 && !data.any (·.2)) || b.2))
    ∃ t, exec (.linkResponse f q n data st) s = .next t ∧ t.mem = s.mem ∧ t.tls = s.tls ∧
      (∀ x ∈ t.lnk.out, x ∈ s.lnk.out ∧ ¬ (x.key = tlKey 0 (f * 16 + q) ∧ x.n = n)) ∧ t.slu.cmds = tput [] s.slu.cmds f
      ((tgetD [] s.slu.cmds f).map (fun c => if c.q = q ∧ c.n = n then { c with start := s.cycle, resp := some (bytes, st) } else c))) ∧
  (∀ (s : State) (j cause : Nat),
    (s.peerLate j = false → exec (.peerTimeout j cause) s = .next s) ∧
    (s.peerLate j = true → ∃ t, exec (.peerTimeout j cause) s = .next t ∧ tgetD false t.slu.isolated (0x200 + j) = true) ∧
    (∀ f sc, s.slu.cmds = [(f, [sc])] → (tgetD {} s.lnk.peers j).mask ≠ 0 → sc.peer = some j →
      sc.sent = false ∨ s.cycle < sc.sentAt + 2 ^ sc.tout * 3000 → exec (.peerTimeout j cause) s = .next s) ∧
    (∀ f sc, s.slu.cmds = [(f, [sc])] → sc.peer = some j → sc.sent = true → sc.resp = none → sc.begun = true → 0 < sc.n →
      tgetD false s.slu.isolated (0x200 + j) = false → sc.sentAt + 2 ^ sc.tout * 3000 ≤ s.cycle → ∃ t g done, exec (.peerTimeout j cause) s = .next t ∧
        Machine.newest t (tlKey 0 (f * 16 + sc.q)) = some ⟨sc.n, 6, g, done⟩ ∧ t.slu.cmds = []))

/-- 21_host R367 to R371: the module links. -/
def Obligations.LinkSteps : Prop := Machine.LinkFlits ∧ Machine.PeerRequests ∧ Machine.PeerAnswers
end

