-- ==== Sys2Proof/Laws/Dispatch.lean ====
section
/-! SUPPORT. Each arm of `exec` as an equation, so that no proof unfolds the dispatch. -/

namespace Sys2Proof.Machine

variable (s : State)

@[simp] theorem exec_add {st} {d} {a} {b} : exec (.add st d a b) s = execAdd st d a b s := rfl
@[simp] theorem exec_sub {st} {d} {a} {b} : exec (.sub st d a b) s = execSub st d a b s := rfl
@[simp] theorem exec_and {st} {d} {a} {b} : exec (.and st d a b) s = execAnd st d a b s := rfl
@[simp] theorem exec_or {st} {d} {a} {b} : exec (.or st d a b) s = execOr st d a b s := rfl
@[simp] theorem exec_xor {st} {d} {a} {b} : exec (.xor st d a b) s = execXor st d a b s := rfl
@[simp] theorem exec_andn {st} {d} {a} {b} : exec (.andn st d a b) s = execAndn st d a b s := rfl
@[simp] theorem exec_orn {st} {d} {a} {b} : exec (.orn st d a b) s = execOrn st d a b s := rfl
@[simp] theorem exec_sll {st} {d} {a} {b} : exec (.sll st d a b) s = execSll st d a b s := rfl
@[simp] theorem exec_srl {st} {d} {a} {b} : exec (.srl st d a b) s = execSrl st d a b s := rfl
@[simp] theorem exec_sra {st} {d} {a} {b} : exec (.sra st d a b) s = execSra st d a b s := rfl
@[simp] theorem exec_rol {st} {d} {a} {b} : exec (.rol st d a b) s = execRol st d a b s := rfl
@[simp] theorem exec_ror {st} {d} {a} {b} : exec (.ror st d a b) s = execRor st d a b s := rfl
@[simp] theorem exec_slt {st} {d} {a} {b} : exec (.slt st d a b) s = execSlt st d a b s := rfl
@[simp] theorem exec_sltu {st} {d} {a} {b} : exec (.sltu st d a b) s = execSltu st d a b s := rfl
@[simp] theorem exec_seq {st} {d} {a} {b} : exec (.seq st d a b) s = execSeq st d a b s := rfl
@[simp] theorem exec_sne {st} {d} {a} {b} : exec (.sne st d a b) s = execSne st d a b s := rfl
@[simp] theorem exec_min {st} {d} {a} {b} : exec (.min st d a b) s = execMin st d a b s := rfl
@[simp] theorem exec_max {st} {d} {a} {b} : exec (.max st d a b) s = execMax st d a b s := rfl
@[simp] theorem exec_minu {st} {d} {a} {b} : exec (.minu st d a b) s = execMinu st d a b s := rfl
@[simp] theorem exec_maxu {st} {d} {a} {b} : exec (.maxu st d a b) s = execMaxu st d a b s := rfl
@[simp] theorem exec_mul {st} {d} {a} {b} : exec (.mul st d a b) s = execMul st d a b s := rfl
@[simp] theorem exec_mulh {st} {d} {a} {b} : exec (.mulh st d a b) s = execMulh st d a b s := rfl
@[simp] theorem exec_mulhu {st} {d} {a} {b} : exec (.mulhu st d a b) s = execMulhu st d a b s := rfl
@[simp] theorem exec_mulhsu {st} {d} {a} {b} : exec (.mulhsu st d a b) s = execMulhsu st d a b s := rfl
@[simp] theorem exec_div {st} {d} {a} {b} : exec (.div st d a b) s = execDiv st d a b s := rfl
@[simp] theorem exec_divu {st} {d} {a} {b} : exec (.divu st d a b) s = execDivu st d a b s := rfl
@[simp] theorem exec_rem {st} {d} {a} {b} : exec (.rem st d a b) s = execRem st d a b s := rfl
@[simp] theorem exec_remu {st} {d} {a} {b} : exec (.remu st d a b) s = execRemu st d a b s := rfl
@[simp] theorem exec_clz {st} {d} {a} : exec (.clz st d a) s = execClz st d a s := rfl
@[simp] theorem exec_ctz {st} {d} {a} : exec (.ctz st d a) s = execCtz st d a s := rfl
@[simp] theorem exec_popc {st} {d} {a} : exec (.popc st d a) s = execPopc st d a s := rfl
@[simp] theorem exec_ffs {st} {d} {a} : exec (.ffs st d a) s = execFfs st d a s := rfl
@[simp] theorem exec_brev {st} {d} {a} : exec (.brev st d a) s = execBrev st d a s := rfl
@[simp] theorem exec_bswap {st} {d} {a} : exec (.bswap st d a) s = execBswap st d a s := rfl
@[simp] theorem exec_sxb {st} {d} {a} : exec (.sxb st d a) s = execSxb st d a s := rfl
@[simp] theorem exec_sxh {st} {d} {a} : exec (.sxh st d a) s = execSxh st d a s := rfl
@[simp] theorem exec_sxw {st} {d} {a} : exec (.sxw st d a) s = execSxw st d a s := rfl
@[simp] theorem exec_zxb {st} {d} {a} : exec (.zxb st d a) s = execZxb st d a s := rfl
@[simp] theorem exec_zxh {st} {d} {a} : exec (.zxh st d a) s = execZxh st d a s := rfl
@[simp] theorem exec_zxw {st} {d} {a} : exec (.zxw st d a) s = execZxw st d a s := rfl
@[simp] theorem exec_addi {st} {d} {a} {i} : exec (.addi st d a i) s = execAddi st d a i s := rfl
@[simp] theorem exec_andi {st} {d} {a} {i} : exec (.andi st d a i) s = execAndi st d a i s := rfl
@[simp] theorem exec_ori {st} {d} {a} {i} : exec (.ori st d a i) s = execOri st d a i s := rfl
@[simp] theorem exec_xori {st} {d} {a} {i} : exec (.xori st d a i) s = execXori st d a i s := rfl
@[simp] theorem exec_slti {st} {d} {a} {i} : exec (.slti st d a i) s = execSlti st d a i s := rfl
@[simp] theorem exec_sltiu {st} {d} {a} {i} : exec (.sltiu st d a i) s = execSltiu st d a i s := rfl
@[simp] theorem exec_slli {st} {d} {a} {c} : exec (.slli st d a c) s = execSlli st d a c s := rfl
@[simp] theorem exec_srli {st} {d} {a} {c} : exec (.srli st d a c) s = execSrli st d a c s := rfl
@[simp] theorem exec_srai {st} {d} {a} {c} : exec (.srai st d a c) s = execSrai st d a c s := rfl
@[simp] theorem exec_rori {st} {d} {a} {c} : exec (.rori st d a c) s = execRori st d a c s := rfl
@[simp] theorem exec_lui {st} {d} {i} : exec (.lui st d i) s = execLui st d i s := rfl
@[simp] theorem exec_addpc {st} {d} {i} : exec (.addpc st d i) s = execAddpc st d i s := rfl
@[simp] theorem exec_beqz {a} {x} : exec (.beqz a x) s = execBeqz a x s := rfl
@[simp] theorem exec_bnez {a} {x} : exec (.bnez a x) s = execBnez a x s := rfl
@[simp] theorem exec_bltz {a} {x} : exec (.bltz a x) s = execBltz a x s := rfl
@[simp] theorem exec_bgez {a} {x} : exec (.bgez a x) s = execBgez a x s := rfl
@[simp] theorem exec_bgtz {a} {x} : exec (.bgtz a x) s = execBgtz a x s := rfl
@[simp] theorem exec_blez {a} {x} : exec (.blez a x) s = execBlez a x s := rfl
@[simp] theorem exec_bodd {a} {x} : exec (.bodd a x) s = execBodd a x s := rfl
@[simp] theorem exec_j {x} : exec (.j x) s = execJ x s := rfl
@[simp] theorem exec_jl {x} : exec (.jl x) s = execJl x s := rfl
@[simp] theorem exec_jlr {d} {a} {i} : exec (.jlr d a i) s = execJlr d a i s := rfl
@[simp] theorem exec_srd {st} {d} {n} : exec (.srd st d n) s = execSrd st d n s := rfl
@[simp] theorem exec_swr {st} {a} {n} : exec (.swr st a n) s = execSwr st a n s := rfl
@[simp] theorem exec_srset {st} {d} {a} {n} : exec (.srset st d a n) s = execSrset st d a n s := rfl
@[simp] theorem exec_srclr {st} {d} {a} {n} : exec (.srclr st d a n) s = execSrclr st d a n s := rfl
@[simp] theorem exec_vadd {st} {d} {a} {b} {m} {t} : exec (.vadd st d a b m t) s = execVadd st d a b m t s := rfl
@[simp] theorem exec_vsub {st} {d} {a} {b} {m} {t} : exec (.vsub st d a b m t) s = execVsub st d a b m t s := rfl
@[simp] theorem exec_vmul {st} {d} {a} {b} {m} {t} : exec (.vmul st d a b m t) s = execVmul st d a b m t s := rfl
@[simp] theorem exec_vdiv {st} {d} {a} {b} {m} {t} : exec (.vdiv st d a b m t) s = execVdiv st d a b m t s := rfl
@[simp] theorem exec_vmin {st} {d} {a} {b} {m} {t} : exec (.vmin st d a b m t) s = execVmin st d a b m t s := rfl
@[simp] theorem exec_vmax {st} {d} {a} {b} {m} {t} : exec (.vmax st d a b m t) s = execVmax st d a b m t s := rfl
@[simp] theorem exec_vsqrt {st} {d} {a} {m} {t} : exec (.vsqrt st d a m t) s = execVsqrt st d a m t s := rfl
@[simp] theorem exec_vexp2 {st} {d} {a} {m} {t} : exec (.vexp2 st d a m t) s = execVexp2 st d a m t s := rfl
@[simp] theorem exec_vlog2 {st} {d} {a} {m} {t} : exec (.vlog2 st d a m t) s = execVlog2 st d a m t s := rfl
@[simp] theorem exec_vabs {st} {d} {a} {m} {t} : exec (.vabs st d a m t) s = execVabs st d a m t s := rfl
@[simp] theorem exec_vneg {st} {d} {a} {m} {t} : exec (.vneg st d a m t) s = execVneg st d a m t s := rfl
@[simp] theorem exec_vmv {st} {d} {a} {m} {t} : exec (.vmv st d a m t) s = execVmv st d a m t s := rfl
@[simp] theorem exec_vand {st} {d} {a} {b} {m} {t} : exec (.vand st d a b m t) s = execVand st d a b m t s := rfl
@[simp] theorem exec_vor {st} {d} {a} {b} {m} {t} : exec (.vor st d a b m t) s = execVor st d a b m t s := rfl
@[simp] theorem exec_vxor {st} {d} {a} {b} {m} {t} : exec (.vxor st d a b m t) s = execVxor st d a b m t s := rfl
@[simp] theorem exec_vsll {st} {d} {a} {b} {m} {t} : exec (.vsll st d a b m t) s = execVsll st d a b m t s := rfl
@[simp] theorem exec_vsrl {st} {d} {a} {b} {m} {t} : exec (.vsrl st d a b m t) s = execVsrl st d a b m t s := rfl
@[simp] theorem exec_vsra {st} {d} {a} {b} {m} {t} : exec (.vsra st d a b m t) s = execVsra st d a b m t s := rfl
@[simp] theorem exec_vadds {st} {d} {a} {b} {m} {t} : exec (.vadds st d a b m t) s = execVadds st d a b m t s := rfl
@[simp] theorem exec_vsubs {st} {d} {a} {b} {m} {t} : exec (.vsubs st d a b m t) s = execVsubs st d a b m t s := rfl
@[simp] theorem exec_vmulh {st} {d} {a} {b} {m} {t} : exec (.vmulh st d a b m t) s = execVmulh st d a b m t s := rfl
@[simp] theorem exec_vclz {st} {d} {a} {m} {t} : exec (.vclz st d a m t) s = execVclz st d a m t s := rfl
@[simp] theorem exec_vpopc {st} {d} {a} {m} {t} : exec (.vpopc st d a m t) s = execVpopc st d a m t s := rfl
@[simp] theorem exec_vffs {st} {d} {a} {m} {t} : exec (.vffs st d a m t) s = execVffs st d a m t s := rfl
@[simp] theorem exec_vfma {st} {d} {a} {b} {m} {t} : exec (.vfma st d a b m t) s = execVfma st d a b m t s := rfl
@[simp] theorem exec_vfms {st} {d} {a} {b} {m} {t} : exec (.vfms st d a b m t) s = execVfms st d a b m t s := rfl
@[simp] theorem exec_vfnma {st} {d} {a} {b} {m} {t} : exec (.vfnma st d a b m t) s = execVfnma st d a b m t s := rfl
@[simp] theorem exec_vfnms {st} {d} {a} {b} {m} {t} : exec (.vfnms st d a b m t) s = execVfnms st d a b m t s := rfl
@[simp] theorem exec_vceq {st} {d} {a} {b} {m} {t} : exec (.vceq st d a b m t) s = execVceq st d a b m t s := rfl
@[simp] theorem exec_vcne {st} {d} {a} {b} {m} {t} : exec (.vcne st d a b m t) s = execVcne st d a b m t s := rfl
@[simp] theorem exec_vclt {st} {d} {a} {b} {m} {t} : exec (.vclt st d a b m t) s = execVclt st d a b m t s := rfl
@[simp] theorem exec_vcle {st} {d} {a} {b} {m} {t} : exec (.vcle st d a b m t) s = execVcle st d a b m t s := rfl
@[simp] theorem exec_vcltu {st} {d} {a} {b} {m} {t} : exec (.vcltu st d a b m t) s = execVcltu st d a b m t s := rfl
@[simp] theorem exec_vcleu {st} {d} {a} {b} {m} {t} : exec (.vcleu st d a b m t) s = execVcleu st d a b m t s := rfl
@[simp] theorem exec_vcun {st} {d} {a} {b} {m} {t} : exec (.vcun st d a b m t) s = execVcun st d a b m t s := rfl
@[simp] theorem exec_vsel {st} {d} {a} {b} {t} : exec (.vsel st d a b t) s = execVsel st d a b t s := rfl
@[simp] theorem exec_vcvt {st} {d} {a} {u} {m} {t} {r} : exec (.vcvt st d a u m t r) s = execVcvt st d a u m t r s := rfl
@[simp] theorem exec_vcompress {st} {d} {a} {t} : exec (.vcompress st d a t) s = execVcompress st d a t s := rfl
@[simp] theorem exec_vexpand {st} {d} {a} {t} : exec (.vexpand st d a t) s = execVexpand st d a t s := rfl
@[simp] theorem exec_vperm {st} {d} {a} {b} {m} {t} : exec (.vperm st d a b m t) s = execVperm st d a b m t s := rfl
@[simp] theorem exec_vslideup {st} {d} {a} {b} {m} {t} : exec (.vslideup st d a b m t) s = execVslideup st d a b m t s := rfl
@[simp] theorem exec_vslidedn {st} {d} {a} {b} {m} {t} : exec (.vslidedn st d a b m t) s = execVslidedn st d a b m t s := rfl
@[simp] theorem exec_vbcast {st} {d} {a} {m} {t} : exec (.vbcast st d a m t) s = execVbcast st d a m t s := rfl
@[simp] theorem exec_vextr {st} {d} {a} {b} {t} : exec (.vextr st d a b t) s = execVextr st d a b t s := rfl
@[simp] theorem exec_vidx {st} {d} {m} {t} : exec (.vidx st d m t) s = execVidx st d m t s := rfl
@[simp] theorem exec_vredsum {st} {d} {a} {m} {t} : exec (.vredsum st d a m t) s = execVredsum st d a m t s := rfl
@[simp] theorem exec_vredmax {st} {d} {a} {m} {t} : exec (.vredmax st d a m t) s = execVredmax st d a m t s := rfl
@[simp] theorem exec_vredmin {st} {d} {a} {m} {t} : exec (.vredmin st d a m t) s = execVredmin st d a m t s := rfl
@[simp] theorem exec_vredand {st} {d} {a} {m} {t} : exec (.vredand st d a m t) s = execVredand st d a m t s := rfl
@[simp] theorem exec_vredor {st} {d} {a} {m} {t} : exec (.vredor st d a m t) s = execVredor st d a m t s := rfl
@[simp] theorem exec_vredxor {st} {d} {a} {m} {t} : exec (.vredxor st d a m t) s = execVredxor st d a m t s := rfl
@[simp] theorem exec_vmand {st} {d} {a} {b} {t} : exec (.vmand st d a b t) s = execVmand st d a b t s := rfl
@[simp] theorem exec_vmor {st} {d} {a} {b} {t} : exec (.vmor st d a b t) s = execVmor st d a b t s := rfl
@[simp] theorem exec_vmxor {st} {d} {a} {b} {t} : exec (.vmxor st d a b t) s = execVmxor st d a b t s := rfl
@[simp] theorem exec_vmandn {st} {d} {a} {b} {t} : exec (.vmandn st d a b t) s = execVmandn st d a b t s := rfl
@[simp] theorem exec_vmnot {st} {d} {a} {t} : exec (.vmnot st d a t) s = execVmnot st d a t s := rfl
@[simp] theorem exec_vmpopc {st} {d} {a} {t} : exec (.vmpopc st d a t) s = execVmpopc st d a t s := rfl
@[simp] theorem exec_vmffs {st} {d} {a} {t} : exec (.vmffs st d a t) s = execVmffs st d a t s := rfl
@[simp] theorem exec_ldb {st} {d} {b} {spc} {x} : exec (.ldb st d b spc x) s = execLdb st d b spc x s := rfl
@[simp] theorem exec_ldh {st} {d} {b} {spc} {x} : exec (.ldh st d b spc x) s = execLdh st d b spc x s := rfl
@[simp] theorem exec_ldw {st} {d} {b} {spc} {x} : exec (.ldw st d b spc x) s = execLdw st d b spc x s := rfl
@[simp] theorem exec_ldd {st} {d} {b} {spc} {x} : exec (.ldd st d b spc x) s = execLdd st d b spc x s := rfl
@[simp] theorem exec_ldbu {st} {d} {b} {spc} {x} : exec (.ldbu st d b spc x) s = execLdbu st d b spc x s := rfl
@[simp] theorem exec_ldhu {st} {d} {b} {spc} {x} : exec (.ldhu st d b spc x) s = execLdhu st d b spc x s := rfl
@[simp] theorem exec_ldwu {st} {d} {b} {spc} {x} : exec (.ldwu st d b spc x) s = execLdwu st d b spc x s := rfl
@[simp] theorem exec_stb {st} {d} {b} {spc} {x} : exec (.stb st d b spc x) s = execStb st d b spc x s := rfl
@[simp] theorem exec_sth {st} {d} {b} {spc} {x} : exec (.sth st d b spc x) s = execSth st d b spc x s := rfl
@[simp] theorem exec_stw {st} {d} {b} {spc} {x} : exec (.stw st d b spc x) s = execStw st d b spc x s := rfl
@[simp] theorem exec_std {st} {d} {b} {spc} {x} : exec (.std st d b spc x) s = execStd st d b spc x s := rfl
@[simp] theorem exec_vld {st} {d} {b} {spc} {x} : exec (.vld st d b spc x) s = execVld st d b spc x s := rfl
@[simp] theorem exec_vst {st} {d} {b} {spc} {x} : exec (.vst st d b spc x) s = execVst st d b spc x s := rfl
@[simp] theorem exec_ldf {d} {b} {x} : exec (.ldf d b x) s = execLdf d b x s := rfl
@[simp] theorem exec_ldfn {d} {b} {x} : exec (.ldfn d b x) s = execLdfn d b x s := rfl
@[simp] theorem exec_ste {d} {b} {x} : exec (.ste d b x) s = execSte d b x s := rfl
@[simp] theorem exec_stf {st} {d} {b} {x} : exec (.stf st d b x) s = execStf st d b x s := rfl
@[simp] theorem exec_amoswap {d} {a} {b} {z} {sc} : exec (.amoswap d a b z sc) s = execAmoswap d a b z sc s := rfl
@[simp] theorem exec_amocas {d} {a} {b} {z} {sc} : exec (.amocas d a b z sc) s = execAmocas d a b z sc s := rfl
@[simp] theorem exec_amoadd {d} {a} {b} {z} {sc} : exec (.amoadd d a b z sc) s = execAmoadd d a b z sc s := rfl
@[simp] theorem exec_amoand {d} {a} {b} {z} {sc} : exec (.amoand d a b z sc) s = execAmoand d a b z sc s := rfl
@[simp] theorem exec_amoor {d} {a} {b} {z} {sc} : exec (.amoor d a b z sc) s = execAmoor d a b z sc s := rfl
@[simp] theorem exec_amoxor {d} {a} {b} {z} {sc} : exec (.amoxor d a b z sc) s = execAmoxor d a b z sc s := rfl
@[simp] theorem exec_amomin {d} {a} {b} {z} {sc} : exec (.amomin d a b z sc) s = execAmomin d a b z sc s := rfl
@[simp] theorem exec_amomax {d} {a} {b} {z} {sc} : exec (.amomax d a b z sc) s = execAmomax d a b z sc s := rfl
@[simp] theorem exec_amominu {d} {a} {b} {z} {sc} : exec (.amominu d a b z sc) s = execAmominu d a b z sc s := rfl
@[simp] theorem exec_amomaxu {d} {a} {b} {z} {sc} : exec (.amomaxu d a b z sc) s = execAmomaxu d a b z sc s := rfl
@[simp] theorem exec_redadd {st} {a} {b} {z} {sc} : exec (.redadd st a b z sc) s = execRedadd st a b z sc s := rfl
@[simp] theorem exec_redand {st} {a} {b} {z} {sc} : exec (.redand st a b z sc) s = execRedand st a b z sc s := rfl
@[simp] theorem exec_redor {st} {a} {b} {z} {sc} : exec (.redor st a b z sc) s = execRedor st a b z sc s := rfl
@[simp] theorem exec_redxor {st} {a} {b} {z} {sc} : exec (.redxor st a b z sc) s = execRedxor st a b z sc s := rfl
@[simp] theorem exec_redmin {st} {a} {b} {z} {sc} : exec (.redmin st a b z sc) s = execRedmin st a b z sc s := rfl
@[simp] theorem exec_redmax {st} {a} {b} {z} {sc} : exec (.redmax st a b z sc) s = execRedmax st a b z sc s := rfl
@[simp] theorem exec_redminu {st} {a} {b} {z} {sc} : exec (.redminu st a b z sc) s = execRedminu st a b z sc s := rfl
@[simp] theorem exec_redmaxu {st} {a} {b} {z} {sc} : exec (.redmaxu st a b z sc) s = execRedmaxu st a b z sc s := rfl
@[simp] theorem exec_redfmin {st} {a} {b} {sc} : exec (.redfmin st a b sc) s = execRedfmin st a b sc s := rfl
@[simp] theorem exec_redfmax {st} {a} {b} {sc} : exec (.redfmax st a b sc) s = execRedfmax st a b sc s := rfl
@[simp] theorem exec_xaadd {st} {a} {b} {sc} {t} : exec (.xaadd st a b sc t) s = execXaadd st a b sc t s := rfl
@[simp] theorem exec_xard {st} {d} {a} {r} {f} : exec (.xard st d a r f) s = execXard st d a r f s := rfl
@[simp] theorem exec_lease {st} {a} : exec (.lease st a) s = execLease st a s := rfl
@[simp] theorem exec_lrel : exec (.lrel) s = execLrel s := rfl
@[simp] theorem exec_fence {st} {sc} : exec (.fence st sc) s = execFence st sc s := rfl
@[simp] theorem exec_barv {st} {a} : exec (.barv st a) s = execBarv st a s := rfl
@[simp] theorem exec_barvx {st} {a} {b} : exec (.barvx st a b) s = execBarvx st a b s := rfl
@[simp] theorem exec_bwait {a} {b} : exec (.bwait a b) s = execBwait a b s := rfl
@[simp] theorem exec_tlwait {a} {b} : exec (.tlwait a b) s = execTlwait a b s := rfl
@[simp] theorem exec_ttdef {st} {a} {b} : exec (.ttdef st a b) s = execTtdef st a b s := rfl
@[simp] theorem exec_ttwait {a} : exec (.ttwait a) s = execTtwait a s := rfl
@[simp] theorem exec_ttrel {st} {a} : exec (.ttrel st a) s = execTtrel st a s := rfl
@[simp] theorem exec_mturn {st} {d} {a} : exec (.mturn st d a) s = execMturn st d a s := rfl
@[simp] theorem exec_mtend {st} {d} : exec (.mtend st d) s = execMtend st d s := rfl
@[simp] theorem exec_mringcfg {st} {d} {a} {b} : exec (.mringcfg st d a b) s = execMringcfg st d a b s := rfl
@[simp] theorem exec_mringadv {st} {d} {a} {b} : exec (.mringadv st d a b) s = execMringadv st d a b s := rfl
@[simp] theorem exec_mzero {st} {d} {a} : exec (.mzero st d a) s = execMzero st d a s := rfl
@[simp] theorem exec_mma {st} {d} {a} {b} {o} : exec (.mma st d a b o) s = execMma st d a b o s := rfl
@[simp] theorem exec_mmax {st} {d} {a} {b} : exec (.mmax st d a b) s = execMmax st d a b s := rfl
@[simp] theorem exec_mrec {st} {d} {a} {b} : exec (.mrec st d a b) s = execMrec st d a b s := rfl
@[simp] theorem exec_mldprog {st} {d} {a} : exec (.mldprog st d a) s = execMldprog st d a s := rfl
@[simp] theorem exec_maccrd {st} {d} {a} {b} {i} : exec (.maccrd st d a b i) s = execMaccrd st d a b i s := rfl
@[simp] theorem exec_maccwr {st} {d} {a} {b} : exec (.maccwr st d a b) s = execMaccwr st d a b s := rfl
@[simp] theorem exec_mstat {st} {d} {a} {l} : exec (.mstat st d a l) s = execMstat st d a l s := rfl
@[simp] theorem exec_scopy {st} {d} {a} {q} : exec (.scopy st d a q) s = execScopy st d a q s := rfl
@[simp] theorem exec_scopy2d {st} {d} {a} {q} : exec (.scopy2d st d a q) s = execScopy2d st d a q s := rfl
@[simp] theorem exec_sfill {st} {d} {a} {q} : exec (.sfill st d a q) s = execSfill st d a q s := rfl
@[simp] theorem exec_scvt {st} {d} {a} {q} : exec (.scvt st d a q) s = execScvt st d a q s := rfl
@[simp] theorem exec_shint {st} {d} {a} {q} : exec (.shint st d a q) s = execShint st d a q s := rfl
@[simp] theorem exec_sqcfg {st} {d} {a} {q} : exec (.sqcfg st d a q) s = execSqcfg st d a q s := rfl
@[simp] theorem exec_sqstat {st} {d} {a} {q} : exec (.sqstat st d a q) s = execSqstat st d a q s := rfl
@[simp] theorem exec_sqstatNamed {st} {d} {a} {b} : exec (.sqstatNamed st d a b) s = execSqstatNamed st d a b s := rfl
@[simp] theorem exec_sqrst {st} {d} {q} : exec (.sqrst st d q) s = execSqrst st d q s := rfl
@[simp] theorem exec_cdef {st} {d} {a} : exec (.cdef st d a) s = execCdef st d a s := rfl
@[simp] theorem exec_crsz {st} {d} {a} : exec (.crsz st d a) s = execCrsz st d a s := rfl
@[simp] theorem exec_cflush {st} {d} {a} {b} : exec (.cflush st d a b) s = execCflush st d a b s := rfl
@[simp] theorem exec_cinval {st} {d} {a} {b} : exec (.cinval st d a b) s = execCinval st d a b s := rfl
@[simp] theorem exec_cquery {st} {d} {a} {b} {l} : exec (.cquery st d a b l) s = execCquery st d a b l s := rfl
@[simp] theorem exec_cplace {st} {d} {a} {b} : exec (.cplace st d a b) s = execCplace st d a b s := rfl
@[simp] theorem exec_cdrop {st} {d} {a} : exec (.cdrop st d a) s = execCdrop st d a s := rfl
@[simp] theorem exec_map {st} {d} {a} : exec (.map st d a) s = execMap st d a s := rfl
@[simp] theorem exec_grant {st} {d} {a} : exec (.grant st d a) s = execGrant st d a s := rfl
@[simp] theorem exec_unmap {st} {d} {a} {b} : exec (.unmap st d a b) s = execUnmap st d a b s := rfl
@[simp] theorem exec_unmapx {st} {d} {a} {b} : exec (.unmapx st d a b) s = execUnmapx st d a b s := rfl
@[simp] theorem exec_send {st} {d} {a} : exec (.send st d a) s = execSend st d a s := rfl
@[simp] theorem exec_recv {a} {b} {p} : exec (.recv a b p) s = execRecv a b p s := rfl
@[simp] theorem exec_call {a} {b} : exec (.call a b) s = execCall a b s := rfl
@[simp] theorem exec_reply {st} {d} {a} : exec (.reply st d a) s = execReply st d a s := rfl
@[simp] theorem exec_epdrop {st} {d} {a} : exec (.epdrop st d a) s = execEpdrop st d a s := rfl
@[simp] theorem exec_epinfo {st} {d} {a} : exec (.epinfo st d a) s = execEpinfo st d a s := rfl
@[simp] theorem exec_chbind {st} {d} {a} {b} : exec (.chbind st d a b) s = execChbind st d a b s := rfl
@[simp] theorem exec_mquery {st} {d} {a} {b} {l} : exec (.mquery st d a b l) s = execMquery st d a b l s := rfl
@[simp] theorem exec_spawn {st} {a} : exec (.spawn st a) s = execSpawn st a s := rfl
@[simp] theorem exec_spawng {st} {a} : exec (.spawng st a) s = execSpawng st a s := rfl
@[simp] theorem exec_pdec {st} {a} : exec (.pdec st a) s = execPdec st a s := rfl
@[simp] theorem exec_chpri {st} {a} : exec (.chpri st a) s = execChpri st a s := rfl
@[simp] theorem exec_endOp : exec (.endOp) s = execEndOp s := rfl
@[simp] theorem exec_ginfo {st} {d} {a} : exec (.ginfo st d a) s = execGinfo st d a s := rfl
@[simp] theorem exec_affin {st} {a} : exec (.affin st a) s = execAffin st a s := rfl
@[simp] theorem exec_wstat {st} {d} {a} {l} : exec (.wstat st d a l) s = execWstat st d a l s := rfl
@[simp] theorem exec_setshp {st} {d} {a} : exec (.setshp st d a) s = execSetshp st d a s := rfl
@[simp] theorem exec_ckpt : exec (.ckpt) s = execCkpt s := rfl
@[simp] theorem exec_yield : exec (.yield) s = execYield s := rfl
@[simp] theorem exec_trap {a} {b} {c} : exec (.trap a b c) s = execTrap a b c s := rfl
@[simp] theorem exec_bkpt : exec (.bkpt) s = execBkpt s := rfl
@[simp] theorem exec_rpt {c} {l} {x} {y} {z} {e} : exec (.rpt c l x y z e) s = execRpt c l x y z e s := rfl
@[simp] theorem exec_pfx {p} : exec (.pfx p) s = execPfx p s := rfl
@[simp] theorem exec_leasemaxWrite {b} {v} : exec (.leasemaxWrite b v) s = execLeasemaxWrite b v s := rfl
@[simp] theorem exec_tleaseWrite {b} {v} : exec (.tleaseWrite b v) s = execTleaseWrite b v s := rfl
@[simp] theorem exec_slotcfgWrite {b} {v} : exec (.slotcfgWrite b v) s = execSlotcfgWrite b v s := rfl
@[simp] theorem exec_fpflagsWrite {b} {v} : exec (.fpflagsWrite b v) s = execFpflagsWrite b v s := rfl
@[simp] theorem exec_sysregWrite {b} {n} {v} : exec (.sysregWrite b n v) s = execSysregWrite b n v s := rfl
@[simp] theorem exec_feHeldPerform {b} : exec (.feHeldPerform b) s = execFeHeldPerform b s := rfl
@[simp] theorem exec_matrixCommandBegin {flight} : exec (.matrixCommandBegin flight) s = execMatrixCommandBegin flight s := rfl
@[simp] theorem exec_matrixCommandComplete {flight} : exec (.matrixCommandComplete flight) s = execMatrixCommandComplete flight s := rfl
@[simp] theorem exec_turnRelease {core} : exec (.turnRelease core) s = execTurnRelease core s := rfl
@[simp] theorem exec_sluiceCommandBegin {flight} {q} : exec (.sluiceCommandBegin flight q) s = execSluiceCommandBegin flight q s := rfl
@[simp] theorem exec_sluiceCommandComplete {flight} {q} {n} : exec (.sluiceCommandComplete flight q n) s = execSluiceCommandComplete flight q n s := rfl
@[simp] theorem exec_sluiceTimeout {flight} {q} {n} : exec (.sluiceTimeout flight q n) s = execSluiceTimeout flight q n s := rfl
@[simp] theorem exec_composerCommandComplete {vcid} : exec (.composerCommandComplete vcid) s = execComposerCommandComplete vcid s := rfl
@[simp] theorem exec_resizeLineMove {vcid} : exec (.resizeLineMove vcid) s = execResizeLineMove vcid s := rfl
@[simp] theorem exec_bankShareFault {die} {share} : exec (.bankShareFault die share) s = execBankShareFault die share s := rfl
@[simp] theorem exec_mappingCommandBegin {ctx} : exec (.mappingCommandBegin ctx) s = execMappingCommandBegin ctx s := rfl
@[simp] theorem exec_mappingCommandComplete {ctx} : exec (.mappingCommandComplete ctx) s = execMappingCommandComplete ctx s := rfl
@[simp] theorem exec_contextFree {ctx} : exec (.contextFree ctx) s = execContextFree ctx s := rfl
@[simp] theorem exec_heldFaultQueue {chan} : exec (.heldFaultQueue chan) s = execHeldFaultQueue chan s := rfl
@[simp] theorem exec_leaseExpiry {b} : exec (.leaseExpiry b) s = execLeaseExpiry b s := rfl
@[simp] theorem exec_preemption {b} : exec (.preemption b) s = execPreemption b s := rfl
@[simp] theorem exec_shootdown {party} : exec (.shootdown party) s = execShootdown party s := rfl
@[simp] theorem exec_shootdownAck {party} : exec (.shootdownAck party) s = execShootdownAck party s := rfl
@[simp] theorem exec_backInvalidate {core} {granule} {drop} : exec (.backInvalidate core granule drop) s = execBackInvalidate core granule drop s := rfl
@[simp] theorem exec_translationWalk {core} {ctx} {va} : exec (.translationWalk core ctx va) s = execTranslationWalk core ctx va s := rfl
@[simp] theorem exec_translationLeaseExpiry {core} {node} : exec (.translationLeaseExpiry core node) s = execTranslationLeaseExpiry core node s := rfl
@[simp] theorem exec_slotDispatch {die} : exec (.slotDispatch die) s = execSlotDispatch die s := rfl
@[simp] theorem exec_weirPeriod {die} : exec (.weirPeriod die) s = execWeirPeriod die s := rfl
@[simp] theorem exec_flightJoin {flight} : exec (.flightJoin flight) s = execFlightJoin flight s := rfl
@[simp] theorem exec_slotBoundary : exec (.slotBoundary) s = execSlotBoundary s := rfl
@[simp] theorem exec_notifyWrite {port} {off} {size} {v} : exec (.notifyWrite port off size v) s = execNotifyWrite port off size v s := rfl
@[simp] theorem exec_dispatch {port} {q} : exec (.dispatch port q) s = execDispatch port q s := rfl
@[simp] theorem exec_dispatchg {port} {q} : exec (.dispatchg port q) s = execDispatchg port q s := rfl
@[simp] theorem exec_order {port} {q} : exec (.order port q) s = execOrder port q s := rfl
@[simp] theorem exec_maint {port} {q} : exec (.maint port q) s = execMaint port q s := rfl
@[simp] theorem exec_packetCompletion {port} {q} {n} : exec (.packetCompletion port q n) s = execPacketCompletion port q n s := rfl
@[simp] theorem exec_ctxcreate {port} {q} : exec (.ctxcreate port q) s = execCtxcreate port q s := rfl
@[simp] theorem exec_ctxdestroy {port} {q} : exec (.ctxdestroy port q) s = execCtxdestroy port q s := rfl
@[simp] theorem exec_bindq {port} {q} : exec (.bindq port q) s = execBindq port q s := rfl
@[simp] theorem exec_resetq {port} {q} : exec (.resetq port q) s = execResetq port q s := rfl
@[simp] theorem exec_unbindq {port} {q} : exec (.unbindq port q) s = execUnbindq port q s := rfl
@[simp] theorem exec_setlimit {port} {q} : exec (.setlimit port q) s = execSetlimit port q s := rfl
@[simp] theorem exec_tenant {port} {q} : exec (.tenant port q) s = execTenant port q s := rfl
@[simp] theorem exec_slotset {port} {q} : exec (.slotset port q) s = execSlotset port q s := rfl
@[simp] theorem exec_epset {port} {q} : exec (.epset port q) s = execEpset port q s := rfl
@[simp] theorem exec_chown {port} {q} : exec (.chown port q) s = execChown port q s := rfl
@[simp] theorem exec_unisolate {port} {q} : exec (.unisolate port q) s = execUnisolate port q s := rfl
@[simp] theorem exec_bias {port} {q} : exec (.bias port q) s = execBias port q s := rfl
@[simp] theorem exec_intrset {port} {q} : exec (.intrset port q) s = execIntrset port q s := rfl
@[simp] theorem exec_evring {port} {q} : exec (.evring port q) s = execEvring port q s := rfl
@[simp] theorem exec_inject {port} {q} : exec (.inject port q) s = execInject port q s := rfl
@[simp] theorem exec_peerset {port} {q} : exec (.peerset port q) s = execPeerset port q s := rfl
@[simp] theorem exec_exportOp {port} {q} : exec (.exportOp port q) s = execExportOp port q s := rfl
@[simp] theorem exec_hostAccessTimeout {b} : exec (.hostAccessTimeout b) s = execHostAccessTimeout b s := rfl
@[simp] theorem exec_hostMemoryAccess {port} {wr} {pa} {data} : exec (.hostMemoryAccess port wr pa data) s = execHostMemoryAccess port wr pa data s := rfl
@[simp] theorem exec_atsInvalidation {port} {base} {len} : exec (.atsInvalidation port base len) s = execAtsInvalidation port base len s := rfl
@[simp] theorem exec_expanderHotAdd {e} {port} : exec (.expanderHotAdd e port) s = execExpanderHotAdd e port s := rfl
@[simp] theorem exec_imageWrite {image} : exec (.imageWrite image) s = execImageWrite image s := rfl
@[simp] theorem exec_getVersion {port} {req} : exec (.getVersion port req) s = execGetVersion port req s := rfl
@[simp] theorem exec_getCapabilities {port} {req} : exec (.getCapabilities port req) s = execGetCapabilities port req s := rfl
@[simp] theorem exec_negotiateAlgorithms {port} {req} : exec (.negotiateAlgorithms port req) s = execNegotiateAlgorithms port req s := rfl
@[simp] theorem exec_getDigests {port} {req} : exec (.getDigests port req) s = execGetDigests port req s := rfl
@[simp] theorem exec_getCertificate {port} {req} : exec (.getCertificate port req) s = execGetCertificate port req s := rfl
@[simp] theorem exec_challenge {port} {req} : exec (.challenge port req) s = execChallenge port req s := rfl
@[simp] theorem exec_getMeasurements {port} {req} : exec (.getMeasurements port req) s = execGetMeasurements port req s := rfl
@[simp] theorem exec_keyExchange {port} {req} : exec (.keyExchange port req) s = execKeyExchange port req s := rfl
@[simp] theorem exec_finish {port} {req} : exec (.finish port req) s = execFinish port req s := rfl
@[simp] theorem exec_endSession {port} {req} : exec (.endSession port req) s = execEndSession port req s := rfl
@[simp] theorem exec_configLocked {port} {q} : exec (.configLocked port q) s = execConfigLocked port q s := rfl
@[simp] theorem exec_run {port} {q} : exec (.run port q) s = execRun port q s := rfl
@[simp] theorem exec_error {port} {q} : exec (.error port q) s = execError port q s := rfl
@[simp] theorem exec_ideIntegrityFailure {port} {q} : exec (.ideIntegrityFailure port q) s = execIdeIntegrityFailure port q s := rfl
@[simp] theorem exec_counterWindow : exec (.counterWindow) s = execCounterWindow s := rfl
@[simp] theorem exec_coldStart : exec (.coldStart) s = execColdStart s := rfl
@[simp] theorem exec_warmStart : exec (.warmStart) s = execWarmStart s := rfl
@[simp] theorem exec_powerLimit {mw} : exec (.powerLimit mw) s = execPowerLimit mw s := rfl
@[simp] theorem exec_throttle {die} : exec (.throttle die) s = execThrottle die s := rfl
@[simp] theorem exec_trip {die} : exec (.trip die) s = execTrip die s := rfl
@[simp] theorem exec_linkFlitReceive {link} {crcOk} {hdr} : exec (.linkFlitReceive link crcOk hdr) s = execLinkFlitReceive link crcOk hdr s := rfl
@[simp] theorem exec_linkRequest {peer} {tag} {wr} {off} {len} {data} {note} : exec (.linkRequest peer tag wr off len data note) s = execLinkRequest peer tag wr off len data note s := rfl
@[simp] theorem exec_linkResponse {flight} {q} {n} {data} {status} : exec (.linkResponse flight q n data status) s = execLinkResponse flight q n data status s := rfl
@[simp] theorem exec_linkDown {link} {cause} : exec (.linkDown link cause) s = execLinkDown link cause s := rfl
@[simp] theorem exec_peerTimeout {peer} {cause} : exec (.peerTimeout peer cause) s = execPeerTimeout peer cause s := rfl
@[simp] theorem exec_viewAppliesWrite {die} {k} : exec (.viewAppliesWrite die k) s = execViewAppliesWrite die k s := rfl
@[simp] theorem exec_injectionTakesEffect {k} : exec (.injectionTakesEffect k) s = execInjectionTakesEffect k s := rfl
@[simp] theorem exec_configUnlocked {port} {q} : exec (.configUnlocked port q) s = execConfigUnlocked port q s := rfl

end Sys2Proof.Machine
end

