-- ==== Sys2Proof/Laws/Tables.lean ====
section
/-! SUPPORT. The laws of sparse tables: reading what was written, and the canonical form that every write keeps. -/

namespace Sys2Proof.Machine

variable {α : Type}

/-! ## Reading after a write -/

@[simp] theorem tget_tset_same (t : Tab α) (k : Nat) (v : α) : tget (tset t k v) k = some v := by
  induction t with
  | nil => simp [tset, tget]
  | cons e r ih =>
    obtain ⟨j, w⟩ := e
    by_cases h : k < j
    · simp [tset, tget, h]
    · by_cases h' : k = j
      · simp [tset, tget, h, h']
      · simp [tset, tget, h, h', ih]

theorem tget_tset_other (t : Tab α) {k i : Nat} (v : α) (h : i ≠ k) : tget (tset t k v) i = tget t i := by
  induction t with
  | nil => simp [tset, tget, h]
  | cons e r ih =>
    obtain ⟨j, w⟩ := e
    by_cases h1 : k < j
    · by_cases h2 : i < k
      · have : ¬ i = j := by omega
        have : i < j := by omega
        simp [tset, tget, *]
      · simp [tset, tget, *]
    · by_cases h2 : k = j
      · subst h2; simp [tset, tget, h]
      · simp [tset, tget, h1, h2, ih]

@[simp] theorem tset_tset (t : Tab α) (k : Nat) (v w : α) : tset (tset t k v) k w = tset t k w := by
  induction t with
  | nil => simp [tset]
  | cons e r ih =>
    obtain ⟨j, x⟩ := e
    by_cases h : k < j
    · simp [tset, h]
    · by_cases h' : k = j
      · subst h'; simp [tset]
      · simp [tset, h, h', ih]

theorem tset_self {t : Tab α} {k : Nat} {v : α} (h : tget t k = some v) : tset t k v = t := by
  induction t with
  | nil => simp [tget] at h
  | cons e r ih =>
    obtain ⟨j, w⟩ := e
    by_cases h1 : k = j
    · simp [tget, h1] at h; simp [tset, h1, h]
    · by_cases h2 : k < j
      · simp [tget, h1, h2] at h
      · simp [tget, h1, h2] at h; simp [tset, h1, h2, ih h]

/-! ## The canonical form -/

theorem tsorted_mono {t : Tab α} {a b : Nat} (h : tsorted t a = true) (hab : b ≤ a) : tsorted t b = true := by
  cases t with
  | nil => rfl
  | cons e r => obtain ⟨j, w⟩ := e; simp [tsorted] at h ⊢; exact ⟨by omega, h.2⟩

theorem tget_below {t : Tab α} {lo k : Nat} (h : tsorted t lo = true) (hk : k < lo) : tget t k = none := by
  cases t with
  | nil => rfl
  | cons e r =>
    obtain ⟨j, w⟩ := e
    simp [tsorted] at h
    have h1 : ¬ k = j := by omega
    have h2 : k < j := by omega
    simp [tget, h1, h2]

theorem tsorted_tset {t : Tab α} {lo k : Nat} (v : α) (h : tsorted t lo = true) (hk : lo ≤ k) : tsorted (tset t k v) lo = true := by
  induction t generalizing lo with
  | nil => simp [tset, tsorted, hk]
  | cons e r ih =>
    obtain ⟨j, w⟩ := e
    simp [tsorted] at h
    by_cases h1 : k < j
    · simp [tset, tsorted, h1, hk, h.2]
    · by_cases h2 : k = j
      · subst h2; simp [tset, tsorted, h]
      · simp [tset, tsorted, h1, h2, h.1]; exact ih h.2 (by omega)

theorem tsorted_tdel {t : Tab α} {lo : Nat} (k : Nat) (h : tsorted t lo = true) : tsorted (tdel t k) lo = true := by
  induction t generalizing lo with
  | nil => rfl
  | cons e r ih =>
    obtain ⟨j, w⟩ := e
    simp [tsorted] at h
    by_cases h1 : k < j
    · simp [tdel, tsorted, h1, h]
    · by_cases h2 : k = j
      · subst h2; simp [tdel]; exact tsorted_mono h.2 (by omega)
      · simp [tdel, tsorted, h1, h2, h.1]; exact ih h.2

theorem tget_tdel_same {t : Tab α} {lo : Nat} (k : Nat) (h : tsorted t lo = true) : tget (tdel t k) k = none := by
  induction t generalizing lo with
  | nil => rfl
  | cons e r ih =>
    obtain ⟨j, w⟩ := e
    simp [tsorted] at h
    by_cases h1 : k < j
    · have h2 : ¬ k = j := by omega
      simp [tdel, tget, h1, h2]
    · by_cases h2 : k = j
      · subst h2; simp [tdel]; exact tget_below h.2 (by omega)
      · simp [tdel, tget, h1, h2]; exact ih h.2

theorem tget_tdel_other {t : Tab α} {lo k i : Nat} (h : tsorted t lo = true) (hi : i ≠ k) : tget (tdel t k) i = tget t i := by
  induction t generalizing lo with
  | nil => rfl
  | cons e r ih =>
    obtain ⟨j, w⟩ := e
    simp [tsorted] at h
    by_cases h1 : k < j
    · simp [tdel, h1]
    · by_cases h2 : k = j
      · subst h2
        by_cases h3 : i < k
        · simp [tdel, tget, hi, h3]; exact tget_below h.2 (by omega)
        · simp [tdel, tget, hi, h3]
      · simp [tdel, tget, h1, h2]; rw [ih h.2]

theorem tdel_of_tget_none {t : Tab α} {k : Nat} (h : tget t k = none) : tdel t k = t := by
  induction t with
  | nil => rfl
  | cons e r ih =>
    obtain ⟨j, w⟩ := e
    by_cases h1 : k = j
    · simp [tget, h1] at h
    · by_cases h2 : k < j
      · simp [tdel, h2]
      · simp [tget, h1, h2] at h; simp [tdel, h1, h2, ih h]

theorem mem_tset {t : Tab α} {k : Nat} {v : α} {e : Nat × α} (h : e ∈ tset t k v) : e = (k, v) ∨ e ∈ t := by
  induction t with
  | nil => simp [tset] at h; exact .inl h
  | cons x r ih =>
    obtain ⟨j, w⟩ := x
    by_cases h1 : k < j
    · simp [tset, h1] at h; rcases h with h | h | h <;> simp [h]
    · by_cases h2 : k = j
      · simp [tset, h2] at h; rcases h with h | h
        · subst h2; exact .inl h
        · simp [h]
      · simp [tset, h1, h2] at h; rcases h with h | h
        · simp [h]
        · rcases ih h with h | h <;> simp [h]

theorem mem_tdel {t : Tab α} {k : Nat} {e : Nat × α} (h : e ∈ tdel t k) : e ∈ t := by
  induction t with
  | nil => simp [tdel] at h
  | cons x r ih =>
    obtain ⟨j, w⟩ := x
    by_cases h1 : k < j
    · simpa [tdel, h1] using h
    · by_cases h2 : k = j
      · simp [tdel, h2] at h; simp [h]
      · simp [tdel, h1, h2] at h; rcases h with h | h
        · simp [h]
        · simp [ih h]

theorem twf_iff [DecidableEq α] (d : α) (t : Tab α) : twf d t = true ↔ tsorted t 0 = true ∧ ∀ e ∈ t, e.2 ≠ d := by
  simp [twf]

/-- Writing keeps the canonical form. -/
theorem twf_tput [DecidableEq α] {d : α} {t : Tab α} (k : Nat) (v : α) (h : twf d t = true) : twf d (tput d t k v) = true := by
  rw [twf_iff] at h ⊢
  unfold tput
  split
  · exact ⟨tsorted_tdel k h.1, fun e he => h.2 e (mem_tdel he)⟩
  · rename_i hv
    refine ⟨tsorted_tset v h.1 (Nat.zero_le _), fun e he => ?_⟩
    rcases mem_tset he with rfl | he
    · exact hv
    · exact h.2 e he

/-- A read after a write to the same key gives what was written. -/
theorem tgetD_tput_same [DecidableEq α] {d : α} {t : Tab α} (k : Nat) (v : α) (h : twf d t = true) :
    tgetD d (tput d t k v) k = v := by
  rw [twf_iff] at h
  unfold tput tgetD
  split
  · rename_i hv; rw [tget_tdel_same k h.1, hv]; rfl
  · rw [tget_tset_same]; rfl

/-- A write leaves every other key alone. -/
theorem tgetD_tput_other [DecidableEq α] {d : α} {t : Tab α} {k i : Nat} (v : α) (h : twf d t = true) (hi : i ≠ k) :
    tgetD d (tput d t k v) i = tgetD d t i := by
  rw [twf_iff] at h
  unfold tput tgetD
  split
  · rw [tget_tdel_other h.1 hi]
  · rw [tget_tset_other t v hi]

theorem twf_filter [DecidableEq α] {d : α} {t : Tab α} (p : Nat × α → Bool) (h : twf d t = true) : twf d (t.filter p) = true := by
  rw [twf_iff] at h ⊢
  refine ⟨?_, fun e he => h.2 e (List.mem_filter.mp he).1⟩
  have hs : ∀ lo, tsorted t lo = true → tsorted (t.filter p) lo = true := by
    clear h
    induction t with
    | nil => intro lo h; exact h
    | cons x r ih =>
      obtain ⟨j, w⟩ := x
      intro lo h
      simp [tsorted] at h
      by_cases hp : p (j, w) = true
      · simp [List.filter_cons, hp, tsorted, h.1, ih _ h.2]
      · simp [List.filter_cons, hp]; exact tsorted_mono (ih _ h.2) (by omega)
  exact hs 0 h.1

/-! ## Runs of bytes -/

theorem twf_writeTab {t : Tab Byte} (a : Nat) (bs : List Byte) (h : twf 0 t = true) : twf 0 (writeTab t a bs) = true := by
  induction bs generalizing t a with
  | nil => exact h
  | cons b r ih => exact ih (a + 1) (twf_tput a b h)

/-- A byte outside the written range reads as before. -/
theorem writeTab_outside {t : Tab Byte} {a i : Nat} (bs : List Byte) (h : twf 0 t = true) (hi : i < a ∨ a + bs.length ≤ i) :
    tgetD 0 (writeTab t a bs) i = tgetD 0 t i := by
  induction bs generalizing t a with
  | nil => rfl
  | cons b r ih =>
    simp at hi
    show tgetD 0 (writeTab (tput 0 t a b) (a + 1) r) i = _
    rw [ih (twf_tput a b h) (by omega), tgetD_tput_other b h (by omega)]

/-- A byte inside it reads as written. -/
theorem writeTab_inside {t : Tab Byte} {a k : Nat} (bs : List Byte) (h : twf 0 t = true) (hk : k < bs.length) :
    tgetD 0 (writeTab t a bs) (a + k) = bs.getD k 0 := by
  induction bs generalizing t a k with
  | nil => simp at hk
  | cons b r ih =>
    show tgetD 0 (writeTab (tput 0 t a b) (a + 1) r) (a + k) = _
    cases k with
    | zero =>
      have e : a + 0 = a := rfl
      rw [e, writeTab_outside r (twf_tput a b h) (by omega), tgetD_tput_same a b h]; rfl
    | succ k =>
      have e : a + (k + 1) = a + 1 + k := by omega
      rw [e, ih (twf_tput a b h) (by simpa using hk)]; simp

theorem twf_fillTab [DecidableEq α] {d : α} {t : Tab α} (a n : Nat) (v : α) (h : twf d t = true) :
    twf d (fillTab d t a n v) = true := by
  induction n generalizing t a with
  | zero => exact h
  | succ n ih => exact ih (a + 1) (twf_tput a v h)

theorem readTab_length (t : Tab Byte) (a n : Nat) : (readTab t a n).length = n := by
  induction n generalizing a with
  | zero => rfl
  | succ n ih => simp [readTab, ih]

theorem leBytes_length (n v : Nat) : (leBytes n v).length = n := by
  induction n generalizing v with
  | zero => rfl
  | succ n ih => simp [leBytes, ih]

/-! ## Barges -/

@[simp] theorem State.barge?_setB (s : State) (bid : Nat) (b : Barge) : (s.setB bid b).barge? bid = some b := by
  simp [State.barge?, State.setB]

theorem State.barge?_setB_other (s : State) {bid k : Nat} (b : Barge) (h : k ≠ bid) :
    (s.setB bid b).barge? k = s.barge? k := by
  simp [State.barge?, State.setB, tget_tset_other _ _ h]

@[simp] theorem State.setB_setB (s : State) (bid : Nat) (a b : Barge) : (s.setB bid a).setB bid b = s.setB bid b := by
  simp [State.setB]

@[simp] theorem State.barge_setB (s : State) (bid : Nat) (b : Barge) : (s.setB bid b).barge bid = b := by
  simp [State.barge, State.setB, tgetD]

@[simp] theorem State.updB_setB (s : State) (bid : Nat) (b : Barge) (f : Barge → Barge) :
    (s.setB bid b).updB bid f = s.setB bid (f b) := by
  unfold State.updB; simp [State.setB]

end Sys2Proof.Machine
end

