-- ==== Sys2Proof/Laws/Memory.lean ====
section
/-! SUPPORT. The operations over global memory keep its canonical form: one lemma for each operation that writes a view. -/

namespace Sys2Proof.Machine

theorem MemSt.wf_iff (m : MemSt) : m.wf = true ↔ ∀ d, Memory.wf (m.view d) = true := by
  refine ⟨fun h d => ?_, fun h => ?_⟩
  · simp only [MemSt.wf, Bool.and_eq_true] at h
    obtain ⟨⟨⟨h0, h1⟩, h2⟩, h3⟩ := h
    unfold MemSt.view
    split <;> assumption
  · simp only [MemSt.wf, Bool.and_eq_true]
    exact ⟨⟨⟨h 0, h 1⟩, h 2⟩, h 3⟩

/-- Memory after reset. -/
theorem reset_memWf : State.reset.MemWf := rfl

/-- The fields beside the views do not matter to the form. -/
theorem MemSt.wf_congr {m n : MemSt} (h : m.wf = true) (h0 : n.view0 = m.view0) (h1 : n.view1 = m.view1)
    (h2 : n.view2 = m.view2) (h3 : n.view3 = m.view3) : n.wf = true := by
  simpa [MemSt.wf, h0, h1, h2, h3] using h

theorem MemSt.wf_setView {m : MemSt} {v : Memory} (d : Nat) (h : m.wf = true) (hv : Memory.wf v = true) :
    (m.setView d v).wf = true := by
  simp only [MemSt.wf, Bool.and_eq_true] at h ⊢
  obtain ⟨⟨⟨h0, h1⟩, h2⟩, h3⟩ := h
  unfold MemSt.setView
  split <;> simp [*]

/-- What every step of a fold keeps, the fold keeps. -/
theorem foldl_keeps {α β : Type} {P : α → Prop} {f : α → β → α} (h : ∀ a b, P a → P (f a b)) (l : List β) {a : α} (ha : P a) :
    P (l.foldl f a) := by
  induction l generalizing a with
  | nil => exact ha
  | cons b r ih => exact ih (h a b ha)

/-! ## Writes on their way -/

theorem MemSt.wf_placeAny {m : MemSt} (p : Write → Bool) (h : m.wf = true) : (m.placeAny p).wf = true :=
  MemSt.wf_congr h rfl rfl rfl rfl

theorem MemSt.wf_place {m : MemSt} (p : Write → Bool) (h : m.wf = true) : (m.place p).wf = true := MemSt.wf_placeAny _ h

theorem MemSt.wf_setWrite {m : MemSt} (id : Nat) (f : Write → Write) (h : m.wf = true) : (m.setWrite id f).wf = true :=
  MemSt.wf_congr h rfl rfl rfl rfl

theorem MemSt.wf_laid {m : MemSt} (ds : List Nat) (pa : Nat) (bs : List Byte) (h : m.wf = true) :
    (ds.foldl (fun m d => m.setView d (writeTab (m.view d) pa bs)) m).wf = true :=
  foldl_keeps (P := fun m : MemSt => m.wf = true) (fun m d h => MemSt.wf_setView d h (twf_writeTab pa bs ((MemSt.wf_iff m).1 h d))) ds h

theorem MemSt.wf_dropCode {m : MemSt} (pa n : Nat) (h : m.wf = true) : (m.dropCode pa n).wf = true :=
  MemSt.wf_congr h rfl rfl rfl rfl

theorem MemSt.wf_clean {m : MemSt} (ds : List Nat) (g : Nat) (h : m.wf = true) : (m.clean ds g).wf = true :=
  MemSt.wf_congr h rfl rfl rfl rfl

theorem MemSt.wf_enter {m : MemSt} (ds : List Nat) (w : Write) (h : m.wf = true) : (m.enter ds w).wf = true := by
  have hd : (if (ds.filter (fun d => !w.views.contains d)).contains w.home then m.dropCode w.pa w.bytes.length else m).wf = true := by
    split
    · exact MemSt.wf_dropCode _ _ h
    · exact h
  refine MemSt.wf_setWrite _ _ (MemSt.wf_laid _ _ _ ?_)
  split
  · exact hd
  · exact MemSt.wf_clean _ _ hd

theorem MemSt.wf_bring {m : MemSt} (ds : List Nat) (p : Write → Bool) (h : m.wf = true) : (m.bring ds p).wf = true :=
  foldl_keeps (P := fun m : MemSt => m.wf = true) (fun _ w h => MemSt.wf_enter _ w h) _ h

theorem MemSt.wf_drain {m : MemSt} (h : m.wf = true) : m.drain.wf = true := MemSt.wf_bring _ _ (MemSt.wf_place _ h)

theorem MemSt.wf_bringSeen {m : MemSt} (core : Nat) (ds : List Nat) (h : m.wf = true) : (m.bringSeen core ds).wf = true :=
  MemSt.wf_bring _ _ (MemSt.wf_place _ h)

theorem MemSt.wf_spread {m : MemSt} (core reach : Nat) (h : m.wf = true) : (m.spread core reach).wf = true :=
  MemSt.wf_congr h rfl rfl rfl rfl

theorem MemSt.wf_atHome {m : MemSt} (core home pa n : Nat) (h : m.wf = true) : (m.atHome core home pa n).wf = true :=
  MemSt.wf_bring _ _ (MemSt.wf_place _ h)

theorem MemSt.wf_follow {m : MemSt} (old new : Nat) (h : m.wf = true) : (m.follow old new).wf = true := by
  unfold MemSt.follow
  split
  · exact h
  · exact MemSt.wf_congr (MemSt.wf_bring _ _ (MemSt.wf_place _ h)) rfl rfl rfl rfl

theorem MemSt.wf_atLast {m : MemSt} (core : Nat) (ds : List Nat) (pa n : Nat) (h : m.wf = true) :
    (m.atLast core ds pa n).wf = true := MemSt.wf_bring _ _ (MemSt.wf_place _ h)

theorem MemSt.wf_release {m : MemSt} (core home pa : Nat) (bs : List Byte) (whole : Nat) (h : m.wf = true) :
    (m.release core home pa bs whole).wf = true := MemSt.wf_congr h rfl rfl rfl rfl

theorem MemSt.wf_merge {m : MemSt} (core via home pa : Nat) (bs : List Byte) (whole : Nat) (h : m.wf = true) :
    (m.merge core via home pa bs whole).wf = true :=
  MemSt.wf_bring _ _ (MemSt.wf_congr (MemSt.wf_atLast core [home] pa bs.length h) rfl rfl rfl rfl)

theorem MemSt.wf_settle {m : MemSt} (ds : List Nat) (pa n : Nat) (h : m.wf = true) : (m.settle ds pa n).wf = true :=
  MemSt.wf_bring _ _ (MemSt.wf_place _ h)

theorem MemSt.wf_put {m : MemSt} (pa : Nat) (bs : List Byte) (h : m.wf = true) : (m.put pa bs).wf = true :=
  MemSt.wf_laid _ _ _ (MemSt.wf_dropCode _ _ (MemSt.wf_settle _ _ _ h))

theorem MemSt.wf_move {m : MemSt} (d k : Nat) (h : m.wf = true) : (m.move d k).wf = true := by
  unfold MemSt.move
  split
  · exact h
  · split
    · exact h
    · split
      · exact MemSt.wf_place _ h
      · split
        · exact MemSt.wf_enter _ _ h
        · exact MemSt.wf_setWrite _ _ h

/-! ## The same of states -/

theorem State.memWf_of_eq {s t : State} (h : s.MemWf) (e : t.mem = s.mem) : t.MemWf := by
  unfold State.MemWf at *; rw [e]; exact h

theorem State.memWf_setMem {s : State} {m : MemSt} (h : m.wf = true) : (s.setMem m).MemWf := h
theorem State.memWf_drainAll {s : State} (h : s.MemWf) : s.drainAll.MemWf := MemSt.wf_drain h
theorem State.memWf_setLines {s : State} (t : Tab Line) (h : s.MemWf) : (s.setLines t).MemWf := h
theorem State.memWf_setL1 {s : State} (t : Tab L1St) (h : s.MemWf) : (s.setL1 t).MemWf := h
theorem State.memWf_setPoison {s : State} (t : Tab (BitVec 4)) (h : s.MemWf) : (s.setPoison t).MemWf := h
theorem State.memWf_unpoisoned {s : State} (pa n : Nat) (h : s.MemWf) : (s.unpoisoned pa n).MemWf := h

theorem State.memWf_poisonRange {s : State} (pa n : Nat) (h : s.MemWf) : (s.poisonRange pa n).MemWf := by
  unfold State.poisonRange; split
  · exact h
  · exact MemSt.wf_congr (MemSt.wf_settle allDies _ _ h) rfl rfl rfl rfl

theorem State.memWf_useIcache {s : State} (core g : Nat) (h : s.MemWf) : (s.useIcache core g).MemWf := h

theorem State.memWf_seatLine {s : State} (vcid : Nat) (v : VCache) (key : Nat) (l : Line) (h : s.MemWf) :
    (s.seatLine vcid v key l).MemWf := by
  unfold State.seatLine; split <;> exact h

theorem State.memWf_touchLine {s : State} (vcid pa : Nat) (wr strm force : Bool) (h : s.MemWf) :
    (s.touchLine vcid pa wr strm force).MemWf := by
  unfold State.touchLine
  split
  · exact h
  · dsimp only
    split
    · exact h
    · split
      · split
        · exact State.memWf_seatLine _ _ _ _ h
        · exact h
      · split
        · exact h
        · exact State.memWf_seatLine _ _ _ _ h

theorem State.memWf_giveBack {s : State} (p : Nat → Bool) (h : s.MemWf) : (s.giveBack p).MemWf := by
  refine foldl_keeps (P := State.MemWf) (fun s e h => ?_) _ h
  split
  · exact h
  · exact State.memWf_touchLine _ _ _ _ _ h

theorem State.memWf_useL1 {s : State} (core g : Nat) (h : s.MemWf) : (s.useL1 core g).MemWf := by
  unfold State.useL1
  dsimp only
  split
  · exact h
  · split
    · exact h
    · split
      · exact h
      · exact MemSt.wf_congr (State.memWf_giveBack _ h) rfl rfl rfl rfl

theorem State.memWf_touchRead {s : State} (vc pa n : Nat) (h : s.MemWf) : (s.touchRead vc pa n).MemWf := by
  unfold State.touchRead
  split
  · exact h
  · exact foldl_keeps (P := State.MemWf) (fun _ _ h => State.memWf_touchLine _ _ _ _ _ h) _ h

theorem State.memWf_touchLoad {s : State} (core vc pa : Nat) (spc : Space) (h : s.MemWf) : (s.touchLoad core vc pa spc).MemWf := by
  unfold State.touchLoad
  dsimp only
  split
  · split
    · exact State.memWf_useL1 _ _ h
    · refine State.memWf_useL1 _ _ (State.memWf_setL1 _ ?_)
      split
      · exact State.memWf_giveBack _ h
      · exact State.memWf_touchLine _ _ _ _ _ (State.memWf_giveBack _ h)
  · exact h
  · have hc : (if s.leasedOn core (pa / 64) true = true then s
        else (s.giveBack (fun k => k % 2 ^ 46 == pa / 64)).setL1
          (l1Clean (tdel (s.giveBack (fun k => k % 2 ^ 46 == pa / 64)).mem.l1 (l1Key core (pa / 64))) (pa / 64))).MemWf := by
      split
      · exact h
      · exact State.memWf_setL1 _ (State.memWf_giveBack _ h)
    split
    · exact hc
    · exact State.memWf_touchLine _ _ _ _ _ hc

theorem State.memWf_touchWrite {s : State} (vc pa n : Nat) (strm : Bool) (h : s.MemWf) : (s.touchWrite vc pa n strm).MemWf := by
  have h' := State.memWf_giveBack (fun k => (granules pa n).contains (k % 2 ^ 46)) h
  unfold State.touchWrite
  dsimp only
  split
  · exact h'
  · exact foldl_keeps (P := State.MemWf) (fun _ _ h => State.memWf_touchLine _ _ _ _ _ h) _ (State.memWf_setL1 _ h')

theorem State.memWf_touchStore {s : State} (core vc pa n : Nat) (spc : Space) (h : s.MemWf) :
    (s.touchStore core vc pa n spc).MemWf := by
  unfold State.touchStore
  split
  · dsimp only
    refine foldl_keeps (P := State.MemWf) (fun s g h => ?_) _ h
    split
    · exact State.memWf_useL1 _ _ h
    · exact State.memWf_touchLine _ _ _ _ _ (State.memWf_useL1 _ _ h)
  · exact State.memWf_touchWrite _ _ _ _ h

theorem State.memWf_putMem {s : State} (pa : Nat) (bs : List Byte) (h : s.MemWf) : (s.putMem pa bs).MemWf :=
  MemSt.wf_congr (MemSt.wf_put pa bs h) rfl rfl rfl rfl

theorem State.memWf_writeMem {s : State} (vc pa : Nat) (bs : List Byte) (h : s.MemWf) : (s.writeMem vc pa bs).MemWf := by
  unfold State.writeMem
  split
  · exact h
  · exact State.memWf_putMem _ _ (State.memWf_touchWrite _ _ _ _ h)

theorem State.memWf_discard {s : State} (pa : Nat) (h : s.MemWf) : (s.discard pa).MemWf := by
  unfold State.discard; split <;> exact h

theorem State.memWf_sendWords {s : State} (core vc pa : Nat) (bs : List Byte) (h : s.MemWf) : (s.sendWords core vc pa bs).MemWf :=
  foldl_keeps (P := fun m : MemSt => m.wf = true) (fun _ _ h => MemSt.wf_release _ _ _ _ _ h) _ h

theorem State.memWf_lastInLine {s : State} (r : LeaseReq) (h : s.MemWf) : (s.lastInLine r).MemWf := h

theorem State.memWf_releasePart {s : State} (bid core : Nat) (spc : Space) (vc pa : Nat) (bs : List Byte) (h : s.MemWf) :
    (s.releasePart bid core spc vc pa bs).MemWf := by
  unfold State.releasePart
  split
  · exact State.memWf_sendWords _ _ _ _ (State.memWf_touchStore _ _ _ _ _ h)
  · split
    · exact State.memWf_lastInLine _ h
    · exact State.memWf_lastInLine _ (State.memWf_sendWords _ _ _ _ h)

theorem State.memWf_releasePiece {s : State} (bid core : Nat) (spc : Space) (p : SPiece) (h : s.MemWf) :
    (s.releasePiece bid core spc p).MemWf := by
  unfold State.releasePiece
  split
  · exact h
  · exact foldl_keeps (P := State.MemWf) (fun _ _ h => State.memWf_releasePart _ _ _ _ _ _ h) _ h

theorem State.memWf_releaseStore {s : State} (bid core : Nat) (spc : Space) (ps : List SPiece) (h : s.MemWf) :
    (s.releaseStore bid core spc ps).MemWf := by
  unfold State.releaseStore
  dsimp only
  refine foldl_keeps (P := State.MemWf) (fun _ p h => State.memWf_releasePiece _ _ _ p h) _ ?_
  split
  · exact h
  · exact State.memWf_discard _ h
  · split
    · exact State.memWf_discard _ h
    · exact State.memWf_discard _ (State.memWf_discard _ h)

theorem State.memWf_mergeMem {s : State} (core vc pa : Nat) (bs : List Byte) (h : s.MemWf) : (s.mergeMem core vc pa bs).MemWf := by
  unfold State.mergeMem
  split
  · exact State.memWf_discard _ h
  · split
    · exact h
    · exact MemSt.wf_merge _ _ _ _ _ _ (State.memWf_touchWrite _ _ _ _ h)

theorem State.memWf_lastAt {s : State} (core vc pa n : Nat) (h : s.MemWf) : (s.lastAt core vc pa n).1.MemWf :=
  MemSt.wf_atLast _ _ _ _ h

theorem State.memWf_mergeNow {s : State} (core : Nat) (e : Effect) (h : s.MemWf) : (s.mergeNow core e).MemWf := by
  unfold State.mergeNow
  split
  · exact State.memWf_mergeMem _ _ _ _ (State.memWf_lastAt _ _ _ _ h)
  · exact State.memWf_mergeMem _ _ _ _ (State.memWf_lastAt _ _ _ _ h)
  · exact h

theorem State.memWf_releaseMerge {s : State} (bid core : Nat) (e : Effect) (h : s.MemWf) : (s.releaseMerge bid core e).MemWf := by
  unfold State.releaseMerge
  split
  · exact State.memWf_lastInLine _ h
  · exact State.memWf_mergeNow _ _ h

theorem State.memWf_effectNow {s : State} (core : Nat) (e : Effect) (h : s.MemWf) : (s.effectNow core e).MemWf := by
  unfold State.effectNow
  split
  · refine foldl_keeps (P := State.MemWf) (fun s p h => ?_) _ h
    split
    · exact State.memWf_discard _ h
    · split
      · exact h
      · exact State.memWf_sendWords _ _ _ _ (State.memWf_touchStore _ _ _ _ _ h)
  · exact State.memWf_mergeNow _ _ h

theorem State.memWf_shiftLine {s : State} (vcid : Nat) (v : VCache) (key : Nat) (l : Line) (h : s.MemWf) :
    (s.shiftLine vcid v key l).MemWf := State.memWf_seatLine _ _ _ _ (State.memWf_setL1 _ h)

theorem State.memWf_probed {s : State} (vcid g : Nat) (h : s.MemWf) : (s.probed vcid g).MemWf := by
  unfold State.probed
  split
  · exact h
  · split
    · split
      · exact State.memWf_shiftLine _ _ _ _ h
      · exact h
    · exact h

theorem State.memWf_performAt {s : State} (core ctx : Nat) (sc : Scope) (h : s.MemWf) : (s.performAt core ctx sc).MemWf := by
  unfold State.performAt
  split
  · exact h
  · exact MemSt.wf_spread _ _ h
  · exact MemSt.wf_spread _ _ h
  · exact MemSt.wf_bringSeen _ _ h
  · exact MemSt.wf_bringSeen _ _ h

theorem State.memWf_wipe {s : State} (p : Nat → Bool) (h : s.MemWf) : (s.wipe p).MemWf := by
  have h' := State.memWf_drainAll h
  simp only [State.MemWf, MemSt.wf, Bool.and_eq_true] at h' ⊢
  obtain ⟨⟨⟨h0, h1⟩, h2⟩, h3⟩ := h'
  exact ⟨⟨⟨twf_filter _ h0, twf_filter _ h1⟩, twf_filter _ h2⟩, twf_filter _ h3⟩

/-! ## Requests that wait behind leases -/

theorem State.memWf_unqueue {s : State} (bid : Nat) (h : s.MemWf) : (s.unqueue bid).MemWf := by
  unfold State.unqueue; split <;> exact h

theorem State.memWf_hostPut {s : State} (pa : Nat) (bs : List Byte) (h : s.MemWf) : (s.hostPut pa bs).MemWf := by
  unfold State.hostPut
  dsimp only
  split
  · exact h
  · exact MemSt.wf_merge _ _ _ _ _ _ (State.memWf_touchWrite _ _ _ _ h)

theorem State.memWf_hostGet {s : State} (port pa n : Nat) (h : s.MemWf) : (s.hostGet port pa n).MemWf := by
  unfold State.hostGet
  dsimp only
  split
  · exact h
  · exact MemSt.wf_atLast _ _ _ _ h

theorem State.memWf_serveReq {s : State} (r : LeaseReq) (h : s.MemWf) : (s.serveReq r).MemWf := by
  unfold State.serveReq
  split
  · exact h
  · rename_i core g drop
    have h' := State.memWf_giveBack (fun k => k == l1Key core g) h
    dsimp only
    split
    · exact h'
    · split <;> exact h'
  · exact State.memWf_hostPut _ _ h
  · exact State.memWf_hostGet _ _ _ h
  · exact State.memWf_writeMem _ _ _ h
  · exact MemSt.wf_placeAny _ (State.memWf_touchStore _ _ _ _ _ h)
  · exact State.memWf_effectNow _ _ h
  · exact State.memWf_probed _ _ h

theorem memWf_serveList (q kept : List LeaseReq) {s : State} (h : s.MemWf) : (serveList s kept q).MemWf := by
  induction q generalizing s kept with
  | nil => exact h
  | cons r rest ih =>
    unfold serveList
    split
    · exact ih _ h
    · exact ih _ (State.memWf_serveReq r h)

theorem State.memWf_serveLeaseQ {s : State} (h : s.MemWf) : s.serveLeaseQ.MemWf := by
  unfold State.serveLeaseQ
  split
  · exact h
  · exact memWf_serveList _ _ h

theorem State.memWf_enqueue {s : State} (bid : Nat) (l : List Nat) (h : s.MemWf) : (s.enqueue bid l).MemWf := by
  unfold State.enqueue
  split
  · exact State.memWf_serveLeaseQ (MemSt.wf_congr h rfl rfl rfl rfl)
  · exact h

theorem State.memWf_leaveQueue {s : State} (bid : Nat) (h : s.MemWf) : (s.leaveQueue bid).MemWf := by
  exact State.memWf_serveLeaseQ (State.memWf_unqueue _ h)

theorem State.memWf_doneWaiting {s : State} (bid : Nat) (h : s.MemWf) : (s.doneWaiting bid).MemWf := by
  unfold State.doneWaiting
  split
  · exact h
  · exact State.memWf_leaveQueue _ h

theorem State.memWf_request {s : State} (r : LeaseReq) (h : s.MemWf) : (s.request r).MemWf := by
  unfold State.request
  split
  · exact State.memWf_lastInLine _ h
  · exact State.memWf_serveReq r h

/-! ## Engines, events, starts -/

theorem State.memWf_ownWrite {s : State} (bid vc pa : Nat) (bs : List Byte) (h : s.MemWf) : (s.ownWrite bid vc pa bs).MemWf :=
  foldl_keeps (P := State.MemWf) (fun _ _ h => State.memWf_request _ h) _ h

theorem State.memWf_hostWrite {s : State} (port a : Nat) (bs : List Byte) (h : s.MemWf) : (s.hostWrite port a bs).MemWf :=
  State.memWf_ownWrite _ _ _ _ h

theorem State.memWf_setRing {s : State} (port : Nat) (r : EvRing) (h : s.MemWf) : (s.setRing port r).MemWf := h

theorem State.memWf_logEvent {s : State} (port code source detail : Nat) (h : s.MemWf) :
    (s.logEvent port code source detail).MemWf := by
  unfold State.logEvent
  split
  · exact h
  · dsimp only
    split
    · exact State.memWf_setRing _ _ (State.memWf_hostWrite _ _ _ (State.memWf_hostWrite _ _ _ h))
    · exact State.memWf_setRing _ _ (State.memWf_hostWrite _ _ _ h)

theorem State.memWf_layBytes {s : State} (pa : Nat) (bs : List Byte) (h : s.MemWf) : (s.layBytes pa bs).MemWf := by
  simp only [State.MemWf, MemSt.wf, Bool.and_eq_true] at h ⊢
  obtain ⟨⟨⟨h0, h1⟩, h2⟩, h3⟩ := h
  exact ⟨⟨⟨twf_writeTab _ _ h0, twf_writeTab _ _ h1⟩, twf_writeTab _ _ h2⟩, twf_writeTab _ _ h3⟩

theorem State.memWf_start {s : State} (warm : Bool) (h : s.MemWf) : (s.start warm).MemWf := by
  have h0 := State.memWf_drainAll h
  simp only [State.MemWf, MemSt.wf, Bool.and_eq_true] at h0 ⊢
  have f := twf_filter (fun e => outside e.1) h0.1.1.1
  exact ⟨⟨⟨f, f⟩, f⟩, f⟩

end Sys2Proof.Machine
end

