-- ==== Sys2Proof/Laws/State.lean ====
section
/-! SUPPORT. What each named update of the state leaves in each field: one lemma for each field of `State` and each update,
so that no proof unfolds a record update. -/

namespace Sys2Proof.Machine

variable (s : State)

/-! ### `setB` -/

@[simp] theorem State.setB_cycle (bid : Nat) (b : Barge) : (s.setB bid b).cycle = s.cycle := rfl
@[simp] theorem State.setB_epoch (bid : Nat) (b : Barge) : (s.setB bid b).epoch = s.epoch := rfl
@[simp] theorem State.setB_barges (bid : Nat) (b : Barge) : (s.setB bid b).barges = tset s.barges bid b := rfl
@[simp] theorem State.setB_nextBid (bid : Nat) (b : Barge) : (s.setB bid b).nextBid = s.nextBid := rfl
@[simp] theorem State.setB_leasemax (bid : Nat) (b : Barge) : (s.setB bid b).leasemax = s.leasemax := rfl
@[simp] theorem State.setB_lastSlot (bid : Nat) (b : Barge) : (s.setB bid b).lastSlot = s.lastSlot := rfl
@[simp] theorem State.setB_mem (bid : Nat) (b : Barge) : (s.setB bid b).mem = s.mem := rfl
@[simp] theorem State.setB_tls (bid : Nat) (b : Barge) : (s.setB bid b).tls = s.tls := rfl
@[simp] theorem State.setB_slu (bid : Nat) (b : Barge) : (s.setB bid b).slu = s.slu := rfl
@[simp] theorem State.setB_arr (bid : Nat) (b : Barge) : (s.setB bid b).arr = s.arr := rfl
@[simp] theorem State.setB_com (bid : Nat) (b : Barge) : (s.setB bid b).com = s.com := rfl
@[simp] theorem State.setB_map (bid : Nat) (b : Barge) : (s.setB bid b).map = s.map := rfl
@[simp] theorem State.setB_whf (bid : Nat) (b : Barge) : (s.setB bid b).whf = s.whf := rfl
@[simp] theorem State.setB_hst (bid : Nat) (b : Barge) : (s.setB bid b).hst = s.hst := rfl
@[simp] theorem State.setB_tru (bid : Nat) (b : Barge) : (s.setB bid b).tru = s.tru := rfl
@[simp] theorem State.setB_lnk (bid : Nat) (b : Barge) : (s.setB bid b).lnk = s.lnk := rfl
@[simp] theorem State.setB_inputs (bid : Nat) (b : Barge) : (s.setB bid b).inputs = s.inputs := rfl
@[simp] theorem State.setB_fresh (bid : Nat) (b : Barge) : (s.setB bid b).fresh = s.fresh := rfl
@[simp] theorem State.setB_cur (bid : Nat) (b : Barge) : (s.setB bid b).cur = s.cur := rfl

/-! ### `updCtx` -/

@[simp] theorem State.updCtx_cycle (c : Nat) (f : Ctx → Ctx) : (s.updCtx c f).cycle = s.cycle := rfl
@[simp] theorem State.updCtx_epoch (c : Nat) (f : Ctx → Ctx) : (s.updCtx c f).epoch = s.epoch := rfl
@[simp] theorem State.updCtx_barges (c : Nat) (f : Ctx → Ctx) : (s.updCtx c f).barges = s.barges := rfl
@[simp] theorem State.updCtx_nextBid (c : Nat) (f : Ctx → Ctx) : (s.updCtx c f).nextBid = s.nextBid := rfl
@[simp] theorem State.updCtx_leasemax (c : Nat) (f : Ctx → Ctx) : (s.updCtx c f).leasemax = s.leasemax := rfl
@[simp] theorem State.updCtx_lastSlot (c : Nat) (f : Ctx → Ctx) : (s.updCtx c f).lastSlot = s.lastSlot := rfl
@[simp] theorem State.updCtx_mem (c : Nat) (f : Ctx → Ctx) : (s.updCtx c f).mem = s.mem := rfl
@[simp] theorem State.updCtx_tls (c : Nat) (f : Ctx → Ctx) : (s.updCtx c f).tls = s.tls := rfl
@[simp] theorem State.updCtx_slu (c : Nat) (f : Ctx → Ctx) : (s.updCtx c f).slu = s.slu := rfl
@[simp] theorem State.updCtx_arr (c : Nat) (f : Ctx → Ctx) : (s.updCtx c f).arr = s.arr := rfl
@[simp] theorem State.updCtx_com (c : Nat) (f : Ctx → Ctx) : (s.updCtx c f).com = s.com := rfl
@[simp] theorem State.updCtx_map (c : Nat) (f : Ctx → Ctx) : (s.updCtx c f).map = { s.map with ctxs := tupd {} s.map.ctxs c f } := rfl
@[simp] theorem State.updCtx_whf (c : Nat) (f : Ctx → Ctx) : (s.updCtx c f).whf = s.whf := rfl
@[simp] theorem State.updCtx_hst (c : Nat) (f : Ctx → Ctx) : (s.updCtx c f).hst = s.hst := rfl
@[simp] theorem State.updCtx_tru (c : Nat) (f : Ctx → Ctx) : (s.updCtx c f).tru = s.tru := rfl
@[simp] theorem State.updCtx_lnk (c : Nat) (f : Ctx → Ctx) : (s.updCtx c f).lnk = s.lnk := rfl
@[simp] theorem State.updCtx_inputs (c : Nat) (f : Ctx → Ctx) : (s.updCtx c f).inputs = s.inputs := rfl
@[simp] theorem State.updCtx_fresh (c : Nat) (f : Ctx → Ctx) : (s.updCtx c f).fresh = s.fresh := rfl
@[simp] theorem State.updCtx_cur (c : Nat) (f : Ctx → Ctx) : (s.updCtx c f).cur = s.cur := rfl

/-! ### `updChan` -/

@[simp] theorem State.updChan_cycle (c : Nat) (f : Channel → Channel) : (s.updChan c f).cycle = s.cycle := rfl
@[simp] theorem State.updChan_epoch (c : Nat) (f : Channel → Channel) : (s.updChan c f).epoch = s.epoch := rfl
@[simp] theorem State.updChan_barges (c : Nat) (f : Channel → Channel) : (s.updChan c f).barges = s.barges := rfl
@[simp] theorem State.updChan_nextBid (c : Nat) (f : Channel → Channel) : (s.updChan c f).nextBid = s.nextBid := rfl
@[simp] theorem State.updChan_leasemax (c : Nat) (f : Channel → Channel) : (s.updChan c f).leasemax = s.leasemax := rfl
@[simp] theorem State.updChan_lastSlot (c : Nat) (f : Channel → Channel) : (s.updChan c f).lastSlot = s.lastSlot := rfl
@[simp] theorem State.updChan_mem (c : Nat) (f : Channel → Channel) : (s.updChan c f).mem = s.mem := rfl
@[simp] theorem State.updChan_tls (c : Nat) (f : Channel → Channel) : (s.updChan c f).tls = s.tls := rfl
@[simp] theorem State.updChan_slu (c : Nat) (f : Channel → Channel) : (s.updChan c f).slu = s.slu := rfl
@[simp] theorem State.updChan_arr (c : Nat) (f : Channel → Channel) : (s.updChan c f).arr = s.arr := rfl
@[simp] theorem State.updChan_com (c : Nat) (f : Channel → Channel) : (s.updChan c f).com = s.com := rfl
@[simp] theorem State.updChan_map (c : Nat) (f : Channel → Channel) : (s.updChan c f).map = { s.map with chans := tupd {} s.map.chans c f } := rfl
@[simp] theorem State.updChan_whf (c : Nat) (f : Channel → Channel) : (s.updChan c f).whf = s.whf := rfl
@[simp] theorem State.updChan_hst (c : Nat) (f : Channel → Channel) : (s.updChan c f).hst = s.hst := rfl
@[simp] theorem State.updChan_tru (c : Nat) (f : Channel → Channel) : (s.updChan c f).tru = s.tru := rfl
@[simp] theorem State.updChan_lnk (c : Nat) (f : Channel → Channel) : (s.updChan c f).lnk = s.lnk := rfl
@[simp] theorem State.updChan_inputs (c : Nat) (f : Channel → Channel) : (s.updChan c f).inputs = s.inputs := rfl
@[simp] theorem State.updChan_fresh (c : Nat) (f : Channel → Channel) : (s.updChan c f).fresh = s.fresh := rfl
@[simp] theorem State.updChan_cur (c : Nat) (f : Channel → Channel) : (s.updChan c f).cur = s.cur := rfl

/-! ### `wharfError` -/

@[simp] theorem State.wharfError_cycle (ctx : Nat) : (s.wharfError ctx).cycle = s.cycle := rfl
@[simp] theorem State.wharfError_epoch (ctx : Nat) : (s.wharfError ctx).epoch = s.epoch := rfl
@[simp] theorem State.wharfError_barges (ctx : Nat) : (s.wharfError ctx).barges = s.barges := rfl
@[simp] theorem State.wharfError_nextBid (ctx : Nat) : (s.wharfError ctx).nextBid = s.nextBid := rfl
@[simp] theorem State.wharfError_leasemax (ctx : Nat) : (s.wharfError ctx).leasemax = s.leasemax := rfl
@[simp] theorem State.wharfError_lastSlot (ctx : Nat) : (s.wharfError ctx).lastSlot = s.lastSlot := rfl
@[simp] theorem State.wharfError_mem (ctx : Nat) : (s.wharfError ctx).mem = s.mem := rfl
@[simp] theorem State.wharfError_tls (ctx : Nat) : (s.wharfError ctx).tls = s.tls := rfl
@[simp] theorem State.wharfError_slu (ctx : Nat) : (s.wharfError ctx).slu = s.slu := rfl
@[simp] theorem State.wharfError_arr (ctx : Nat) : (s.wharfError ctx).arr = s.arr := rfl
@[simp] theorem State.wharfError_com (ctx : Nat) : (s.wharfError ctx).com = s.com := rfl
@[simp] theorem State.wharfError_map (ctx : Nat) : (s.wharfError ctx).map = s.map := rfl
@[simp] theorem State.wharfError_whf (ctx : Nat) : (s.wharfError ctx).whf = { s.whf with errs := tupd 0 s.whf.errs ctx (fun n => min (n + 1) (2 ^ 48 - 1)) } := rfl
@[simp] theorem State.wharfError_hst (ctx : Nat) : (s.wharfError ctx).hst = s.hst := rfl
@[simp] theorem State.wharfError_tru (ctx : Nat) : (s.wharfError ctx).tru = s.tru := rfl
@[simp] theorem State.wharfError_lnk (ctx : Nat) : (s.wharfError ctx).lnk = s.lnk := rfl
@[simp] theorem State.wharfError_inputs (ctx : Nat) : (s.wharfError ctx).inputs = s.inputs := rfl
@[simp] theorem State.wharfError_fresh (ctx : Nat) : (s.wharfError ctx).fresh = s.fresh := rfl
@[simp] theorem State.wharfError_cur (ctx : Nat) : (s.wharfError ctx).cur = s.cur := rfl

/-! ### `setTl` -/

@[simp] theorem State.setTl_cycle (k : Nat) (t : Timeline) : (s.setTl k t).cycle = s.cycle := rfl
@[simp] theorem State.setTl_epoch (k : Nat) (t : Timeline) : (s.setTl k t).epoch = s.epoch := rfl
@[simp] theorem State.setTl_barges (k : Nat) (t : Timeline) : (s.setTl k t).barges = s.barges := rfl
@[simp] theorem State.setTl_nextBid (k : Nat) (t : Timeline) : (s.setTl k t).nextBid = s.nextBid := rfl
@[simp] theorem State.setTl_leasemax (k : Nat) (t : Timeline) : (s.setTl k t).leasemax = s.leasemax := rfl
@[simp] theorem State.setTl_lastSlot (k : Nat) (t : Timeline) : (s.setTl k t).lastSlot = s.lastSlot := rfl
@[simp] theorem State.setTl_mem (k : Nat) (t : Timeline) : (s.setTl k t).mem = s.mem := rfl
@[simp] theorem State.setTl_tls (k : Nat) (t : Timeline) : (s.setTl k t).tls = tset s.tls k t := rfl
@[simp] theorem State.setTl_slu (k : Nat) (t : Timeline) : (s.setTl k t).slu = s.slu := rfl
@[simp] theorem State.setTl_arr (k : Nat) (t : Timeline) : (s.setTl k t).arr = s.arr := rfl
@[simp] theorem State.setTl_com (k : Nat) (t : Timeline) : (s.setTl k t).com = s.com := rfl
@[simp] theorem State.setTl_map (k : Nat) (t : Timeline) : (s.setTl k t).map = s.map := rfl
@[simp] theorem State.setTl_whf (k : Nat) (t : Timeline) : (s.setTl k t).whf = s.whf := rfl
@[simp] theorem State.setTl_hst (k : Nat) (t : Timeline) : (s.setTl k t).hst = s.hst := rfl
@[simp] theorem State.setTl_tru (k : Nat) (t : Timeline) : (s.setTl k t).tru = s.tru := rfl
@[simp] theorem State.setTl_lnk (k : Nat) (t : Timeline) : (s.setTl k t).lnk = s.lnk := rfl
@[simp] theorem State.setTl_inputs (k : Nat) (t : Timeline) : (s.setTl k t).inputs = s.inputs := rfl
@[simp] theorem State.setTl_fresh (k : Nat) (t : Timeline) : (s.setTl k t).fresh = s.fresh := rfl
@[simp] theorem State.setTl_cur (k : Nat) (t : Timeline) : (s.setTl k t).cur = s.cur := rfl

/-! ### `setMem` -/

@[simp] theorem State.setMem_cycle (m : MemSt) : (s.setMem m).cycle = s.cycle := rfl
@[simp] theorem State.setMem_epoch (m : MemSt) : (s.setMem m).epoch = s.epoch := rfl
@[simp] theorem State.setMem_barges (m : MemSt) : (s.setMem m).barges = s.barges := rfl
@[simp] theorem State.setMem_nextBid (m : MemSt) : (s.setMem m).nextBid = s.nextBid := rfl
@[simp] theorem State.setMem_leasemax (m : MemSt) : (s.setMem m).leasemax = s.leasemax := rfl
@[simp] theorem State.setMem_lastSlot (m : MemSt) : (s.setMem m).lastSlot = s.lastSlot := rfl
@[simp] theorem State.setMem_mem (m : MemSt) : (s.setMem m).mem = m := rfl
@[simp] theorem State.setMem_tls (m : MemSt) : (s.setMem m).tls = s.tls := rfl
@[simp] theorem State.setMem_slu (m : MemSt) : (s.setMem m).slu = s.slu := rfl
@[simp] theorem State.setMem_arr (m : MemSt) : (s.setMem m).arr = s.arr := rfl
@[simp] theorem State.setMem_com (m : MemSt) : (s.setMem m).com = s.com := rfl
@[simp] theorem State.setMem_map (m : MemSt) : (s.setMem m).map = s.map := rfl
@[simp] theorem State.setMem_whf (m : MemSt) : (s.setMem m).whf = s.whf := rfl
@[simp] theorem State.setMem_hst (m : MemSt) : (s.setMem m).hst = s.hst := rfl
@[simp] theorem State.setMem_tru (m : MemSt) : (s.setMem m).tru = s.tru := rfl
@[simp] theorem State.setMem_lnk (m : MemSt) : (s.setMem m).lnk = s.lnk := rfl
@[simp] theorem State.setMem_inputs (m : MemSt) : (s.setMem m).inputs = s.inputs := rfl
@[simp] theorem State.setMem_fresh (m : MemSt) : (s.setMem m).fresh = s.fresh := rfl
@[simp] theorem State.setMem_cur (m : MemSt) : (s.setMem m).cur = s.cur := rfl

/-! ### `issued` -/

@[simp] theorem State.issued_cycle (b : Barge) : (s.issued b).cycle = s.cycle := rfl
@[simp] theorem State.issued_epoch (b : Barge) : (s.issued b).epoch = s.epoch := rfl
@[simp] theorem State.issued_barges (b : Barge) : (s.issued b).barges = s.barges := rfl
@[simp] theorem State.issued_nextBid (b : Barge) : (s.issued b).nextBid = s.nextBid := rfl
@[simp] theorem State.issued_leasemax (b : Barge) : (s.issued b).leasemax = s.leasemax := rfl
@[simp] theorem State.issued_lastSlot (b : Barge) : (s.issued b).lastSlot = tput 7 s.lastSlot b.core b.slot := rfl
@[simp] theorem State.issued_mem (b : Barge) : (s.issued b).mem = s.mem := rfl
@[simp] theorem State.issued_tls (b : Barge) : (s.issued b).tls = s.tls := rfl
@[simp] theorem State.issued_slu (b : Barge) : (s.issued b).slu = s.slu := rfl
@[simp] theorem State.issued_arr (b : Barge) : (s.issued b).arr = s.arr := rfl
@[simp] theorem State.issued_com (b : Barge) : (s.issued b).com = s.com := rfl
@[simp] theorem State.issued_map (b : Barge) : (s.issued b).map = s.map := rfl
@[simp] theorem State.issued_whf (b : Barge) : (s.issued b).whf = s.whf := rfl
@[simp] theorem State.issued_hst (b : Barge) : (s.issued b).hst = s.hst := rfl
@[simp] theorem State.issued_tru (b : Barge) : (s.issued b).tru = s.tru := rfl
@[simp] theorem State.issued_lnk (b : Barge) : (s.issued b).lnk = s.lnk := rfl
@[simp] theorem State.issued_inputs (b : Barge) : (s.issued b).inputs = s.inputs := rfl
@[simp] theorem State.issued_fresh (b : Barge) : (s.issued b).fresh = s.fresh := rfl
@[simp] theorem State.issued_cur (b : Barge) : (s.issued b).cur = s.cur := rfl

/-! ### `setL1` -/

@[simp] theorem State.setL1_cycle (t : Tab L1St) : (s.setL1 t).cycle = s.cycle := rfl
@[simp] theorem State.setL1_epoch (t : Tab L1St) : (s.setL1 t).epoch = s.epoch := rfl
@[simp] theorem State.setL1_barges (t : Tab L1St) : (s.setL1 t).barges = s.barges := rfl
@[simp] theorem State.setL1_nextBid (t : Tab L1St) : (s.setL1 t).nextBid = s.nextBid := rfl
@[simp] theorem State.setL1_leasemax (t : Tab L1St) : (s.setL1 t).leasemax = s.leasemax := rfl
@[simp] theorem State.setL1_lastSlot (t : Tab L1St) : (s.setL1 t).lastSlot = s.lastSlot := rfl
@[simp] theorem State.setL1_mem (t : Tab L1St) : (s.setL1 t).mem = { s.mem with l1 := t } := rfl
@[simp] theorem State.setL1_tls (t : Tab L1St) : (s.setL1 t).tls = s.tls := rfl
@[simp] theorem State.setL1_slu (t : Tab L1St) : (s.setL1 t).slu = s.slu := rfl
@[simp] theorem State.setL1_arr (t : Tab L1St) : (s.setL1 t).arr = s.arr := rfl
@[simp] theorem State.setL1_com (t : Tab L1St) : (s.setL1 t).com = s.com := rfl
@[simp] theorem State.setL1_map (t : Tab L1St) : (s.setL1 t).map = s.map := rfl
@[simp] theorem State.setL1_whf (t : Tab L1St) : (s.setL1 t).whf = s.whf := rfl
@[simp] theorem State.setL1_hst (t : Tab L1St) : (s.setL1 t).hst = s.hst := rfl
@[simp] theorem State.setL1_tru (t : Tab L1St) : (s.setL1 t).tru = s.tru := rfl
@[simp] theorem State.setL1_lnk (t : Tab L1St) : (s.setL1 t).lnk = s.lnk := rfl
@[simp] theorem State.setL1_inputs (t : Tab L1St) : (s.setL1 t).inputs = s.inputs := rfl
@[simp] theorem State.setL1_fresh (t : Tab L1St) : (s.setL1 t).fresh = s.fresh := rfl
@[simp] theorem State.setL1_cur (t : Tab L1St) : (s.setL1 t).cur = s.cur := rfl

/-! ### `setLines` -/

@[simp] theorem State.setLines_cycle (t : Tab Line) : (s.setLines t).cycle = s.cycle := rfl
@[simp] theorem State.setLines_epoch (t : Tab Line) : (s.setLines t).epoch = s.epoch := rfl
@[simp] theorem State.setLines_barges (t : Tab Line) : (s.setLines t).barges = s.barges := rfl
@[simp] theorem State.setLines_nextBid (t : Tab Line) : (s.setLines t).nextBid = s.nextBid := rfl
@[simp] theorem State.setLines_leasemax (t : Tab Line) : (s.setLines t).leasemax = s.leasemax := rfl
@[simp] theorem State.setLines_lastSlot (t : Tab Line) : (s.setLines t).lastSlot = s.lastSlot := rfl
@[simp] theorem State.setLines_mem (t : Tab Line) : (s.setLines t).mem = s.mem := rfl
@[simp] theorem State.setLines_tls (t : Tab Line) : (s.setLines t).tls = s.tls := rfl
@[simp] theorem State.setLines_slu (t : Tab Line) : (s.setLines t).slu = s.slu := rfl
@[simp] theorem State.setLines_arr (t : Tab Line) : (s.setLines t).arr = s.arr := rfl
@[simp] theorem State.setLines_com (t : Tab Line) : (s.setLines t).com = { s.com with lines := t } := rfl
@[simp] theorem State.setLines_map (t : Tab Line) : (s.setLines t).map = s.map := rfl
@[simp] theorem State.setLines_whf (t : Tab Line) : (s.setLines t).whf = s.whf := rfl
@[simp] theorem State.setLines_hst (t : Tab Line) : (s.setLines t).hst = s.hst := rfl
@[simp] theorem State.setLines_tru (t : Tab Line) : (s.setLines t).tru = s.tru := rfl
@[simp] theorem State.setLines_lnk (t : Tab Line) : (s.setLines t).lnk = s.lnk := rfl
@[simp] theorem State.setLines_inputs (t : Tab Line) : (s.setLines t).inputs = s.inputs := rfl
@[simp] theorem State.setLines_fresh (t : Tab Line) : (s.setLines t).fresh = s.fresh := rfl
@[simp] theorem State.setLines_cur (t : Tab Line) : (s.setLines t).cur = s.cur := rfl

/-! ### `setPoison` -/

@[simp] theorem State.setPoison_cycle (t : Tab (BitVec 4)) : (s.setPoison t).cycle = s.cycle := rfl
@[simp] theorem State.setPoison_epoch (t : Tab (BitVec 4)) : (s.setPoison t).epoch = s.epoch := rfl
@[simp] theorem State.setPoison_barges (t : Tab (BitVec 4)) : (s.setPoison t).barges = s.barges := rfl
@[simp] theorem State.setPoison_nextBid (t : Tab (BitVec 4)) : (s.setPoison t).nextBid = s.nextBid := rfl
@[simp] theorem State.setPoison_leasemax (t : Tab (BitVec 4)) : (s.setPoison t).leasemax = s.leasemax := rfl
@[simp] theorem State.setPoison_lastSlot (t : Tab (BitVec 4)) : (s.setPoison t).lastSlot = s.lastSlot := rfl
@[simp] theorem State.setPoison_mem (t : Tab (BitVec 4)) : (s.setPoison t).mem = { s.mem with poison := t } := rfl
@[simp] theorem State.setPoison_tls (t : Tab (BitVec 4)) : (s.setPoison t).tls = s.tls := rfl
@[simp] theorem State.setPoison_slu (t : Tab (BitVec 4)) : (s.setPoison t).slu = s.slu := rfl
@[simp] theorem State.setPoison_arr (t : Tab (BitVec 4)) : (s.setPoison t).arr = s.arr := rfl
@[simp] theorem State.setPoison_com (t : Tab (BitVec 4)) : (s.setPoison t).com = s.com := rfl
@[simp] theorem State.setPoison_map (t : Tab (BitVec 4)) : (s.setPoison t).map = s.map := rfl
@[simp] theorem State.setPoison_whf (t : Tab (BitVec 4)) : (s.setPoison t).whf = s.whf := rfl
@[simp] theorem State.setPoison_hst (t : Tab (BitVec 4)) : (s.setPoison t).hst = s.hst := rfl
@[simp] theorem State.setPoison_tru (t : Tab (BitVec 4)) : (s.setPoison t).tru = s.tru := rfl
@[simp] theorem State.setPoison_lnk (t : Tab (BitVec 4)) : (s.setPoison t).lnk = s.lnk := rfl
@[simp] theorem State.setPoison_inputs (t : Tab (BitVec 4)) : (s.setPoison t).inputs = s.inputs := rfl
@[simp] theorem State.setPoison_fresh (t : Tab (BitVec 4)) : (s.setPoison t).fresh = s.fresh := rfl
@[simp] theorem State.setPoison_cur (t : Tab (BitVec 4)) : (s.setPoison t).cur = s.cur := rfl

/-! ### `isolate` -/

@[simp] theorem State.isolate_cycle (t : Nat) : (s.isolate t).cycle = s.cycle := rfl
@[simp] theorem State.isolate_epoch (t : Nat) : (s.isolate t).epoch = s.epoch := rfl
@[simp] theorem State.isolate_barges (t : Nat) : (s.isolate t).barges = s.barges := rfl
@[simp] theorem State.isolate_nextBid (t : Nat) : (s.isolate t).nextBid = s.nextBid := rfl
@[simp] theorem State.isolate_leasemax (t : Nat) : (s.isolate t).leasemax = s.leasemax := rfl
@[simp] theorem State.isolate_lastSlot (t : Nat) : (s.isolate t).lastSlot = s.lastSlot := rfl
@[simp] theorem State.isolate_mem (t : Nat) : (s.isolate t).mem = s.mem := rfl
@[simp] theorem State.isolate_tls (t : Nat) : (s.isolate t).tls = s.tls := rfl
@[simp] theorem State.isolate_slu (t : Nat) : (s.isolate t).slu = { s.slu with isolated := tput false s.slu.isolated t true } := rfl
@[simp] theorem State.isolate_arr (t : Nat) : (s.isolate t).arr = s.arr := rfl
@[simp] theorem State.isolate_com (t : Nat) : (s.isolate t).com = s.com := rfl
@[simp] theorem State.isolate_map (t : Nat) : (s.isolate t).map = s.map := rfl
@[simp] theorem State.isolate_whf (t : Nat) : (s.isolate t).whf = s.whf := rfl
@[simp] theorem State.isolate_hst (t : Nat) : (s.isolate t).hst = s.hst := rfl
@[simp] theorem State.isolate_tru (t : Nat) : (s.isolate t).tru = s.tru := rfl
@[simp] theorem State.isolate_lnk (t : Nat) : (s.isolate t).lnk = s.lnk := rfl
@[simp] theorem State.isolate_inputs (t : Nat) : (s.isolate t).inputs = s.inputs := rfl
@[simp] theorem State.isolate_fresh (t : Nat) : (s.isolate t).fresh = s.fresh := rfl
@[simp] theorem State.isolate_cur (t : Nat) : (s.isolate t).cur = s.cur := rfl

/-! ### `drainAll` -/

@[simp] theorem State.drainAll_cycle : s.drainAll.cycle = s.cycle := rfl
@[simp] theorem State.drainAll_epoch : s.drainAll.epoch = s.epoch := rfl
@[simp] theorem State.drainAll_barges : s.drainAll.barges = s.barges := rfl
@[simp] theorem State.drainAll_nextBid : s.drainAll.nextBid = s.nextBid := rfl
@[simp] theorem State.drainAll_leasemax : s.drainAll.leasemax = s.leasemax := rfl
@[simp] theorem State.drainAll_lastSlot : s.drainAll.lastSlot = s.lastSlot := rfl
@[simp] theorem State.drainAll_mem : s.drainAll.mem = s.mem.drain := rfl
@[simp] theorem State.drainAll_tls : s.drainAll.tls = s.tls := rfl
@[simp] theorem State.drainAll_slu : s.drainAll.slu = s.slu := rfl
@[simp] theorem State.drainAll_arr : s.drainAll.arr = s.arr := rfl
@[simp] theorem State.drainAll_com : s.drainAll.com = s.com := rfl
@[simp] theorem State.drainAll_map : s.drainAll.map = s.map := rfl
@[simp] theorem State.drainAll_whf : s.drainAll.whf = s.whf := rfl
@[simp] theorem State.drainAll_hst : s.drainAll.hst = s.hst := rfl
@[simp] theorem State.drainAll_tru : s.drainAll.tru = s.tru := rfl
@[simp] theorem State.drainAll_lnk : s.drainAll.lnk = s.lnk := rfl
@[simp] theorem State.drainAll_inputs : s.drainAll.inputs = s.inputs := rfl
@[simp] theorem State.drainAll_fresh : s.drainAll.fresh = s.fresh := rfl
@[simp] theorem State.drainAll_cur : s.drainAll.cur = s.cur := rfl

/-! ### `count` -/

@[simp] theorem State.count_cycle (ctx k n : Nat) : (s.count ctx k n).cycle = s.cycle := rfl
@[simp] theorem State.count_epoch (ctx k n : Nat) : (s.count ctx k n).epoch = s.epoch := rfl
@[simp] theorem State.count_barges (ctx k n : Nat) : (s.count ctx k n).barges = s.barges := rfl
@[simp] theorem State.count_nextBid (ctx k n : Nat) : (s.count ctx k n).nextBid = s.nextBid := rfl
@[simp] theorem State.count_leasemax (ctx k n : Nat) : (s.count ctx k n).leasemax = s.leasemax := rfl
@[simp] theorem State.count_lastSlot (ctx k n : Nat) : (s.count ctx k n).lastSlot = s.lastSlot := rfl
@[simp] theorem State.count_mem (ctx k n : Nat) : (s.count ctx k n).mem = s.mem := rfl
@[simp] theorem State.count_tls (ctx k n : Nat) : (s.count ctx k n).tls = s.tls := rfl
@[simp] theorem State.count_slu (ctx k n : Nat) : (s.count ctx k n).slu = s.slu := rfl
@[simp] theorem State.count_arr (ctx k n : Nat) : (s.count ctx k n).arr = s.arr := rfl
@[simp] theorem State.count_com (ctx k n : Nat) : (s.count ctx k n).com = s.com := rfl
@[simp] theorem State.count_map (ctx k n : Nat) : (s.count ctx k n).map = s.map := rfl
@[simp] theorem State.count_whf (ctx k n : Nat) : (s.count ctx k n).whf = s.whf := rfl
@[simp] theorem State.count_hst (ctx k n : Nat) : (s.count ctx k n).hst = { s.hst with exact := tupd 0 s.hst.exact ((s.ctx ctx).partition * 8 + k) (· + n) } := rfl
@[simp] theorem State.count_tru (ctx k n : Nat) : (s.count ctx k n).tru = s.tru := rfl
@[simp] theorem State.count_lnk (ctx k n : Nat) : (s.count ctx k n).lnk = s.lnk := rfl
@[simp] theorem State.count_inputs (ctx k n : Nat) : (s.count ctx k n).inputs = s.inputs := rfl
@[simp] theorem State.count_fresh (ctx k n : Nat) : (s.count ctx k n).fresh = s.fresh := rfl
@[simp] theorem State.count_cur (ctx k n : Nat) : (s.count ctx k n).cur = s.cur := rfl

/-! ### `unwait` -/

@[simp] theorem State.unwait_cycle (bid : Nat) : (s.unwait bid).cycle = s.cycle := rfl
@[simp] theorem State.unwait_epoch (bid : Nat) : (s.unwait bid).epoch = s.epoch := rfl
@[simp] theorem State.unwait_barges (bid : Nat) : (s.unwait bid).barges = s.barges := rfl
@[simp] theorem State.unwait_nextBid (bid : Nat) : (s.unwait bid).nextBid = s.nextBid := rfl
@[simp] theorem State.unwait_leasemax (bid : Nat) : (s.unwait bid).leasemax = s.leasemax := rfl
@[simp] theorem State.unwait_lastSlot (bid : Nat) : (s.unwait bid).lastSlot = s.lastSlot := rfl
@[simp] theorem State.unwait_mem (bid : Nat) : (s.unwait bid).mem = s.mem := rfl
@[simp] theorem State.unwait_tls (bid : Nat) : (s.unwait bid).tls = s.tls := rfl
@[simp] theorem State.unwait_slu (bid : Nat) : (s.unwait bid).slu = s.slu := rfl
@[simp] theorem State.unwait_arr (bid : Nat) : (s.unwait bid).arr = s.arr := rfl
@[simp] theorem State.unwait_com (bid : Nat) : (s.unwait bid).com = s.com := rfl
@[simp] theorem State.unwait_map (bid : Nat) : (s.unwait bid).map = { s.map with chans := s.map.chans.map (fun e => (e.1, { e.2 with waiters := e.2.waiters.erase bid })) } := rfl
@[simp] theorem State.unwait_whf (bid : Nat) : (s.unwait bid).whf = s.whf := rfl
@[simp] theorem State.unwait_hst (bid : Nat) : (s.unwait bid).hst = s.hst := rfl
@[simp] theorem State.unwait_tru (bid : Nat) : (s.unwait bid).tru = s.tru := rfl
@[simp] theorem State.unwait_lnk (bid : Nat) : (s.unwait bid).lnk = s.lnk := rfl
@[simp] theorem State.unwait_inputs (bid : Nat) : (s.unwait bid).inputs = s.inputs := rfl
@[simp] theorem State.unwait_fresh (bid : Nat) : (s.unwait bid).fresh = s.fresh := rfl
@[simp] theorem State.unwait_cur (bid : Nat) : (s.unwait bid).cur = s.cur := rfl

/-! ### `useToken` -/

@[simp] theorem State.useToken_cycle (n : Nat) : (s.useToken n).cycle = s.cycle := rfl
@[simp] theorem State.useToken_epoch (n : Nat) : (s.useToken n).epoch = s.epoch := rfl
@[simp] theorem State.useToken_barges (n : Nat) : (s.useToken n).barges = s.barges := rfl
@[simp] theorem State.useToken_nextBid (n : Nat) : (s.useToken n).nextBid = s.nextBid := rfl
@[simp] theorem State.useToken_leasemax (n : Nat) : (s.useToken n).leasemax = s.leasemax := rfl
@[simp] theorem State.useToken_lastSlot (n : Nat) : (s.useToken n).lastSlot = s.lastSlot := rfl
@[simp] theorem State.useToken_mem (n : Nat) : (s.useToken n).mem = s.mem := rfl
@[simp] theorem State.useToken_tls (n : Nat) : (s.useToken n).tls = s.tls := rfl
@[simp] theorem State.useToken_slu (n : Nat) : (s.useToken n).slu = s.slu := rfl
@[simp] theorem State.useToken_arr (n : Nat) : (s.useToken n).arr = s.arr := rfl
@[simp] theorem State.useToken_com (n : Nat) : (s.useToken n).com = s.com := rfl
@[simp] theorem State.useToken_map (n : Nat) : (s.useToken n).map = { s.map with tokens := tdel s.map.tokens n } := rfl
@[simp] theorem State.useToken_whf (n : Nat) : (s.useToken n).whf = s.whf := rfl
@[simp] theorem State.useToken_hst (n : Nat) : (s.useToken n).hst = s.hst := rfl
@[simp] theorem State.useToken_tru (n : Nat) : (s.useToken n).tru = s.tru := rfl
@[simp] theorem State.useToken_lnk (n : Nat) : (s.useToken n).lnk = s.lnk := rfl
@[simp] theorem State.useToken_inputs (n : Nat) : (s.useToken n).inputs = s.inputs := rfl
@[simp] theorem State.useToken_fresh (n : Nat) : (s.useToken n).fresh = s.fresh := rfl
@[simp] theorem State.useToken_cur (n : Nat) : (s.useToken n).cur = s.cur := rfl

/-! ### `setSluice` -/

@[simp] theorem State.setSluice_cycle (f : Nat) (l : List SCmd) : (s.setSluice f l).cycle = s.cycle := rfl
@[simp] theorem State.setSluice_epoch (f : Nat) (l : List SCmd) : (s.setSluice f l).epoch = s.epoch := rfl
@[simp] theorem State.setSluice_barges (f : Nat) (l : List SCmd) : (s.setSluice f l).barges = s.barges := rfl
@[simp] theorem State.setSluice_nextBid (f : Nat) (l : List SCmd) : (s.setSluice f l).nextBid = s.nextBid := rfl
@[simp] theorem State.setSluice_leasemax (f : Nat) (l : List SCmd) : (s.setSluice f l).leasemax = s.leasemax := rfl
@[simp] theorem State.setSluice_lastSlot (f : Nat) (l : List SCmd) : (s.setSluice f l).lastSlot = s.lastSlot := rfl
@[simp] theorem State.setSluice_mem (f : Nat) (l : List SCmd) : (s.setSluice f l).mem = s.mem := rfl
@[simp] theorem State.setSluice_tls (f : Nat) (l : List SCmd) : (s.setSluice f l).tls = s.tls := rfl
@[simp] theorem State.setSluice_slu (f : Nat) (l : List SCmd) : (s.setSluice f l).slu = { s.slu with cmds := tput [] s.slu.cmds f l } := rfl
@[simp] theorem State.setSluice_arr (f : Nat) (l : List SCmd) : (s.setSluice f l).arr = s.arr := rfl
@[simp] theorem State.setSluice_com (f : Nat) (l : List SCmd) : (s.setSluice f l).com = s.com := rfl
@[simp] theorem State.setSluice_map (f : Nat) (l : List SCmd) : (s.setSluice f l).map = s.map := rfl
@[simp] theorem State.setSluice_whf (f : Nat) (l : List SCmd) : (s.setSluice f l).whf = s.whf := rfl
@[simp] theorem State.setSluice_hst (f : Nat) (l : List SCmd) : (s.setSluice f l).hst = s.hst := rfl
@[simp] theorem State.setSluice_tru (f : Nat) (l : List SCmd) : (s.setSluice f l).tru = s.tru := rfl
@[simp] theorem State.setSluice_lnk (f : Nat) (l : List SCmd) : (s.setSluice f l).lnk = s.lnk := rfl
@[simp] theorem State.setSluice_inputs (f : Nat) (l : List SCmd) : (s.setSluice f l).inputs = s.inputs := rfl
@[simp] theorem State.setSluice_fresh (f : Nat) (l : List SCmd) : (s.setSluice f l).fresh = s.fresh := rfl
@[simp] theorem State.setSluice_cur (f : Nat) (l : List SCmd) : (s.setSluice f l).cur = s.cur := rfl

/-! ### `acceptMapping` -/

@[simp] theorem State.acceptMapping_cycle (n : Nat) (c : Cmd) : (s.acceptMapping n c).cycle = s.cycle := rfl
@[simp] theorem State.acceptMapping_epoch (n : Nat) (c : Cmd) : (s.acceptMapping n c).epoch = s.epoch := rfl
@[simp] theorem State.acceptMapping_barges (n : Nat) (c : Cmd) : (s.acceptMapping n c).barges = s.barges := rfl
@[simp] theorem State.acceptMapping_nextBid (n : Nat) (c : Cmd) : (s.acceptMapping n c).nextBid = s.nextBid := rfl
@[simp] theorem State.acceptMapping_leasemax (n : Nat) (c : Cmd) : (s.acceptMapping n c).leasemax = s.leasemax := rfl
@[simp] theorem State.acceptMapping_lastSlot (n : Nat) (c : Cmd) : (s.acceptMapping n c).lastSlot = s.lastSlot := rfl
@[simp] theorem State.acceptMapping_mem (n : Nat) (c : Cmd) : (s.acceptMapping n c).mem = s.mem := rfl
@[simp] theorem State.acceptMapping_tls (n : Nat) (c : Cmd) : (s.acceptMapping n c).tls = s.tls := rfl
@[simp] theorem State.acceptMapping_slu (n : Nat) (c : Cmd) : (s.acceptMapping n c).slu = s.slu := rfl
@[simp] theorem State.acceptMapping_arr (n : Nat) (c : Cmd) : (s.acceptMapping n c).arr = s.arr := rfl
@[simp] theorem State.acceptMapping_com (n : Nat) (c : Cmd) : (s.acceptMapping n c).com = s.com := rfl
@[simp] theorem State.acceptMapping_map (n : Nat) (c : Cmd) : (s.acceptMapping n c).map = { s.map with queue := tset s.map.queue c.ctx (tgetD [] s.map.queue c.ctx ++ [(n, c)]) } := rfl
@[simp] theorem State.acceptMapping_whf (n : Nat) (c : Cmd) : (s.acceptMapping n c).whf = s.whf := rfl
@[simp] theorem State.acceptMapping_hst (n : Nat) (c : Cmd) : (s.acceptMapping n c).hst = s.hst := rfl
@[simp] theorem State.acceptMapping_tru (n : Nat) (c : Cmd) : (s.acceptMapping n c).tru = s.tru := rfl
@[simp] theorem State.acceptMapping_lnk (n : Nat) (c : Cmd) : (s.acceptMapping n c).lnk = s.lnk := rfl
@[simp] theorem State.acceptMapping_inputs (n : Nat) (c : Cmd) : (s.acceptMapping n c).inputs = s.inputs := rfl
@[simp] theorem State.acceptMapping_fresh (n : Nat) (c : Cmd) : (s.acceptMapping n c).fresh = s.fresh := rfl
@[simp] theorem State.acceptMapping_cur (n : Nat) (c : Cmd) : (s.acceptMapping n c).cur = s.cur := rfl

/-! ### `setArr` -/

@[simp] theorem State.setArr_cycle (a : ArraySt) : (s.setArr a).cycle = s.cycle := rfl
@[simp] theorem State.setArr_epoch (a : ArraySt) : (s.setArr a).epoch = s.epoch := rfl
@[simp] theorem State.setArr_barges (a : ArraySt) : (s.setArr a).barges = s.barges := rfl
@[simp] theorem State.setArr_nextBid (a : ArraySt) : (s.setArr a).nextBid = s.nextBid := rfl
@[simp] theorem State.setArr_leasemax (a : ArraySt) : (s.setArr a).leasemax = s.leasemax := rfl
@[simp] theorem State.setArr_lastSlot (a : ArraySt) : (s.setArr a).lastSlot = s.lastSlot := rfl
@[simp] theorem State.setArr_mem (a : ArraySt) : (s.setArr a).mem = s.mem := rfl
@[simp] theorem State.setArr_tls (a : ArraySt) : (s.setArr a).tls = s.tls := rfl
@[simp] theorem State.setArr_slu (a : ArraySt) : (s.setArr a).slu = s.slu := rfl
@[simp] theorem State.setArr_arr (a : ArraySt) : (s.setArr a).arr = a := rfl
@[simp] theorem State.setArr_com (a : ArraySt) : (s.setArr a).com = s.com := rfl
@[simp] theorem State.setArr_map (a : ArraySt) : (s.setArr a).map = s.map := rfl
@[simp] theorem State.setArr_whf (a : ArraySt) : (s.setArr a).whf = s.whf := rfl
@[simp] theorem State.setArr_hst (a : ArraySt) : (s.setArr a).hst = s.hst := rfl
@[simp] theorem State.setArr_tru (a : ArraySt) : (s.setArr a).tru = s.tru := rfl
@[simp] theorem State.setArr_lnk (a : ArraySt) : (s.setArr a).lnk = s.lnk := rfl
@[simp] theorem State.setArr_inputs (a : ArraySt) : (s.setArr a).inputs = s.inputs := rfl
@[simp] theorem State.setArr_fresh (a : ArraySt) : (s.setArr a).fresh = s.fresh := rfl
@[simp] theorem State.setArr_cur (a : ArraySt) : (s.setArr a).cur = s.cur := rfl

/-! ### `setVc` -/

@[simp] theorem State.setVc_cycle (v : Nat) (c : VCache) : (s.setVc v c).cycle = s.cycle := rfl
@[simp] theorem State.setVc_epoch (v : Nat) (c : VCache) : (s.setVc v c).epoch = s.epoch := rfl
@[simp] theorem State.setVc_barges (v : Nat) (c : VCache) : (s.setVc v c).barges = s.barges := rfl
@[simp] theorem State.setVc_nextBid (v : Nat) (c : VCache) : (s.setVc v c).nextBid = s.nextBid := rfl
@[simp] theorem State.setVc_leasemax (v : Nat) (c : VCache) : (s.setVc v c).leasemax = s.leasemax := rfl
@[simp] theorem State.setVc_lastSlot (v : Nat) (c : VCache) : (s.setVc v c).lastSlot = s.lastSlot := rfl
@[simp] theorem State.setVc_mem (v : Nat) (c : VCache) : (s.setVc v c).mem = s.mem := rfl
@[simp] theorem State.setVc_tls (v : Nat) (c : VCache) : (s.setVc v c).tls = s.tls := rfl
@[simp] theorem State.setVc_slu (v : Nat) (c : VCache) : (s.setVc v c).slu = s.slu := rfl
@[simp] theorem State.setVc_arr (v : Nat) (c : VCache) : (s.setVc v c).arr = s.arr := rfl
@[simp] theorem State.setVc_com (v : Nat) (c : VCache) : (s.setVc v c).com = { s.com with vc := tset s.com.vc v c } := rfl
@[simp] theorem State.setVc_map (v : Nat) (c : VCache) : (s.setVc v c).map = s.map := rfl
@[simp] theorem State.setVc_whf (v : Nat) (c : VCache) : (s.setVc v c).whf = s.whf := rfl
@[simp] theorem State.setVc_hst (v : Nat) (c : VCache) : (s.setVc v c).hst = s.hst := rfl
@[simp] theorem State.setVc_tru (v : Nat) (c : VCache) : (s.setVc v c).tru = s.tru := rfl
@[simp] theorem State.setVc_lnk (v : Nat) (c : VCache) : (s.setVc v c).lnk = s.lnk := rfl
@[simp] theorem State.setVc_inputs (v : Nat) (c : VCache) : (s.setVc v c).inputs = s.inputs := rfl
@[simp] theorem State.setVc_fresh (v : Nat) (c : VCache) : (s.setVc v c).fresh = s.fresh := rfl
@[simp] theorem State.setVc_cur (v : Nat) (c : VCache) : (s.setVc v c).cur = s.cur := rfl

/-! ### `setNode` -/

@[simp] theorem State.setNode_cycle (k : Nat) (n : Node) : (s.setNode k n).cycle = s.cycle := rfl
@[simp] theorem State.setNode_epoch (k : Nat) (n : Node) : (s.setNode k n).epoch = s.epoch := rfl
@[simp] theorem State.setNode_barges (k : Nat) (n : Node) : (s.setNode k n).barges = s.barges := rfl
@[simp] theorem State.setNode_nextBid (k : Nat) (n : Node) : (s.setNode k n).nextBid = s.nextBid := rfl
@[simp] theorem State.setNode_leasemax (k : Nat) (n : Node) : (s.setNode k n).leasemax = s.leasemax := rfl
@[simp] theorem State.setNode_lastSlot (k : Nat) (n : Node) : (s.setNode k n).lastSlot = s.lastSlot := rfl
@[simp] theorem State.setNode_mem (k : Nat) (n : Node) : (s.setNode k n).mem = s.mem := rfl
@[simp] theorem State.setNode_tls (k : Nat) (n : Node) : (s.setNode k n).tls = s.tls := rfl
@[simp] theorem State.setNode_slu (k : Nat) (n : Node) : (s.setNode k n).slu = s.slu := rfl
@[simp] theorem State.setNode_arr (k : Nat) (n : Node) : (s.setNode k n).arr = s.arr := rfl
@[simp] theorem State.setNode_com (k : Nat) (n : Node) : (s.setNode k n).com = s.com := rfl
@[simp] theorem State.setNode_map (k : Nat) (n : Node) : (s.setNode k n).map = { s.map with nodes := tset s.map.nodes k n } := rfl
@[simp] theorem State.setNode_whf (k : Nat) (n : Node) : (s.setNode k n).whf = s.whf := rfl
@[simp] theorem State.setNode_hst (k : Nat) (n : Node) : (s.setNode k n).hst = s.hst := rfl
@[simp] theorem State.setNode_tru (k : Nat) (n : Node) : (s.setNode k n).tru = s.tru := rfl
@[simp] theorem State.setNode_lnk (k : Nat) (n : Node) : (s.setNode k n).lnk = s.lnk := rfl
@[simp] theorem State.setNode_inputs (k : Nat) (n : Node) : (s.setNode k n).inputs = s.inputs := rfl
@[simp] theorem State.setNode_fresh (k : Nat) (n : Node) : (s.setNode k n).fresh = s.fresh := rfl
@[simp] theorem State.setNode_cur (k : Nat) (n : Node) : (s.setNode k n).cur = s.cur := rfl

/-! ### `setHq` -/

@[simp] theorem State.setHq_cycle (qi : Nat) (q : HQueue) : (s.setHq qi q).cycle = s.cycle := rfl
@[simp] theorem State.setHq_epoch (qi : Nat) (q : HQueue) : (s.setHq qi q).epoch = s.epoch := rfl
@[simp] theorem State.setHq_barges (qi : Nat) (q : HQueue) : (s.setHq qi q).barges = s.barges := rfl
@[simp] theorem State.setHq_nextBid (qi : Nat) (q : HQueue) : (s.setHq qi q).nextBid = s.nextBid := rfl
@[simp] theorem State.setHq_leasemax (qi : Nat) (q : HQueue) : (s.setHq qi q).leasemax = s.leasemax := rfl
@[simp] theorem State.setHq_lastSlot (qi : Nat) (q : HQueue) : (s.setHq qi q).lastSlot = s.lastSlot := rfl
@[simp] theorem State.setHq_mem (qi : Nat) (q : HQueue) : (s.setHq qi q).mem = s.mem := rfl
@[simp] theorem State.setHq_tls (qi : Nat) (q : HQueue) : (s.setHq qi q).tls = s.tls := rfl
@[simp] theorem State.setHq_slu (qi : Nat) (q : HQueue) : (s.setHq qi q).slu = s.slu := rfl
@[simp] theorem State.setHq_arr (qi : Nat) (q : HQueue) : (s.setHq qi q).arr = s.arr := rfl
@[simp] theorem State.setHq_com (qi : Nat) (q : HQueue) : (s.setHq qi q).com = s.com := rfl
@[simp] theorem State.setHq_map (qi : Nat) (q : HQueue) : (s.setHq qi q).map = s.map := rfl
@[simp] theorem State.setHq_whf (qi : Nat) (q : HQueue) : (s.setHq qi q).whf = s.whf := rfl
@[simp] theorem State.setHq_hst (qi : Nat) (q : HQueue) : (s.setHq qi q).hst = { s.hst with queues := tset s.hst.queues qi q } := rfl
@[simp] theorem State.setHq_tru (qi : Nat) (q : HQueue) : (s.setHq qi q).tru = s.tru := rfl
@[simp] theorem State.setHq_lnk (qi : Nat) (q : HQueue) : (s.setHq qi q).lnk = s.lnk := rfl
@[simp] theorem State.setHq_inputs (qi : Nat) (q : HQueue) : (s.setHq qi q).inputs = s.inputs := rfl
@[simp] theorem State.setHq_fresh (qi : Nat) (q : HQueue) : (s.setHq qi q).fresh = s.fresh := rfl
@[simp] theorem State.setHq_cur (qi : Nat) (q : HQueue) : (s.setHq qi q).cur = s.cur := rfl

/-! ### `setPackets` -/

@[simp] theorem State.setPackets_cycle (l : List Packet) : (s.setPackets l).cycle = s.cycle := rfl
@[simp] theorem State.setPackets_epoch (l : List Packet) : (s.setPackets l).epoch = s.epoch := rfl
@[simp] theorem State.setPackets_barges (l : List Packet) : (s.setPackets l).barges = s.barges := rfl
@[simp] theorem State.setPackets_nextBid (l : List Packet) : (s.setPackets l).nextBid = s.nextBid := rfl
@[simp] theorem State.setPackets_leasemax (l : List Packet) : (s.setPackets l).leasemax = s.leasemax := rfl
@[simp] theorem State.setPackets_lastSlot (l : List Packet) : (s.setPackets l).lastSlot = s.lastSlot := rfl
@[simp] theorem State.setPackets_mem (l : List Packet) : (s.setPackets l).mem = s.mem := rfl
@[simp] theorem State.setPackets_tls (l : List Packet) : (s.setPackets l).tls = s.tls := rfl
@[simp] theorem State.setPackets_slu (l : List Packet) : (s.setPackets l).slu = s.slu := rfl
@[simp] theorem State.setPackets_arr (l : List Packet) : (s.setPackets l).arr = s.arr := rfl
@[simp] theorem State.setPackets_com (l : List Packet) : (s.setPackets l).com = s.com := rfl
@[simp] theorem State.setPackets_map (l : List Packet) : (s.setPackets l).map = s.map := rfl
@[simp] theorem State.setPackets_whf (l : List Packet) : (s.setPackets l).whf = s.whf := rfl
@[simp] theorem State.setPackets_hst (l : List Packet) : (s.setPackets l).hst = { s.hst with packets := l } := rfl
@[simp] theorem State.setPackets_tru (l : List Packet) : (s.setPackets l).tru = s.tru := rfl
@[simp] theorem State.setPackets_lnk (l : List Packet) : (s.setPackets l).lnk = s.lnk := rfl
@[simp] theorem State.setPackets_inputs (l : List Packet) : (s.setPackets l).inputs = s.inputs := rfl
@[simp] theorem State.setPackets_fresh (l : List Packet) : (s.setPackets l).fresh = s.fresh := rfl
@[simp] theorem State.setPackets_cur (l : List Packet) : (s.setPackets l).cur = s.cur := rfl

/-! ### `updB`: a barge that exists is changed, nothing else -/

@[simp] theorem State.updB_cycle (bid : Nat) (f : Barge → Barge) : (s.updB bid f).cycle = s.cycle := by
  unfold State.updB; split <;> rfl
@[simp] theorem State.updB_epoch (bid : Nat) (f : Barge → Barge) : (s.updB bid f).epoch = s.epoch := by
  unfold State.updB; split <;> rfl
@[simp] theorem State.updB_nextBid (bid : Nat) (f : Barge → Barge) : (s.updB bid f).nextBid = s.nextBid := by
  unfold State.updB; split <;> rfl
@[simp] theorem State.updB_leasemax (bid : Nat) (f : Barge → Barge) : (s.updB bid f).leasemax = s.leasemax := by
  unfold State.updB; split <;> rfl
@[simp] theorem State.updB_lastSlot (bid : Nat) (f : Barge → Barge) : (s.updB bid f).lastSlot = s.lastSlot := by
  unfold State.updB; split <;> rfl
@[simp] theorem State.updB_mem (bid : Nat) (f : Barge → Barge) : (s.updB bid f).mem = s.mem := by
  unfold State.updB; split <;> rfl
@[simp] theorem State.updB_tls (bid : Nat) (f : Barge → Barge) : (s.updB bid f).tls = s.tls := by
  unfold State.updB; split <;> rfl
@[simp] theorem State.updB_slu (bid : Nat) (f : Barge → Barge) : (s.updB bid f).slu = s.slu := by
  unfold State.updB; split <;> rfl
@[simp] theorem State.updB_arr (bid : Nat) (f : Barge → Barge) : (s.updB bid f).arr = s.arr := by
  unfold State.updB; split <;> rfl
@[simp] theorem State.updB_com (bid : Nat) (f : Barge → Barge) : (s.updB bid f).com = s.com := by
  unfold State.updB; split <;> rfl
@[simp] theorem State.updB_map (bid : Nat) (f : Barge → Barge) : (s.updB bid f).map = s.map := by
  unfold State.updB; split <;> rfl
@[simp] theorem State.updB_whf (bid : Nat) (f : Barge → Barge) : (s.updB bid f).whf = s.whf := by
  unfold State.updB; split <;> rfl
@[simp] theorem State.updB_hst (bid : Nat) (f : Barge → Barge) : (s.updB bid f).hst = s.hst := by
  unfold State.updB; split <;> rfl
@[simp] theorem State.updB_tru (bid : Nat) (f : Barge → Barge) : (s.updB bid f).tru = s.tru := by
  unfold State.updB; split <;> rfl
@[simp] theorem State.updB_lnk (bid : Nat) (f : Barge → Barge) : (s.updB bid f).lnk = s.lnk := by
  unfold State.updB; split <;> rfl
@[simp] theorem State.updB_inputs (bid : Nat) (f : Barge → Barge) : (s.updB bid f).inputs = s.inputs := by
  unfold State.updB; split <;> rfl
@[simp] theorem State.updB_fresh (bid : Nat) (f : Barge → Barge) : (s.updB bid f).fresh = s.fresh := by
  unfold State.updB; split <;> rfl
@[simp] theorem State.updB_cur (bid : Nat) (f : Barge → Barge) : (s.updB bid f).cur = s.cur := by
  unfold State.updB; split <;> rfl

theorem State.updB_some {s : State} {bid : Nat} {b : Barge} (h : s.barge? bid = some b) (f : Barge → Barge) :
    s.updB bid f = s.setB bid (f b) := by
  unfold State.barge? at h; unfold State.updB; rw [h]

theorem State.updB_none {s : State} {bid : Nat} (h : s.barge? bid = none) (f : Barge → Barge) : s.updB bid f = s := by
  unfold State.barge? at h; unfold State.updB; rw [h]

end Sys2Proof.Machine
end

