-- ==== Sys2Proof/Laws/Words.lean ====
section
/-! SUPPORT. What a word leaves: one lemma for each shape of outcome, which statements about single instructions cite
instead of unfolding `issue`, `leave` and `endRun`. -/

namespace Sys2Proof.Machine

/-! ## Issue -/

theorem issue_of {s : State} {b : Barge} {r : Run} (h : Issuing s b r) (st : Bool) (f : WCtx → WOut) :
    issue s st f = .next (s.leave s.cur st (f (ctxOf s b r))) := by
  obtain ⟨h1, h2, h3⟩ := h
  simp [issue, h1, h2, h3, ctxOf]

theorem issueWith_of {s : State} {b : Barge} {r : Run} (h : Issuing s b r) (st : Bool) (f : WCtx → State × WOut) :
    issueWith s st f = .next ((f (ctxOf s b r)).1.leave s.cur st (f (ctxOf s b r)).2) := by
  obtain ⟨h1, h2, h3⟩ := h
  simp [issueWith, h1, h2, h3, ctxOf]

/-- A word that issues leaves a next state or meets the fault of a machine without a barge, nothing else. -/
theorem issue_cases (s : State) (st : Bool) (f : WCtx → WOut) :
    (∃ b r, Issuing s b r ∧ issue s st f = .next (s.leave s.cur st (f (ctxOf s b r)))) ∨
      issue s st f = .fault .noBarge := by
  cases h : s.barge? s.cur with
  | none => right; simp [issue, h]
  | some b =>
    cases h2 : b.run with
    | none => right; simp [issue, h, h2]
    | some r =>
      by_cases h3 : b.st = .resident
      · left; exact ⟨b, r, ⟨h, h3, h2⟩, issue_of ⟨h, h3, h2⟩ st f⟩
      · right; simp [issue, h, h2, h3]

theorem issueWith_cases (s : State) (st : Bool) (f : WCtx → State × WOut) :
    (∃ b r, Issuing s b r ∧ issueWith s st f = .next ((f (ctxOf s b r)).1.leave s.cur st (f (ctxOf s b r)).2)) ∨
      issueWith s st f = .fault .noBarge := by
  cases h : s.barge? s.cur with
  | none => right; simp [issueWith, h]
  | some b =>
    cases h2 : b.run with
    | none => right; simp [issueWith, h, h2]
    | some r =>
      by_cases h3 : b.st = .resident
      · left; exact ⟨b, r, ⟨h, h3, h2⟩, issueWith_of ⟨h, h3, h2⟩ st f⟩
      · right; simp [issueWith, h, h2, h3]

/-! ## Barges -/

theorem State.barge_of {s : State} {k : Nat} {b : Barge} (h : s.barge? k = some b) : s.barge k = b := by
  simp [State.barge, State.barge?, tgetD] at *; rw [h]; rfl

theorem State.updB_updB (s : State) (k : Nat) (f g : Barge → Barge) :
    (s.updB k f).updB k g = s.updB k (fun b => g (f b)) := by
  cases h : s.barge? k with
  | none => simp [State.updB_none h]
  | some b => simp [State.updB_some h]

/-! ## The slot that issued last, and requests that waited -/

@[simp] theorem State.barge?_issued (s : State) (b : Barge) (k : Nat) : (s.issued b).barge? k = s.barge? k := rfl
@[simp] theorem State.barge_issued (s : State) (b : Barge) (k : Nat) : (s.issued b).barge k = s.barge k := rfl

theorem Issuing.issued {s : State} {b : Barge} {r : Run} (h : Issuing s b r) : Issuing (s.issued b) b r := h

/-- Where nothing waits for a granule, a word that has issued serves nothing. -/
theorem State.doneWaiting_none {s : State} (h : s.mem.leaseQ = []) (k : Nat) : s.doneWaiting k = s := by
  simp [State.doneWaiting, h]

theorem State.doing_none {s : State} {b : Barge} {f : State → State} (h : (f (s.issued b)).mem.leaseQ = []) :
    s.doing b f = f (s.issued b) := State.doneWaiting_none h _

/-! ## Results -/

theorem leave_items_false {s : State} {b : Barge} {r : Run} (h : Issuing s b r) (l : List Item) (fl : Nat) :
    s.leave s.cur false (.items l fl) = s.doing b (fun s => s.setB s.cur (b.later r l fl)) := by
  obtain ⟨h1, _, h3⟩ := h
  have h2 : (s.issued b).barge? s.cur = some b := h1
  simp [State.leave, State.doing, h1, h3, State.updB_some h2, Barge.later, Run.grown]

/-- The end of a run in which no enabled flag was raised. -/
theorem endRun_next {s : State} {k : Nat} {b : Barge} {r : Run} (h : s.barge? k = some b) (hf : r.raised &&& b.rfpen = 0) (t : Nat) :
    s.endRun k r (.next t) = (s.putItems k r.items).updB k (fun c =>
      ({ c with rfpfl := c.rfpfl ||| r.raised }).goOn r.here.pc t) := by
  simp [State.endRun, State.barge_of h, hf, State.updB_updB]

theorem leave_items_true {s : State} {b : Barge} {r : Run} (h : Issuing s b r) (l : List Item) (fl : Nat)
    (hf : (r.raised ||| fl) &&& b.rfpen = 0) :
    s.leave s.cur true (.items l fl) = s.doing b (fun s => (s.putItems s.cur (r.items ++ l)).updB s.cur (fun c =>
      ({ c with rfpfl := c.rfpfl ||| (r.raised ||| fl) }).goOn r.here.pc (r.here.pc + 4))) := by
  obtain ⟨h1, _, h3⟩ := h
  have h2 : (s.issued b).barge? s.cur = some b := h1
  simp [State.leave, State.doing, h1, h3, hf, endRun_next h2]

/-- One-word runs: the results of `l` alone, in the state `t` that the issue of the word has left. -/
theorem leave_items_alone {s t : State} {b c : Barge} {r : Run} (h : Alone s b r) (hc : Issuing t c r) (hcur : t.cur = s.cur)
    (hen : c.rfpen = b.rfpen) (l : List Item) (fl : Nat) (hf : fl &&& b.rfpen = 0) {c' : Barge}
    (hp : (t.issued c).putItems s.cur l = (t.issued c).setB s.cur c') (hfr : c'.frame = none) (hfl : c'.rfpfl = c.rfpfl) :
    t.leave s.cur true (.items l fl) = t.doing c (fun t => t.setB s.cur ({ c' with rfpfl := c.rfpfl ||| fl }.past r)) := by
  obtain ⟨_, h1, h2, _, _⟩ := h
  have := leave_items_true hc l fl (by simpa [h2, hen] using hf)
  rw [hcur] at this
  rw [this, h1, h2]
  simp [State.doing, hcur, hp, Barge.goOn, hfr, hfl, Barge.past]

/-- An instruction whose word leaves results. -/
theorem leavesIn_of {i : Bool → Instr} {s t : State} {b c : Barge} {r : Run} (hc : Issuing t c r)
    (hcur : t.cur = s.cur) (hen : c.rfpen = b.rfpen) (hframe : c.frame = b.frame) {l : List Item} {fl : Nat} {c' : Barge}
    (he : ∀ st, exec (i st) s = .next (t.leave s.cur st (.items l fl)))
    (hp : (t.issued c).putItems s.cur l = (t.issued c).setB s.cur c') (hfr : c'.frame = c.frame) (hfl : c'.rfpfl = c.rfpfl) :
    LeavesIn i s b r t c l fl c' := by
  refine ⟨?_, fun hf => ?_, fun ha hf => ?_⟩
  · rw [he, ← hcur, leave_items_false hc]; rfl
  · rw [he, ← hcur, leave_items_true hc l fl (by rw [hen]; exact hf)]; rfl
  · rw [he, leave_items_alone ha hc hcur hen l fl hf hp (by rw [hfr, hframe]; exact ha.2.2.2.2) hfl]

theorem leaves_of {i : Bool → Instr} {s : State} {b : Barge} {r : Run} (h : Issuing s b r) {l : List Item} {fl : Nat} {b' : Barge}
    (he : ∀ st, exec (i st) s = .next (s.leave s.cur st (.items l fl)))
    (hp : (s.issued b).putItems s.cur l = (s.issued b).setB s.cur b') (hfr : b'.frame = b.frame) (hfl : b'.rfpfl = b.rfpfl) :
    Leaves i s b r l fl b' := leavesIn_of h rfl rfl rfl he hp hfr hfl

/-- The results of a word that writes one scalar register. -/
theorem putItems_sreg {s : State} {k : Nat} {b : Barge} (h : s.barge? k = some b) (d : Nat) (v : Word) :
    s.putItems k [.sreg d v] = s.setB k (b.withS d v) := by
  by_cases hd : d = 0
  · subst hd
    simp [State.putItems, State.putItem, Barge.withS, State.setB, tset_self h]
  · simp [State.putItems, State.putItem, Barge.withS, hd, State.updB_some h]

theorem putItems_vreg {s : State} {k : Nat} {b : Barge} (h : s.barge? k = some b) (d : Nat) (v : VReg) :
    s.putItems k [.vreg d v] = s.setB k (b.withV d v) := by
  simp [State.putItems, State.putItem, Barge.withV, State.updB_some h]

@[simp] theorem Barge.withS_frame (b : Barge) (d : Nat) (v : Word) : (b.withS d v).frame = b.frame := by
  unfold Barge.withS; split <;> rfl
@[simp] theorem Barge.withS_rfpfl (b : Barge) (d : Nat) (v : Word) : (b.withS d v).rfpfl = b.rfpfl := by
  unfold Barge.withS; split <;> rfl

theorem writesS_of {i : Bool → Instr} {s : State} {b : Barge} {r : Run} (h : Issuing s b r) {d : Nat} {v : Word}
    (he : ∀ st, exec (i st) s = .next (s.leave s.cur st (scalarOut d v))) : WritesS i s b r d v :=
  leaves_of h he (putItems_sreg h.issued.1 d v) (by simp) (by simp)

theorem writesV_of {i : Bool → Instr} {s : State} {b : Barge} {r : Run} (h : Issuing s b r) {d : Nat} {v : VReg} {fl : Nat}
    (he : ∀ st, exec (i st) s = .next (s.leave s.cur st (.items [.vreg d v] fl))) : WritesV i s b r d v fl :=
  leaves_of h he (putItems_vreg h.issued.1 d v) rfl rfl

/-- A buffered effect other than a fence. -/
theorem putItems_eff {s : State} {k : Nat} {b : Barge} (h : s.barge? k = some b) {e : Effect} (he : ∀ sc, e ≠ .fence sc) :
    s.putItems k [.eff e] = s.setB k { b with eff := b.eff ++ [e] } := by
  cases e <;> simp_all [State.putItems, State.putItem, State.updB_some h]

/-! ## Runs that end -/

/-- A region that has buffered nothing releases nothing. -/
@[simp] theorem performAll_nil (k : Nat) (s : State) : performAll k s [] = s := rfl

/-- Nothing waits for a granule: a barge that waits for none serves nothing. -/
theorem leaveQueue_none {s : State} (h : s.mem.leaseQ = []) (k : Nat) : s.leaveQueue k = s := by
  simp [State.leaveQueue, State.unqueue, State.serveLeaseQ, h]

/-- Leases of a barge that holds none end with nothing done. -/
theorem endLeases_none {s : State} {k : Nat} (h : (s.barge k).leases = []) (hq : s.mem.leaseQ = []) (f : Barge → Barge) :
    s.endLeases k f = s.updB k f := by
  have e : s.setMem s.mem = s := rfl
  rw [State.endLeases, h]
  dsimp only [List.foldl_nil]
  rw [e]
  refine leaveQueue_none ?_ k
  unfold State.updB
  split
  · exact hq
  · exact hq

/-- The commit of a region that has buffered nothing and holds no lease, where nothing waits for a granule: its record is written
(R13), and what follows takes place. -/
theorem commitRegion_plain {s : State} {k : Nat} {b : Barge} (h : s.barge? k = some b) (he : b.eff = []) (hl : b.late = [])
    (hs : b.leases = []) (hq : s.mem.leaseQ = []) (a : Nat) (f : Follow) :
    s.commitRegion k a f = (s.setB k { b.recordCommit a with commit := none }).follow k f := by
  simp [State.commitRegion, h, State.goLate, State.goCommit, he, hl, hs, Barge.released, endLeases_none, Barge.sealed, hq,
    Barge.recordCommit]

theorem endsAt_of {i : Instr} {s : State} {b : Barge} {r : Run} (h : Issuing s b r) {l : List Item} {t : Nat} {b' : Barge}
    (he : exec i s = .next (s.leave s.cur true (.fin l (.next t))))
    (hp : (s.issued b).putItems s.cur l = (s.issued b).setB s.cur b')
    (hfr : b'.frame = b.frame) (hfl : b'.rfpfl = b.rfpfl) : EndsAt i s b r l b' t := by
  have key : r.raised &&& b.rfpen = 0 →
      s.leave s.cur true (.fin l (.next t)) = s.doing b (fun s => (s.putItems s.cur (r.items ++ l)).updB s.cur (fun e =>
        ({ e with rfpfl := e.rfpfl ||| r.raised }).goOn r.here.pc t)) := by
    intro hf
    have h2 : (s.issued b).barge? s.cur = some b := h.1
    simp [State.leave, State.doing, h.1, h.2.2, hf, endRun_next h2]
  refine ⟨fun hf => by rw [he, key hf], fun ha => ?_⟩
  obtain ⟨_, h1, h2, _, h3⟩ := ha
  rw [he, key (by simp [h2]), h1, h2]
  simp [State.doing, hp, Barge.goOn, hfr, h3, hfl]

theorem traps_of {i : Instr} {s : State} {b : Barge} {r : Run} (h : Issuing s b r) {st : Bool} {w : Why}
    (he : exec i s = .next (s.leave s.cur st (.exc w))) : Traps i s r w.cls w.detail w.s3 := by
  simp [Traps, he, State.leave, h.1, h.2.2, State.barge_of h.1]

/-! ## Commands -/

theorem commands_of {i : Bool → Instr} {s : State} {b : Barge} {r : Run} (h : Issuing s b r) {d tl : Nat} {k : Cmd}
    (he : ∀ st, exec (i st) s = .next (s.leave s.cur st (.items [.cmd d tl k] 0))) : Commands i s b r d tl k := by
  refine ⟨?_, fun hf => ?_, fun ha => ?_⟩
  · rw [he, leave_items_false h]
  · rw [he, leave_items_true h _ _ (by simpa using hf)]; simp
  · have ⟨_, h1, h2, _, h3⟩ := ha
    rw [he, leave_items_true h _ _ (by simp [h2]), h1, h2]
    have hb : (((s.issued b).reserve tl k.ctx).2).barge? s.cur = some b := h.1
    by_cases hd : d = 0
    · simp [State.doing, State.putItems, State.putItem, hd, State.updB_some hb, Barge.goOn, h3, Barge.withS, Barge.past]
      rfl
    · simp [State.doing, State.putItems, State.putItem, hd, State.updB_some hb, Barge.goOn, h3, Barge.withS, Barge.past]
      rfl

end Sys2Proof.Machine
end

