-- ==== Sys2Proof/Tests/Slice0.lean ====
section
/-! SUPPORT. Tests: ill-formed terms that the check refuses, words of every row of spec/opcode_table.json written out from
the bit fields that the table gives, the spec's own worked examples, one step of each kind on a small machine, and for each
statement a machine and operands that meet its hypotheses. Expected values are the spec's, or computed by hand from its
rules; the comment before a test names the rule. -/

open Sys2Proof Sys2Proof.Machine

namespace Sys2Proof.Tests

set_option Elab.async false

/-! ## Ill-formed terms -/

/-- One term for each check of WellFormed.lean, and the well-formed term beside it (R72 to R88). -/
theorem test_wf_refuses : ([.add true 32 0 0, .add true 0 32 0, .add true 0 0 32, .addi true 0 0 32768, .slli true 0 0 64,
    .lui true 0 1048576, .beqz 0 131072, .j 33554432, .jlr 0 0 32768, .srd true 0 0x003, .swr true 0 0x106,
    .srset true 0 0 0x603, .vdiv true 0 0 0 .all .i8, .vand true 0 0 0 .all .f32, .vadd true 0 0 0 .all .rl8,
    .vsqrt true 0 0 .all .rl8, .vclz true 0 0 .all .bf16, .vneg true 0 0 .all .rl8, .vidx true 0 .all .f32,
    .vcvt true 0 0 .i16 .all .i16 ⟨.rne, false⟩, .ldd true 0 0 .sp 1024, .sqrst true 0 16, .scopy true 0 0 16,
    .sqstatNamed true 0 0 0, .mstat true 0 0 4, .cquery true 0 0 0 4, .trap 0 0 16, .rpt 32 0 0 0 0 0, .rpt 0 16 0 0 0 0,
    .rpt 0 0 16 0 0 0, .rpt 0 0 0 16 0 0, .rpt 0 0 0 0 16 0, .rpt 0 0 0 0 0 16, .pfx 33554432] : List Instr).all (fun i => !i.wf) =
      true := by decide +kernel

theorem test_wf_accepts : ([.add true 31 31 31, .addi true 0 0 32767, .slli true 0 0 63, .lui true 0 1048575, .beqz 0 131071,
    .j 33554431, .srd true 0 0x002, .srset true 0 0 0x602, .vdiv true 0 0 0 .all .e5m2, .vand true 0 0 0 .all .i8,
    .vcvt true 0 0 .i16 .all .i32 ⟨.rne, false⟩, .ldd true 0 0 .sp 1023, .sqrst true 0 15, .sqstatNamed true 0 0 1,
    .mstat true 0 0 3, .trap 0 0 15, .rpt 31 15 15 15 15 15, .pfx 33554431] : List Instr).all Instr.wf = true := by
  decide +kernel

/-! ## Decoding -/

/-- Each word decodes to the instruction beside it, which is well-formed and encodes to it. -/
def reads (l : List (Nat × Instr)) : Bool := l.all (fun e =>
  (match decode32 e.1 with | .ok i => decide (i = e.2) | .error _ => false) && e.2.wf && e.2.isWord && encode e.2 == e.1)

/-- Each word is refused for the reason beside it. -/
def refuses (l : List (Nat × Illegal)) : Bool := l.all (fun e =>
  match decode32 e.1 with | .ok _ => false | .error w => decide (w = e.2))

/-- R72 to R88: a word that the encoding does not have, for each reason. -/
theorem test_decode_refuses : refuses [
    (0x00000000, .reservedMajor), (0xAE000000, .reservedMajor), (0x82000007, .unassigned), (0x97270000 + 0x80000, .unassigned),
    (0x82000440, .nonzeroField), (0x90000100, .nonzeroField), (0xA0000063 + 0x80, .badType), (0xA00000A3, .badType),
    (0xC4000018, .badScope), (0x9E000003, .noSysReg), (0xA6000000, .equalTypes), (0x16000000, .stopClear),
    (0x5A000010, .stopClear), (0xFE000000, .prefixStop)] = true := by decide +kernel

theorem test_decode_scalar : reads [
    (0x82996C00, .add true 9 18 27),
    (0x82996C01, .sub true 9 18 27),
    (0x82996C02, .and true 9 18 27),
    (0x82996C03, .or true 9 18 27),
    (0x82996C04, .xor true 9 18 27),
    (0x82996C05, .andn true 9 18 27),
    (0x82996C06, .orn true 9 18 27),
    (0x82996C08, .sll true 9 18 27),
    (0x82996C09, .srl true 9 18 27),
    (0x82996C0A, .sra true 9 18 27),
    (0x82996C0B, .rol true 9 18 27),
    (0x82996C0C, .ror true 9 18 27),
    (0x82996C10, .slt true 9 18 27),
    (0x82996C11, .sltu true 9 18 27),
    (0x82996C12, .seq true 9 18 27),
    (0x82996C13, .sne true 9 18 27),
    (0x82996C14, .min true 9 18 27),
    (0x82996C15, .max true 9 18 27),
    (0x82996C16, .minu true 9 18 27),
    (0x82996C17, .maxu true 9 18 27),
    (0x82996C20, .mul true 9 18 27),
    (0x82996C21, .mulh true 9 18 27),
    (0x82996C22, .mulhu true 9 18 27),
    (0x82996C23, .mulhsu true 9 18 27),
    (0x82996C24, .div true 9 18 27),
    (0x82996C25, .divu true 9 18 27),
    (0x82996C26, .rem true 9 18 27),
    (0x82996C27, .remu true 9 18 27),
    (0x82990040, .clz true 9 18),
    (0x82990041, .ctz true 9 18),
    (0x82990042, .popc true 9 18),
    (0x82990043, .ffs true 9 18),
    (0x82990044, .brev true 9 18),
    (0x82990045, .bswap true 9 18),
    (0x82990046, .sxb true 9 18),
    (0x82990047, .sxh true 9 18),
    (0x82990048, .sxw true 9 18),
    (0x82990049, .zxb true 9 18),
    (0x8299004A, .zxh true 9 18),
    (0x8299004B, .zxw true 9 18)] = true := by decide +kernel

theorem test_decode_immediate : reads [
    (0x84995396, .addi true 9 18 21398),
    (0x86995396, .andi true 9 18 21398),
    (0x88995396, .ori true 9 18 21398),
    (0x8A995396, .xori true 9 18 21398),
    (0x8C995396, .slti true 9 18 21398),
    (0x8E995396, .sltiu true 9 18 21398),
    (0x90990035, .slli true 9 18 53),
    (0x90990075, .srli true 9 18 53),
    (0x909900B5, .srai true 9 18 53),
    (0x909900F5, .rori true 9 18 53),
    (0x929A5C3E, .lui true 9 678974),
    (0x949A5C3E, .addpc true 9 678974)] = true := by decide +kernel

theorem test_decode_control : reads [
    (0x97215A5A, .beqz 18 88666),
    (0x97235A5A, .bnez 18 88666),
    (0x97255A5A, .bltz 18 88666),
    (0x97275A5A, .bgez 18 88666),
    (0x97295A5A, .bgtz 18 88666),
    (0x972B5A5A, .blez 18 88666),
    (0x972D5A5A, .bodd 18 88666),
    (0x99234567, .j 19088743),
    (0x9B234567, .jl 19088743),
    (0x9C995396, .jlr 9 18 21398),
    (0xFD5C5639, .rpt 21 12 5 6 3 9),
    (0x7FABCDEF, .pfx 28036591)] = true := by decide +kernel

theorem test_decode_system : reads [
    (0x9E900104, .srd true 9 260),
    (0x9E091100, .swr true 18 256),
    (0x9E992100, .srset true 9 18 256),
    (0x9E993100, .srclr true 9 18 256),
    (0xDA990000, .setshp true 9 18),
    (0xDA000010, .ckpt),
    (0xDA000020, .yield),
    (0xDA096C3B, .trap 18 27 11),
    (0xDA000040, .bkpt)] = true := by decide +kernel

theorem test_decode_vector_arithmetic : reads [
    (0xA0996E20, .vadd true 9 18 27 .zero .bf16),
    (0xA0996E21, .vsub true 9 18 27 .zero .bf16),
    (0xA0996E22, .vmul true 9 18 27 .zero .bf16),
    (0xA0996E63, .vdiv true 9 18 27 .zero .e5m2),
    (0xA0996E24, .vmin true 9 18 27 .zero .bf16),
    (0xA0996E25, .vmax true 9 18 27 .zero .bf16),
    (0xA0990266, .vsqrt true 9 18 .zero .e5m2),
    (0xA0990267, .vexp2 true 9 18 .zero .e5m2),
    (0xA0990268, .vlog2 true 9 18 .zero .e5m2),
    (0xA0990229, .vabs true 9 18 .zero .bf16),
    (0xA099022A, .vneg true 9 18 .zero .bf16),
    (0xA099022B, .vmv true 9 18 .zero .bf16),
    (0xA0996ECC, .vand true 9 18 27 .zero .i16),
    (0xA0996ECD, .vor true 9 18 27 .zero .i16),
    (0xA0996ECE, .vxor true 9 18 27 .zero .i16),
    (0xA0996ECF, .vsll true 9 18 27 .zero .i16),
    (0xA0996ED0, .vsrl true 9 18 27 .zero .i16),
    (0xA0996ED1, .vsra true 9 18 27 .zero .i16),
    (0xA0996ED2, .vadds true 9 18 27 .zero .i16),
    (0xA0996ED3, .vsubs true 9 18 27 .zero .i16),
    (0xA0996ED4, .vmulh true 9 18 27 .zero .i16),
    (0xA09902D5, .vclz true 9 18 .zero .i16),
    (0xA09902D6, .vpopc true 9 18 .zero .i16),
    (0xA09902D7, .vffs true 9 18 .zero .i16),
    (0xA2996E60, .vfma true 9 18 27 .zero .e5m2),
    (0xA2996E61, .vfms true 9 18 27 .zero .e5m2),
    (0xA2996E62, .vfnma true 9 18 27 .zero .e5m2),
    (0xA2996E63, .vfnms true 9 18 27 .zero .e5m2)] = true := by decide +kernel

theorem test_decode_vector_compare_convert : reads [
    (0xA4996E20, .vceq true 9 18 27 .zero .bf16),
    (0xA4996E21, .vcne true 9 18 27 .zero .bf16),
    (0xA4996E22, .vclt true 9 18 27 .zero .bf16),
    (0xA4996E23, .vcle true 9 18 27 .zero .bf16),
    (0xA4996EC4, .vcltu true 9 18 27 .zero .i16),
    (0xA4996EC5, .vcleu true 9 18 27 .zero .i16),
    (0xA4996E66, .vcun true 9 18 27 .zero .e5m2),
    (0xA4996C27, .vsel true 9 18 27 .bf16),
    (0xA6991E25, .vcvt true 9 18 .i8 .zero .bf16 ⟨.rtz, true⟩)] = true := by decide +kernel

theorem test_decode_vector_permute_reduce_mask : reads [
    (0xA8990020, .vcompress true 9 18 .bf16),
    (0xA8990021, .vexpand true 9 18 .bf16),
    (0xA8996E22, .vperm true 9 18 27 .zero .bf16),
    (0xA8996E23, .vslideup true 9 18 27 .zero .bf16),
    (0xA8996E24, .vslidedn true 9 18 27 .zero .bf16),
    (0xA8990225, .vbcast true 9 18 .zero .bf16),
    (0xA8996C26, .vextr true 9 18 27 .bf16),
    (0xA89002C7, .vidx true 9 .zero .i16),
    (0xAA990220, .vredsum true 9 18 .zero .bf16),
    (0xAA990221, .vredmax true 9 18 .zero .bf16),
    (0xAA990222, .vredmin true 9 18 .zero .bf16),
    (0xAA9902C3, .vredand true 9 18 .zero .i16),
    (0xAA9902C4, .vredor true 9 18 .zero .i16),
    (0xAA9902C5, .vredxor true 9 18 .zero .i16),
    (0xAC996CC0, .vmand true 9 18 27 .i16),
    (0xAC996C21, .vmor true 9 18 27 .bf16),
    (0xAC996C22, .vmxor true 9 18 27 .bf16),
    (0xAC996C23, .vmandn true 9 18 27 .bf16),
    (0xAC990024, .vmnot true 9 18 .bf16),
    (0xAC990025, .vmpopc true 9 18 .bf16),
    (0xAC990026, .vmffs true 9 18 .bf16)] = true := by decide +kernel

theorem test_decode_loads_and_stores : reads [
    (0xB09D8AC5, .ldb true 9 27 .strm 709),
    (0xB09D9AC5, .ldh true 9 27 .strm 709),
    (0xB09DAAC5, .ldw true 9 27 .strm 709),
    (0xB09DBAC5, .ldd true 9 27 .strm 709),
    (0xB29D8AC5, .ldbu true 9 27 .strm 709),
    (0xB29D9AC5, .ldhu true 9 27 .strm 709),
    (0xB29DAAC5, .ldwu true 9 27 .strm 709),
    (0xB49D8AC5, .stb true 9 27 .strm 709),
    (0xB49D9AC5, .sth true 9 27 .strm 709),
    (0xB49DAAC5, .stw true 9 27 .strm 709),
    (0xB49DBAC5, .std true 9 27 .strm 709),
    (0xB69DFAC5, .vld true 9 27 .strm 709),
    (0xB89DFAC5, .vst true 9 27 .strm 709),
    (0xBA9DBEC5, .ldf 9 27 709),
    (0xBC9DBEC5, .ldfn 9 27 709),
    (0xBE9DBEC5, .ste 9 27 709),
    (0xC09DBEC5, .stf true 9 27 709)] = true := by decide +kernel

theorem test_decode_atomics_and_reductions : reads [
    (0xC2996C30, .amoswap 9 18 27 true .m),
    (0xC2996C70, .amocas 9 18 27 true .m),
    (0xC2996CB0, .amoadd 9 18 27 true .m),
    (0xC2996CF0, .amoand 9 18 27 true .m),
    (0xC2996D30, .amoor 9 18 27 true .m),
    (0xC2996D70, .amoxor 9 18 27 true .m),
    (0xC2996DB0, .amomin 9 18 27 true .m),
    (0xC2996DF0, .amomax 9 18 27 true .m),
    (0xC2996E30, .amominu 9 18 27 true .m),
    (0xC2996E70, .amomaxu 9 18 27 true .m),
    (0xC4096C30, .redadd true 18 27 true .m),
    (0xC4096C70, .redand true 18 27 true .m),
    (0xC4096CB0, .redor true 18 27 true .m),
    (0xC4096CF0, .redxor true 18 27 true .m),
    (0xC4096D30, .redmin true 18 27 true .m),
    (0xC4096D70, .redmax true 18 27 true .m),
    (0xC4096DB0, .redminu true 18 27 true .m),
    (0xC4096DF0, .redmaxu true 18 27 true .m),
    (0xC4096E10, .redfmin true 18 27 .m),
    (0xC4096E50, .redfmax true 18 27 .m),
    (0xC4096E92, .xaadd true 18 27 .m .e4m3),
    (0xC49902EC, .xard true 9 18 ⟨.rtz, true⟩ true)] = true := by decide +kernel

theorem test_decode_synchronisation : reads [
    (0xC6090000, .lease true 18),
    (0xC6000010, .lrel),
    (0xC6000028, .fence true .m),
    (0xC6090030, .barv true 18),
    (0xC6096C40, .barvx true 18 27),
    (0xC6096C50, .bwait 18 27),
    (0xC6096C60, .tlwait 18 27),
    (0xC6096C70, .ttdef true 18 27),
    (0xC6090080, .ttwait 18),
    (0xC6090090, .ttrel true 18)] = true := by decide +kernel

theorem test_decode_array : reads [
    (0xD0990000, .mturn true 9 18),
    (0xD0900010, .mtend true 9),
    (0xD0996C20, .mringcfg true 9 18 27),
    (0xD0996C30, .mringadv true 9 18 27),
    (0xD0990040, .mzero true 9 18),
    (0xD0996C51, .mma true 9 18 27 true),
    (0xD0996C60, .mmax true 9 18 27),
    (0xD0996C70, .mrec true 9 18 27),
    (0xD0990080, .mldprog true 9 18),
    (0xD0996C91, .maccrd true 9 18 27 true),
    (0xD0996CA0, .maccwr true 9 18 27),
    (0xD09900B1, .mstat true 9 18 1)] = true := by decide +kernel

theorem test_decode_sluice : reads [
    (0xD299000D, .scopy true 9 18 13),
    (0xD299001D, .scopy2d true 9 18 13),
    (0xD299002D, .sfill true 9 18 13),
    (0xD299003D, .scvt true 9 18 13),
    (0xD299004D, .shint true 9 18 13),
    (0xD299005D, .sqcfg true 9 18 13),
    (0xD299006D, .sqstat true 9 18 13),
    (0xD2996C60, .sqstatNamed true 9 18 27),
    (0xD290007D, .sqrst true 9 13)] = true := by decide +kernel

theorem test_decode_composer : reads [
    (0xD4990000, .cdef true 9 18),
    (0xD4990010, .crsz true 9 18),
    (0xD4996C20, .cflush true 9 18 27),
    (0xD4996C30, .cinval true 9 18 27),
    (0xD4996C41, .cquery true 9 18 27 1),
    (0xD4996C50, .cplace true 9 18 27),
    (0xD4990060, .cdrop true 9 18)] = true := by decide +kernel

theorem test_decode_mapping : reads [
    (0xD6990000, .map true 9 18),
    (0xD6990010, .grant true 9 18),
    (0xD6996C20, .unmap true 9 18 27),
    (0xD6996C30, .unmapx true 9 18 27),
    (0xD6990040, .send true 9 18),
    (0xD6096C51, .recv 18 27 true),
    (0xD6096C60, .call 18 27),
    (0xD6990070, .reply true 9 18),
    (0xD6990080, .epdrop true 9 18),
    (0xD6990090, .epinfo true 9 18),
    (0xD6996CA0, .chbind true 9 18 27),
    (0xD6996CB1, .mquery true 9 18 27 1)] = true := by decide +kernel

theorem test_decode_wharf : reads [
    (0xD8090000, .spawn true 18),
    (0xD8090010, .spawng true 18),
    (0xD8090020, .pdec true 18),
    (0xD8090030, .chpri true 18),
    (0xD8000040, .endOp),
    (0xD8990050, .ginfo true 9 18),
    (0xD8090060, .affin true 18),
    (0xD8990071, .wstat true 9 18 1)] = true := by decide +kernel
/-! ## Words that the spec writes out -/

/-- The words of the worked examples: R61, R59, R118, R158, R206, R265, R292, R240, 07_core_vector, 13_prog_prefetch. -/
theorem test_words_of_examples : reads [
    (0x02740000, .add false 7 8 0), (0x82838000, .add true 8 7 0), (0x82000003, .or true 0 0 0),
    (0x90740083, .srai true 7 8 3), (0x96800004, .beqz 8 4), (0x0283A027, .remu false 8 7 8), (0x82740003, .or true 7 8 0),
    (0x9683FFFE, .bnez 8 0x1FFFE), (0x9C0F8000, .jlr 0 31 0), (0x5A740000, .setshp false 7 8), (0x9E900101, .srd true 9 0x101),
    (0xA81000A7, .vidx true 1 .all .i32), (0xA82480A5, .vbcast true 2 9 .all .i32), (0xA03088A1, .vsub true 3 1 2 .all .i32),
    (0xA64180A0, .vcvt true 4 3 .f32 .all .i32 ⟨.rne, false⟩), (0xA4029002, .vclt true 0 5 4 .all .f32),
    (0xA8620000, .vcompress true 6 4 .f32), (0x2CA00005, .vmpopc false 10 0 .f32), (0xACB00006, .vmffs true 11 0 .f32),
    (0xAA730000, .vredsum true 7 6 .all .f32), (0xA8C38006, .vextr true 12 7 0 .f32), (0xC4009E8C, .xaadd true 1 7 .d .f32),
    (0xD2148003, .scopy true 1 9 3), (0xD2208063, .sqstat true 2 1 3), (0xD2208C60, .sqstatNamed true 2 1 3),
    (0xD2040053, .sqcfg true 0 8 3), (0xD2048043, .shint true 0 9 3), (0xD2648025, .sfill true 6 9 5), (0x92830000, .lui true 8 0x30000),
    (0x7E000002, .pfx 2), (0x84800000, .addi true 8 0 0), (0xC6002040, .barvx true 0 8), (0xC6041860, .tlwait 8 6),
    (0xD4148000, .cdef true 1 9), (0xD4140010, .crsz true 1 8), (0xD4252C20, .cflush true 2 10 11), (0xD6148000, .map true 1 9),
    (0xD6148010, .grant true 1 9), (0xD6252C20, .unmap true 2 10 11), (0xD6252C30, .unmapx true 2 10 11),
    (0xD6148040, .send true 1 9), (0xD6042451, .recv 8 9 true), (0xD6042460, .call 8 9), (0xD6238070, .reply true 2 7),
    (0xD0140000, .mturn true 1 8), (0xD035B050, .mma true 3 11 12 false), (0xD046B890, .maccrd true 4 13 14 false)] = true := by
  decide +kernel

/-- A word of 32 bits that the host numbers as the table does. -/
theorem test_decodeTableWord : decodeTableWord 32 0x8480000A = some (.addi true 8 0 10) ∧ decodeTableWord 32 0 = none := by
  decide +kernel

/-! ## Values that the spec computes -/

/-- R35: the elements of the RL8 block, halved, and its scale code. -/
theorem test_rl8_block : (convert 0 0x3FC00000 4 rneN).code = 0x07 ∧ (convert 0 0xBEC00000 4 rneN).code = 0xA7 ∧
    (convert 0 0x3E19999A 4 rneN).code = 0x3C ∧ (convert 0 0x2B000000 4 rneN).code = 0x00 ∧
    blockScale [fmtF32.val 0x40400000, fmtF32.val 0xBF400000, fmtF32.val 0x3E99999A, fmtF32.val 0x2B800000] 4 = 0x80 := by
  decide +kernel

/-- R35: the codes of that block decode to the values of its last column, halved. -/
theorem test_rl8_decode : (convert 4 0x07 0 rneN).code = 0x3FC00000 ∧ (convert 4 0xA7 0 rneN).code = 0xBEC00000 ∧
    (convert 4 0x3C 0 rneN).code = 0x3E180000 := by decide +kernel

/-- R41: of the products 2^30, −2^30 and 2^−40 the group is +0, and an accumulator of +0 stays +0. -/
theorem test_array_group_truncates : arrayGroup 8 0 0 (tyVal 0 0x4E800000 :: tyVal 0 0xCE800000 :: tyVal 0 0x2B800000 ::
    List.replicate 29 (tyVal 0 0)) = 0 := by decide +kernel

/-- 14_array, the two groups of the example: 12,288, and 12,288 + 1.5 × 2^−10 rounded to even. -/
theorem test_array_groups : arrayGroup 8 0 0 (List.replicate 32 (tyVal 0 0x43C00000)) = 0x46400000 ∧
    arrayGroup 8 32 0x46400000 (List.replicate 2 (tyVal 0 0x3A400000) ++ List.replicate 30 (tyVal 0 0)) = 0x46400002 := by
  decide +kernel

/-- R37, R39: −0 leaves a cell at 0, which reads +0; 1 is 2^256 of a cell; the two infinities make a NaN. -/
theorem test_exact_accumulator : xaAdd 0 (tyVal 0 0x80000000) = 0 ∧ (xaRead 0 fmtF32 rneN).code = 0 ∧
    xaAdd 0 (tyVal 0 0x3F800000) = 2 ^ 256 ∧ (xaRead (2 ^ 256) fmtF32 rneN).code = 0x3F800000 ∧
    xaAdd xaPinf (tyVal 0 0xFF800000) = xaNan ∧ (xaRead xaNinf fmtF32 rneN).code = 0xFF800000 := by decide +kernel

/-- R43: ∞ − ∞ raises NV, 1/0 raises DZ, 1/3 raises NX, and the largest number doubled OF and NX. -/
theorem test_fp_flags : (fpAdd fmtF32 0x7F800000 0xFF800000).fl = 16 ∧ fpDiv fmtF32 0x3F800000 0 = ⟨0x7F800000, 8⟩ ∧
    fpDiv fmtF32 0x3F800000 0x40400000 = ⟨0x3EAAAAAB, 1⟩ ∧ fpAdd fmtF32 0x7F7FFFFF 0x7F7FFFFF = ⟨0x7F800000, 5⟩ := by
  decide +kernel

/-- R130 to R132: exact cases of the functions. -/
theorem test_fp_functions : fpSqrt fmtF32 0x40800000 = ⟨0x40000000, 0⟩ ∧ fpExp2 fmtF32 0x40400000 = ⟨0x41000000, 0⟩ ∧
    fpLog2 fmtF32 0x41000000 = ⟨0x40400000, 0⟩ ∧ (fpLog2 fmtF32 0).fl = 8 ∧
    fpFma fmtF32 false false 0x40000000 0x40400000 0x3F800000 = ⟨0x40E00000, 0⟩ := by decide +kernel

/-- 05_core_state, the example of R107: vl32 20, 64 × 64. -/
theorem test_shape_example : setshpGrant 0x00506414 = 0x03404014 ∧ setshpGrant 8 = 0x00608008 := by decide +kernel

/-! ## One step -/

/-- `p` holds of the state that an outcome goes on in. -/
def got (o : Out) (p : State → Bool) : Bool := match o with | .next t => p t | _ => false

/-- The step of an instruction goes on, in a state that has `p`. -/
def does (i : Instr) (s : State) (p : State → Bool) : Bool := got (exec i s) p

/-- One step from reset with the word `w` placed, the barge changed by `f`. -/
def after (w : Nat) (f : Barge → Barge) (p : State → Bool) : Bool :=
  got (step ((State.reset.withFetchWord 32 w).updB 1 f)) p

/-- Registers of the barge. -/
def regs (l : List (Nat × Word)) (b : Barge) : Barge := { b with sreg := l }
/-- The value of register `d` after a step, and where the barge goes on. -/
def sAt (t : State) (d : Nat) : Word := tgetD 0 (t.barge 1).sreg d
def vAt (t : State) (d : Nat) : VReg := tgetD 0 (t.barge 1).vreg d
def pcAt (t : State) : Nat := (t.barge 1).pc

/-- R111: the sum wraps; the source is the destination; the barge goes on behind the word. -/
theorem test_add_wraps : after 0x82738400 (regs [(1, 1), (7, 0xFFFFFFFFFFFFFFFF)]) (fun t => sAt t 7 == 0 && pcAt t == 0x1004) =
    true := by decide +kernel
/-- R89: s0 discards a write. -/
theorem test_s0_discards : after 0x82038400 (regs [(1, 1), (7, 4)]) (fun t => sAt t 0 == 0) = true := by decide +kernel
/-- R112, R118: `srai s7, s8, 3` keeps the sign. -/
theorem test_srai_sign : after 0x90740083 (regs [(8, 0xFFFFFFFFFFFFFFF8)]) (fun t => sAt t 7 == 0xFFFFFFFFFFFFFFFF) = true := by
  decide +kernel
/-- R112: the amount is taken modulo 64. -/
theorem test_sll_amount : after 0x82740408 (regs [(1, 65), (8, 3)]) (fun t => sAt t 7 == 6) = true := by decide +kernel
/-- R114: −1 times 2^64 − 1, high half. -/
theorem test_mulhsu : after 0x82740423 (regs [(1, 0xFFFFFFFFFFFFFFFF), (8, 0xFFFFFFFFFFFFFFFF)])
    (fun t => sAt t 7 == 0xFFFFFFFFFFFFFFFF) = true := by decide +kernel
/-- R115: the most negative number divided by −1 is itself, and a division by zero gives all ones. -/
theorem test_div_corner : after 0x82740424 (regs [(1, 0xFFFFFFFFFFFFFFFF), (8, 0x8000000000000000)])
    (fun t => sAt t 7 == 0x8000000000000000) = true ∧
    after 0x82740424 (regs [(8, 5)]) (fun t => sAt t 7 == 0xFFFFFFFFFFFFFFFF) = true := by decide +kernel
/-- 06_core_scalar, run 2 of the example: 84 mod 36. -/
theorem test_remu_example : after 0x8283A027 (regs [(7, 84), (8, 36)]) (fun t => sAt t 8 == 12) = true := by decide +kernel
/-- R116: no one bit in 0. -/
theorem test_clz_zero : after 0x82740040 id (fun t => sAt t 7 == 64) = true ∧
    after 0x82740043 (regs [(8, 8)]) (fun t => sAt t 7 == 4) = true := by decide +kernel
/-- R117: imm15 is sign-extended; R119: `lui s8, 0x30000`. -/
theorem test_immediates : after 0x84807FFF id (fun t => sAt t 8 == 0xFFFFFFFFFFFFFFFF) = true ∧
    after 0x92830000 id (fun t => sAt t 8 == 0x30000000) = true := by decide +kernel
/-- R120: `bnez s13, −8` of 13_prog_prefetch, taken and not. -/
theorem test_bnez : after 0x96D3FFF8 (regs [(13, 1)]) (fun t => pcAt t == 0x1000 - 32) = true ∧
    after 0x96D3FFF8 id (fun t => pcAt t == 0x1004) = true := by decide +kernel
/-- R122: `jlr s5, s6, 8` links behind itself. -/
theorem test_jlr : after 0x9C530008 (regs [(6, 0x2000)]) (fun t => pcAt t == 0x2008 && sAt t 5 == 0x1004) = true := by decide +kernel
/-- R93, R108: the example of 05_core_state, with the stop bit set: the grant, and the shape that a run before it reads. -/
theorem test_setshp : after 0xDA740000 (regs [(8, 0x506414)])
    (fun t => sAt t 7 == 0x03404014 && (t.barge 1).rvl32 == 20 && (t.barge 1).rtcode == 3) = true ∧
    after 0x9E900101 id (fun t => sAt t 9 == 0x00608020) = true := by decide +kernel
/-- R40: the FP32 sum of the example is 2, with NX raised. -/
theorem test_vredsum_example : after 0xAA730000 (fun b => { b with
      rvl32 := 5, vreg := [(6, 0x3F8000003F800000CCBEBC203F8000004CBEBC20)] })
    (fun t => vAt t 7 == 0x40000000 && (t.barge 1).rfpfl == 1) = true := by decide +kernel
/-- 07_core_vector, the example: `vidx`, `vcvt` to −3.0 .. 4.0, `vcompress` of the positive ones. -/
theorem test_vector_example :
    after 0xA81000A7 (fun b => { b with rvl32 := 4 }) (fun t => vAt t 1 == 0x00000003000000020000000100000000) = true ∧
    after 0xA64180A0 (fun b => { b with rvl32 := 2, vreg := [(3, 0x00000004FFFFFFFD)] })
      (fun t => vAt t 4 == 0x40800000C0400000) = true ∧
    after 0xA8620000 (fun b => { b with rvl32 := 2, vreg := [(0, 2), (4, 0x40800000C0400000)] })
      (fun t => vAt t 6 == 0x40800000) = true := by decide +kernel
/-- R12, R147: a store is buffered; memory does not change. -/
theorem test_std_buffers : after 0xB473B000 (regs [(7, 0x2000)]) (fun t =>
    (t.barge 1).eff.length == 1 && t.mem.out == [] && t.mem.flight == [] && t.byteAt 0 0x2000 == 0) = true := by decide +kernel


/-! ## Witnesses: what the statements suppose can be had

`mk b` is the machine after reset with the one barge `b`, which issues the one word of the run `lone`. -/

def lone : Run := { here := ⟨0x1000, .ckpt, 0⟩ }
def solo : Barge := { startBarge with run := some lone }
def mk (b : Barge) : State := { State.reset with barges := [(1, b)], cur := 1, nextBid := 2 }

theorem issuing_mk {b : Barge} {r : Run} (hs : b.st = .resident) (h : b.run = some r) : Issuing (mk b) b r := ⟨rfl, hs, h⟩
theorem alone_mk {b : Barge} (hs : b.st = .resident) (h : b.run = some lone) (hf : b.frame = none) : Alone (mk b) b lone :=
  ⟨⟨rfl, hs, h⟩, rfl, rfl, rfl, hf⟩

/-- ScalarPairs, MultiplyAndDivide, SingleSourceBits, SystemRegisterReads, Shapes, PrefixAndRepeat, PlainCommitPoints, and every
other statement about a word: a barge that issues, alone in its run, its region empty. -/
theorem witness_issuing : Issuing (mk solo) solo lone ∧ Alone (mk solo) solo lone ∧ solo.eff = [] ∧ (mk solo).mem.leaseQ = [] ∧
    (lone.raised ||| 0) &&& solo.rfpen = 0 := ⟨⟨rfl, rfl, rfl⟩, alone_mk rfl rfl rfl, rfl, rfl, rfl⟩

/-- Immediates: the largest field and amount, without a prefix and with one. -/
theorem witness_Immediates : Issuing (mk solo) solo lone ∧ 32767 < 32768 ∧ 63 < 64 ∧
    Machine.immOf lone 32767 = -1 ∧ Machine.immOf { lone with pfx := some (1, 0xFFC) } 32767 = 65535 :=
  ⟨⟨rfl, rfl, rfl⟩, by decide +kernel⟩

/-- A run at the last word below 2^48 but one, for the targets at the edge. -/
def edgeRun : Run := { here := ⟨2 ^ 48 - 8, .ckpt, 0⟩ }
def edge : Barge := { startBarge with run := some edgeRun, sreg := [(6, 2 ^ 48 - 4), (7, 2 ^ 48 - 3)] }

/-- BranchesAndJumps: the target 2^48 − 4 is good, 2^48 and a misaligned one are not; a condition that holds and one that
does not. -/
theorem witness_BranchesAndJumps : Issuing (mk edge) edge edgeRun ∧
    (let t (x : Nat) : Word := BitVec.ofNat 64 edgeRun.here.pc + (BitVec.ofNat 17 x).signExtend 64 <<< 2
     let u (x : Nat) : Word := BitVec.ofNat 64 edgeRun.here.pc + (BitVec.ofNat 25 x).signExtend 64 <<< 2
     let v (a : Nat) : Word := (ctxOf (mk edge) edge edgeRun).x a + Machine.immOf edgeRun 0
     Machine.goodTarget (t 1) ∧ ¬ Machine.goodTarget (t 2) ∧ Machine.goodTarget (u 1) ∧ ¬ Machine.goodTarget (u 2) ∧
     Machine.goodTarget (v 6) ∧ ¬ Machine.goodTarget (v 7)) ∧
    (ctxOf (mk edge) edge edgeRun).x 0 = 0 ∧ (ctxOf (mk edge) edge edgeRun).x 6 ≠ 0 :=
  ⟨⟨rfl, rfl, rfl⟩, by unfold Machine.goodTarget; decide +kernel⟩

/-- PrefixAndRepeat: a frame in the middle of an iteration, at its end, and at the end of the last. -/
theorem witness_PrefixAndRepeat : ∀ e ∈ [(0, 0), (0, 1), (1, 1)],
    let f : Frame := { rpt := 0x1000, n := 2, len := 2, dstep := 1, astep := 1, bstep := 1, en := 15, i := e.1, j := e.2 }
    ({ startBarge with frame := some f } : Barge).frame = some f ∧ f.i < f.n ∧ f.j < f.len ∧
    ((f.j + 1 < f.len) ↔ e = (0, 0)) ∧ ((f.j + 1 = f.len ∧ f.i + 1 < f.n) ↔ e = (0, 1)) ∧
    ((f.j + 1 = f.len ∧ f.i + 1 = f.n) ↔ e = (1, 1)) := by decide +kernel

/-- PrefixAndRepeat, the immediates: the fourth iteration of a frame of one word, with the `i` enable and without, and no frame. -/
theorem witness_FrameImmediates : ∀ e ∈ [(1, 3), (14, 0)],
    let f : Frame := { rpt := 0xFFC, n := 4, len := 1, dstep := 0, astep := 0, bstep := 0, en := e.1, i := 3, j := 0 }
    let s := State.reset.withFetchWord 32 0x8480000A
    s.nextRun { startBarge with frame := some f } = .ok ([⟨0x1000, .addi true 8 0 10, e.2⟩], [1]) ∧
    s.nextRun startBarge = .ok ([⟨0x1000, .addi true 8 0 10, 0⟩], [1]) := by decide +kernel

/-- A barge in the middle of a run: one word before has delivered into s5 and raised NX, one word is left. -/
def inside : Barge := { solo with
  sreg := [(1, 0x3FF)]
  run := some { here := ⟨0x1000, .ckpt, 0⟩, words := [⟨0x1004, .ckpt, 0⟩], items := [.sreg 5 7], raised := 1 } }

/-- WritesOfSystemRegisters, as one word of several: such a run, whose flags are not enabled; the write at its end. -/
theorem witness_SystemRegisterWords : (∃ r, Issuing (mk inside) inside r ∧ r.items ≠ [] ∧ r.raised &&& inside.rfpen = 0) ∧ inside.ctx = 0 ∧
    got (exec (.srset false 6 1 0x100) (mk inside)) (fun t =>
      (t.barge 1).run.map (fun r => r.items) == some [.sreg 5 7, .sreg 6 0, .sys 0x100 0x3FF]) = true ∧
    got (exec (.srset true 6 1 0x100) (mk inside)) (fun t => tgetD 0 (t.barge 1).sreg 5 == 7 && (t.barge 1).rfpen == 31) = true ∧
    (mk inside).barge? (mk inside).cur = some inside :=
  ⟨⟨_, ⟨rfl, rfl, rfl⟩, by decide, by decide⟩, rfl, by decide +kernel⟩

/-- A barge of context 4,095. -/
def other : Barge := { solo with ctx := 4095 }

/-- WritesOfSystemRegisters: a barge of context 0 alone in its run, and one of another context. -/
theorem witness_WritesOfSystemRegisters : Alone (mk solo) solo lone ∧ solo.ctx = 0 ∧ Issuing (mk other) other lone ∧ other.ctx ≠ 0 :=
  ⟨alone_mk rfl rfl rfl, rfl, ⟨rfl, rfl, rfl⟩, by decide⟩

/-- WritesOfSystemRegisters, the steps: a resident barge between runs, of context 0 and of another; a bound below and above what
LEASEMAX, TLEASE and SLOTCFG may hold. -/
theorem witness_registerWriteSteps : (∀ c ∈ [0, 4095], let b : Barge := { startBarge with ctx := c }
      (mk b).barge? 1 = some b ∧ b.st = .resident ∧ (b.ctx = 0 ↔ c = 0)) ∧ startBarge.run = none ∧
    (let s := mk startBarge
     got (exec (.leasemaxWrite 1 1025) s) (fun t => t.leaseMaxOf 0 == 1024) = true ∧
     got (exec (.tleaseWrite 1 255) s) (fun t => t.map.tlease == 256) = true ∧
     got (exec (.slotcfgWrite 1 0x10009) s) (fun t => t.whf.slotEn && t.whf.slotLen == 10) = true) := by decide +kernel

/-- VectorIntegerPairs, VectorSingleSource, VectorFloatingPoint, VectorCompares, Reductions: types of each class. -/
theorem witness_vector_classes : Issuing (mk solo) solo lone ∧ ETy.i8.cls = .I ∧ ETy.i32.cls = .I ∧ ETy.f32.cls = .F ∧
    ETy.e4m3.cls = .F ∧ 0 &&& solo.rfpen = 0 := ⟨⟨rfl, rfl, rfl⟩, by decide⟩

/-- ∞ in element 0 of v1, −∞ in v2, a NaN in v3, ∞ and −∞ in v4, with NV and NX enabled; s1 names the cell of `trapS`. -/
def trapping : Barge := { solo with
  rvl32 := 2, rfpen := 17, sreg := [(1, 0x2FC0)], vreg := [(1, 0x7F800000), (2, 0xFF800000), (3, 0x7FC00000), (4, 0xFF8000007F800000)] }

/-- The cell at 0x2FC0 holds 2^40 + 1, which FP32 does not. -/
def trapS : State :=
  let v : Memory := [(0x2FC0, 1), (0x2FC5, 1)]
  { mk trapping with mem := { (mk trapping).mem with view0 := v, view1 := v, view2 := v, view3 := v } }

/-- EnabledFlagTraps: ∞ − ∞, in an element and in a reduction, ∞ to an integer, and a NaN that is compared raise NV (R31, R138, R144);
a cell whose value is not exact raises NX, and UF. -/
theorem witness_EnabledFlagTraps : Alone trapS trapping lone ∧ trapping.eff = [] ∧ ETy.f32.cls = .F ∧
    (let s := trapS
     let c := ctxOf s trapping lone
     let flags (f : Nat → Nat) : Nat := Machine.flagsOf c .all 2 f
     flags (fun k => (Machine.floatAt c 5 1 2 32 (fun x y _ => fpAdd fmtF32 x y) k).2) = 16 ∧
     flags (fun k => (convert 0 (elem (c.v 1) 32 k) 7 rneN).fl) = 16 ∧
     (Machine.markedTree (fpAdd fmtF32) 1 (fun k => some (elem (c.v 4) 32 k))).2 = 16 ∧
     (∀ e ∈ [(Instr.vadd true 5 1 2 .all .f32, (0x7FC00000 : VReg)), (.vcvt true 5 1 .i32 .all .f32 rneN, 0x80000000),
         (.vclt true 5 3 1 .all .f32, 0), (.vredsum true 5 4 .all .f32, 0x7FC00000)],
       got (exec e.1 s) (fun t => decide (t = Machine.trapped s trapping lone (trapping.withV 5 e.2) 16)) = true) ∧
     s.access 0 0 (c.x 1).toNat 64 .r = .ok [⟨0x2FC0, 0x2FC0, 64, 0, 1⟩] ∧ (c.x 1).toNat % 64 = 0 ∧
     xaRead (leNum (s.bytesAt 0 0x2FC0 64)) fmtF32 rneN = ⟨0, 3⟩ ∧
     (let z := (s.useNodes 1 [1]).touchSegs 0 .home [⟨0x2FC0, 0x2FC0, 64, 0, 1⟩]
      got (exec (.xard true 5 1 rneN false) s) (fun t => decide (t = Machine.trapped z (z.barge 1) lone ((z.barge 1).withS 5 0) 3)) = true)) ∧
    Machine.readable trapS trapping true [⟨0x2FC0, 0x2FC0, 64, 0, 1⟩] := by
  refine ⟨⟨⟨rfl, rfl, rfl⟩, rfl, rfl, rfl, rfl⟩, rfl, ?_, ?_, ?_⟩
  any_goals (unfold Machine.readable)
  all_goals decide +kernel

/-! ### Rounding -/

/-- Rounding: a magnitude at the largest finite value, one half an ulp above it (which is beyond in E4M3, whose largest code is
even, only when more than that), a subnormal result that is exact and one that is not, a tie to even. -/
theorem witness_Rounding :
    (let v := Machine.magOf 800 fmtE4M3
     let ulp := v fmtE4M3.maxc - v (fmtE4M3.maxc - 1)
     fmtE4M3.maxc % 2 = 0 ∧ v 0x7E = 448 * 2 ^ 800 ∧ ulp = 32 * 2 ^ 800 ∧ v 8 = 2 ^ 794 ∧ v 1 = 2 ^ 791 ∧
     ¬ 2 * v 0x7E + ulp < 2 * (464 * 2 ^ 800) ∧ 2 * v 0x7E + ulp < 2 * (465 * 2 ^ 800)) ∧
    convert 0 0x43E80000 2 rneN = ⟨0x7E, 1⟩ ∧ (convert 0 0x43E88000 2 rneN).fl = 5 ∧
    convert 0 0x3B000000 2 rneN = ⟨1, 0⟩ ∧ convert 0 0x3B400000 2 rneN = ⟨2, 3⟩ ∧ convert 0 0x3F880000 2 rneN = ⟨0x38, 1⟩ ∧
    Machine.rlMagOf 7 2 1 = 15 * 2 ^ 797 ∧ (convert 0 0x3FF00001 4 rneN).fl = 5 ∧ convert 0 0x3FF00000 4 rneN = ⟨1, 0⟩ ∧
    convert 0 0xC3000000 7 rneN = ⟨0x80, 0⟩ ∧ convert 0 0x43000000 7 ⟨.rne, true⟩ = ⟨0x7F, 16⟩ := by decide +kernel

/-- The clauses of the NaNs, the infinities and the zeros: a signalling NaN, the first of two; ∞ − ∞; −0 + −0; 0 × ∞. -/
theorem witness_NanOr : Machine.nanCode fmtF32 0x7F800001 = true ∧ Machine.signals fmtF32 0x7F800001 = true ∧
    fpAdd fmtF32 0x7F800001 0x7FC00002 = ⟨0x7FC00001, 16⟩ ∧ Machine.infCode fmtF32 0x7F800000 = true ∧
    Machine.nanCode fmtE4M3 0x7F = true ∧ Machine.infCode fmtE4M3 0x7F = false ∧ fpAdd fmtF32 0x80000000 0x80000000 = ⟨0x80000000, 0⟩ ∧
    fpMul fmtF32 0x80000000 0x7F800000 = ⟨0x7FC00000, 16⟩ ∧ Machine.zeroCode fmtF32 0x80000000 = true := by decide +kernel

/-- Quotients, roots, powers and logarithms, and the order of values: zeros, infinities, a negative operand, the exact cases and one beside
each, and what a range ends with; −0 against +0. -/
theorem witness_operations : fpDiv fmtF32 0 0x80000000 = ⟨0x7FC00000, 16⟩ ∧ fpDiv fmtF32 0xBF800000 0 = ⟨0xFF800000, 8⟩ ∧
    fpDiv fmtF32 0x3F800000 0xFF800000 = ⟨0x80000000, 0⟩ ∧ fpSqrt fmtF32 0x80000000 = ⟨0x80000000, 0⟩ ∧
    fpSqrt fmtF32 0xBF800000 = ⟨0x7FC00000, 16⟩ ∧ fpSqrt fmtE4M3 0x40 = ⟨0x3B, 1⟩ ∧
    fpExp2 fmtF32 0xFF800000 = ⟨0, 0⟩ ∧ (fpExp2 fmtF32 0x43000000).fl = 5 ∧ fpExp2 fmtF32 0xC37A0000 = ⟨0, 3⟩ ∧
    fpExp2 fmtE4M3 0x30 = ⟨0x3B, 1⟩ ∧ fpLog2 fmtF32 0x80000000 = ⟨0xFF800000, 8⟩ ∧ fpLog2 fmtF32 0xBF800000 = ⟨0x7FC00000, 16⟩ ∧
    fpLog2 fmtE4M3 0x38 = ⟨0, 0⟩ ∧ fpLog2 fmtE4M3 0x30 = ⟨0xB8, 0⟩ ∧ (fpLog2 fmtE4M3 0x3C).fl = 1 ∧ fpCmp fmtF32 0x80000000 0 = 0 ∧
    fpMinMax fmtF32 false 0 0x80000000 = ⟨0x80000000, 0⟩ ∧ fpMinMax fmtF32 true 0x80000000 0 = ⟨0, 0⟩ ∧
    fpCmp fmtF32 0x7F7FFFFF 0x7F800000 = -1 := by decide +kernel

/-- The cells of the accumulator: the NaN, the infinities, the largest finite integer and one add beyond it. -/
theorem witness_Accumulator : 2 ^ 511 = xaNan ∧ 2 ^ 511 - 1 = xaPinf ∧ 2 ^ 511 + 1 = xaNinf ∧
    xaAdd (2 ^ 448 - 2 ^ 256) (tyVal 0 0x3F800000) = xaPinf ∧ xaAdd (2 ^ 448 - 2 ^ 257) (tyVal 0 0x3F800000) = 2 ^ 448 - 2 ^ 256 ∧
    xaAdd (2 ^ 448) (tyVal 0 0) = xaPinf ∧ xaRead (2 ^ 512 - 2 ^ 256) fmtF32 rneN = ⟨0xBF800000, 0⟩ := by decide +kernel

/-! ### Loads and stores -/

/-- s1 is the last word of the window, s2 its last 128 bytes, s3 one byte past it, s4 a global address with a full vector
across two pages, s5 the last global word, s6 an address at 2^48; the region holds 127 arrivals. -/
def reach : Barge := { solo with
  sreg := [(1, 65528), (2, 65408), (3, 65536), (4, 0x2FC0), (5, 0xFFFFFFFFFFF8), (6, 0x1000000000000), (7, 0x2001)]
  eff := List.replicate 127 (.arrive 0 0 0) }
def reachC : WCtx := ctxOf (mk reach) reach lone

/-- ScratchpadLoads and Stores in the window: the last word of it and the last vector, and a region that gets full. -/
theorem witness_window : Issuing (mk reach) reach lone ∧
    (∀ e ∈ [(3, 1, 8, 65528), (7, 2, 128, 65408)],
      let ea := Machine.eaOf (mk reach) reach lone e.2.1 e.1 0
      ea.toNat % 8 = 0 ∧ (mk reach).spad 1 ea e.2.2.1 = some (1, e.2.2.2) ∧
      ∀ k, e.2.2.2 / 8 ≤ k → k ≤ (e.2.2.2 + e.2.2.1 - 1) / 8 → tgetD false ((mk reach).barge 1).spPoison k = false) ∧
    reachC.countWith [.arrive 1 65528 0] = 128 ∧ solo.eff = [] ∧
    (ctxOf (mk solo) solo lone).countWith [Effect.spad 1 65408 (List.replicate 128 0)] ≤ 128 :=
  ⟨⟨rfl, rfl, rfl⟩, by decide +kernel⟩

/-- The pieces of the vector at 0x2FC0 and of the word at 0x2FF8. -/
def twoPages : List Seg := [⟨0x2FC0, 0x2FC0, 64, 0, 1⟩, ⟨0x3000, 0x3000, 64, 0, 1⟩]
def lastWord : List Seg := [⟨0x2FF8, 0x2FF8, 8, 0, 1⟩]

/-- GlobalLoads and Stores in global memory: a vector across two pages, and a word; no write of them is on its way. -/
theorem witness_global : Issuing (mk reach) reach lone ∧ Space.l1 ≠ .sp ∧ Space.strm ≠ .sp ∧
    (∀ rt ∈ [Right.r, Right.w],
      (mk reach).access 0 0 (Machine.eaOf (mk reach) reach lone 4 7 0).toNat 128 rt = .ok twoPages ∧
      (mk reach).access 0 0 (Machine.eaOf (mk reach) reach lone 4 3 7).toNat 8 rt = .ok lastWord) ∧ reach.rvl32 * 4 = 128 ∧
    (∀ gs ∈ [twoPages, lastWord], (∀ home : Bool, Machine.readable (mk reach) reach home gs) ∧ Machine.quiet (mk reach) gs) ∧
    (ctxOf (mk solo) solo lone).countWith [.store .l1 (storeSegs twoPages (List.replicate 128 1))] ≤ 128 := by
  refine ⟨⟨rfl, rfl, rfl⟩, ?_⟩
  unfold Machine.readable Machine.quiet
  decide +kernel

/-- GlobalLoads, at the home: a write of the core that is released, and one that is at its home and not in its die. -/
def coming : State := { mk reach with mem := { (mk reach).mem with
  nextW := 3, out := [{ id := 2, core := 0, home := 0, pa := 0x2FF8, bytes := [7] }]
  flight := [{ id := 1, core := 639, home := 0, pa := 0x2FC0, bytes := [8], views := [0] }] } }

theorem witness_BytesFound : ((coming.mem.out ++ coming.mem.flight).map (fun w => w.id)).Nodup ∧
    (∀ g ∈ [Seg.mk 0x2FC0 0x2FC0 64 0 1], let t := ((ctxOf coming reach lone).readSegs true coming [g]).1
      (∃ w ∈ coming.mem.flight, w.meets g.pa g.len = true ∧ w.views.contains (coming.homeDie g.vc g.pa) = true) ∧
      t.mem.out = [] ∧ t.mem.flight.map (fun w => w.views) = [[0], [0]] ∧ t.bytesAt 0 0x2FF8 1 = [7]) := by decide +kernel

/-- AddressChecks: a misaligned address, one past the window, an address at 2^48, a page without a node, the last word of a
page, a page without a right, a direct window of no cache; the same addresses for a vector. -/
theorem witness_AddressFaults : Issuing (mk reach) reach lone ∧
    (let ea (b lg : Nat) := Machine.eaOf (mk reach) reach lone b lg 0
     (ea 7 3).toNat % 8 ≠ 0 ∧ (ea 3 3).toNat % 8 = 0 ∧ (mk reach).spad 1 (ea 3 3) 8 = none ∧
     (ea 6 3).toNat % 8 = 0 ∧ (mk reach).access 0 0 (ea 6 3).toNat 8 .r = .error ⟨4, 0, 2 ^ 48⟩ ∧
     (ea 7 7).toNat % 4 ≠ 0 ∧ (ea 3 7).toNat % 4 = 0 ∧ (mk reach).spad 1 (ea 3 7) 128 = none ∧
     (mk reach).access 0 0 (ea 6 7).toNat 128 .w = .error ⟨4, 0, 2 ^ 48⟩) := ⟨⟨rfl, rfl, rfl⟩, by decide +kernel⟩

/-- s1 is misaligned for every size, s2 one granule past the window, s3 an aligned global address at 2^48. -/
def astray : Barge := { solo with sreg := [(1, 65535), (2, 65536), (3, 0x1000000000000)] }

/-- AddressChecks, the other words that name memory: each check fails. -/
theorem witness_WordFaults : Issuing (mk astray) astray lone ∧
    (let c := ctxOf (mk astray) astray lone
     (∀ lg ∈ [2, 3, 4, 6], (c.x 1).toNat % 2 ^ lg ≠ 0 ∧ (c.x 2).toNat % 2 ^ lg = 0 ∧ (c.x 3).toNat % 2 ^ lg = 0 ∧
       (mk astray).spad 1 (c.x 2) (2 ^ lg) = none ∧
       ∀ rt ∈ [Right.r, .w], (mk astray).access 0 0 (c.x 3).toNat (2 ^ lg) rt = .error ⟨4, 0, 2 ^ 48⟩) ∧
     (Machine.eaOf (mk astray) astray lone 1 3 0).toNat % 8 ≠ 0 ∧ (Machine.eaOf (mk astray) astray lone 2 3 0).toNat % 8 = 0 ∧
     (mk astray).spad 1 (Machine.eaOf (mk astray) astray lone 2 3 0) 8 = none) := ⟨⟨rfl, rfl, rfl⟩, by decide +kernel⟩

/-- Context 0 and a node of it that may only be read, over the first pages, and a direct window. -/
def patchy : State := { State.reset with map := { State.reset.map with nodes := [
  (1, { vgn := 0, ctx := 0, w := false, root := true, pgn := 0, count := 2 }),
  (2, { vgn := 2, ctx := 0, root := true, pgn := 0xFC00000000, count := 1 })] } }

theorem witness_AccessChecks : 4088 % 4096 + 8 ≤ 4096 ∧ patchy.translateAt 0 0 0x3FF8 = none ∧
    (∃ n, patchy.translateAt 0 0 0x1FF8 = some (1, n, 0x1FF8) ∧ peerOf 0x1FF8 = none ∧ n.has .w = false ∧ n.has .r = true ∧
      patchy.directOk 0x1FF8 = true) ∧
    (∃ n, patchy.translateAt 0 0 0x2FF8 = some (2, n, 0xFC00000000FF8) ∧ peerOf 0xFC00000000FF8 = none ∧ n.has .r = true ∧
      patchy.directOk 0xFC00000000FF8 = false) := by
  refine ⟨?_, ?_, ⟨_, rfl, ?_⟩, ⟨_, rfl, ?_⟩⟩ <;> decide +kernel

/-- A region with `n` arrivals, whose effects name no granule, and one that stores to the vector's first granule besides. -/
def full (n : Nat) : Barge := { reach with eff := List.replicate n (.arrive 0 0 0) }
def full2 (n : Nat) : Barge := { reach with eff := .stf 1 65408 0 :: List.replicate n (.arrive 0 0 0) }

/-- AddressChecks, the capacity: the vector at 65,408, whose first granule would be the 129th, or whose second, of a region at 128 and at
127; an `STF` of the last word. -/
theorem witness_CapacityFaults : (∀ e ∈ [(full 128, 0), (full2 127, 1), (full 127, 1)], Issuing (mk e.1) e.1 lone ∧
    (let c := ctxOf (mk e.1) e.1 lone
     let ea := Machine.eaOf (mk e.1) e.1 lone 2 7 0
     ea.toNat % 4 = 0 ∧ (leBytes (reach.rvl32 * 4) (c.v 1).toNat).length = 128 ∧ (mk e.1).spad 1 ea 128 = some (1, 65408) ∧
     Machine.breaks c (.spad 1 65408 (leBytes (reach.rvl32 * 4) (c.v 1).toNat)) ((granules 65408 128).map (fun g => (1, g))) e.2 ∧
     got (exec (.vst true 1 2 .sp 0) (mk e.1)) (fun t => decide (t = ((mk e.1).issued ((mk e.1).barge 1)).takeExc 1
       { cls := 8, pc := lone.at, s3 := BitVec.ofNat 64 (65408 + 64 * e.2) })) = true)) ∧
    (let ea := Machine.eaOf (mk (full 128)) (full 128) lone 1 3 0
     ea.toNat % 8 = 0 ∧ (mk (full 128)).spad 1 ea 8 = some (1, 65528) ∧
     Machine.breaks (ctxOf (mk (full 128)) (full 128) lone) (.stf 1 65528 0) [(1, 65528 / 64)] 0) := by
  refine ⟨?_, by unfold Machine.breaks; decide +kernel⟩
  intro e he
  refine ⟨?_, ?_⟩
  · simp only [List.mem_cons, List.not_mem_nil, or_false] at he
    rcases he with rfl | rfl | rfl <;> exact ⟨rfl, rfl, rfl⟩
  · revert e; unfold Machine.breaks; decide +kernel

/-- The same for the vector at 0x2FC0 of global memory: the region has none of its granules, or the first, or has room for one; a
reduction of the last word of the page and an `XAADD` of its last granule. -/
def full3 : Barge := { reach with eff := .store .l1 [⟨0x2FC0, 0, [1]⟩] :: List.replicate 127 (.arrive 0 0 0) }
def full4 : Barge := { full 128 with sreg := [(1, 0x2FF8), (2, 0x2FC0)] }

theorem witness_CapacityGlobal : (∀ e ∈ [(full 128, 0, 0x2FC0), (full3, 1, 0x3000), (full 127, 1, 0x3000)], let s := mk e.1
    let c := ctxOf s e.1 lone
    let ps := storeSegs twoPages (leBytes (reach.rvl32 * 4) (c.v 1).toNat)
    Issuing s e.1 lone ∧ s.access 0 0 (Machine.eaOf s e.1 lone 4 7 0).toNat 128 .w = .ok twoPages ∧
    Machine.breaks c (.store .l1 ps) ((ps.flatMap (fun p => granules p.pa p.bytes.length)).map (fun g => (0, g))) e.2.1 ∧
    (let t := s.useNodes 1 (twoPages.map Seg.node)
     got (exec (.vst true 1 4 .l1 0) s) (fun u => decide (u = (t.issued (t.barge 1)).takeExc 1
       { cls := 8, pc := lone.at, s3 := BitVec.ofNat 64 e.2.2 })) = true)) ∧
    (let s := mk full4
     let c := ctxOf s full4 lone
     Issuing s full4 lone ∧ s.access 0 0 (c.x 1).toNat 8 .w = .ok lastWord ∧
     s.access 0 0 (c.x 2).toNat 64 .w = .ok [⟨0x2FC0, 0x2FC0, 64, 0, 1⟩] ∧
     Machine.breaks c (.red 7 true .s 0x2FF8 0 0) [(0, 0x2FF8 / 64)] 0 ∧ Machine.breaks c (.xa .f32 .s 0x2FC0 0 0) [(0, 0xBF)] 0 ∧
     ∀ i ∈ [Instr.redmaxu true 1 3 true .s, .xaadd true 2 3 .s .f32], got (exec i s) (fun u =>
       decide (u = (let t := s.useNodes 1 [1]; (t.issued (t.barge 1)).takeExc 1 { cls := 8, pc := lone.at, s3 := 0x2FC0 }))) = true) := by
  refine ⟨?_, ⟨rfl, rfl, rfl⟩, by unfold Machine.breaks; decide +kernel⟩
  intro e he
  refine ⟨?_, ?_⟩
  · simp only [List.mem_cons, List.not_mem_nil, or_false] at he
    rcases he with rfl | rfl | rfl <;> exact ⟨rfl, rfl, rfl⟩
  · revert e; unfold Machine.breaks; decide +kernel

/-- Poison in the last word of the window; in a granule as every view has it, and as its core sees it behind a released store; and an
isolated port. s1 names the last word of the window, s2 a cell at the end of a page, s3 a granule of host memory. -/
def poisoned1 : Barge := { solo with sreg := [(1, 65528), (2, 0x2FC0), (3, 0x800000000000)], spPoison := [(8191, true)] }
def poisonedS : State := { mk poisoned1 with
  mem := { (mk poisoned1).mem with poison := [(0xBF, BitVec.allOnes 4)] }
  slu := { (mk poisoned1).slu with isolated := [(0x100, true)] } }
/-- The word takes the poison fault with `ea` for its address. -/
def meetsPoison (i : Instr) (ea : Word) : Bool := got (exec i poisonedS) (fun t =>
  decide (t = (poisonedS.issued (poisonedS.barge 1)).takeExc 1 { cls := 0x0A, pc := lone.at, s3 := ea }))

/-- AddressChecks, poison: a load of the poisoned word, and of a granule of memory from either side, and of an isolated target. -/
theorem witness_PoisonFaults : Issuing poisonedS poisoned1 lone ∧
    (poisonedS.mem.out = [] ∧ poisonedS.mem.flight = []) ∧
    (poisonedS.spad 1 65528 8 = some (1, 65528) ∧ tgetD false (poisonedS.barge 1).spPoison (65528 / 8) = true) ∧
    poisonedS.access 0 0 0x2FC0 64 .r = .ok ([] ++ ⟨0x2FC0, 0x2FC0, 64, 0, 1⟩ :: []) ∧ poisonedS.isIsolated 0x2FC0 = false ∧
    poisonedS.unheard poisoned1 0 0x2FC0 64 = none ∧ poisonedS.loadStops 0 1 0x2FC0 64 = [] ∧
    (∀ home : Bool, Machine.readable poisonedS poisoned1 home [] ∧ poisonedS.segPoison 0 home ⟨0x2FC0, 0x2FC0, 64, 0, 1⟩ = true) ∧
    poisonedS.access 0 0 0x800000000000 8 .r = .ok [⟨0x800000000000, 0x800000000000, 8, 0, 10⟩] ∧
    poisonedS.isIsolated 0x800000000000 = true ∧
    meetsPoison (.ldd true 1 1 .sp 0) 65528 = true ∧
    (∀ i ∈ [Instr.ldd true 1 2 .l1 0, .ldd true 1 2 .home 0, .vld true 1 2 .strm 0, .xard true 1 2 rneN false],
      meetsPoison i 0x2FC0 = true) ∧
    meetsPoison (.ldd true 1 3 .l1 0) 0x800000000000 = true := by
  refine ⟨⟨rfl, rfl, rfl⟩, ?_⟩
  unfold Machine.readable
  decide +kernel

/-- ReleasedWrites, CommitOfAStore, ReductionMerges: memory in its form with nothing on its way, up to the last byte of HBM that a
program may use. -/
theorem witness_ReleasedWrites : (mk solo).MemWf ∧ Machine.still (mk solo) ∧
    (∀ pa ∈ [0x2000, 0xBFBFFFFFF8], (mk solo).isIsolated pa = false ∧ (mk solo).homeStopped 0 pa = false ∧
      (mk solo).unseenAt 1 0 (pa / 64) = false) ∧
    (mk solo).mem.leaseQ = [] ∧ (mk solo).barge? 1 = some solo := by
  unfold State.MemWf Machine.still
  decide +kernel

/-- A store of four bytes at the end of a granule, with the granule leased and not. -/
def storing (l : List Lease) : Barge := { solo with eff := [.store .l1 [⟨0x203C, 0, [1, 2, 3, 4]⟩]], leases := l }

theorem alone_storing (l : List Lease) : Alone (mk (storing l)) (storing l) lone := alone_mk rfl rfl rfl

theorem witness_CommitOfAStore : ∀ l ∈ [[], [(⟨0x80, 256⟩ : Lease)]], let b := storing l
    Alone (mk b) b lone ∧ (∀ g ∈ granules 0x203C 4, (mk b).leasedFrom 1 g = false) ∧ (mk b).isIsolated 0x203C = false ∧
    (mk b).homeStopped 0 0x203C = false ∧ b.late = [] ∧ (mk b).MemWf ∧ Machine.still (mk b) ∧ (mk b).mem.leaseQ = [] ∧
    (l ≠ [] → ∀ a, 0x203C ≤ a → a < 0x203C + 4 → ∃ x ∈ b.leases, x.granule = a / 64) ∧
    got (exec .ckpt (mk b)) (fun t => t.seenAt 0 0x203F 1 == [4] && t.byteAt 3 0x203F == if l = [] then 0 else 4) = true := by
  intro l hl
  refine ⟨alone_storing l, ?_⟩
  revert l
  unfold State.MemWf Machine.still
  decide +kernel

/-- Two barges of one gang, both resident. -/
def inGang : Barge := { solo with gang := 1, gmem := 0, gsize := 1 }
def ganged : State := { mk inGang with barges := [(1, inGang), (2, { inGang with gmem := 1, core := 1 })] }

/-- 05_core_state R98: a commit at the last word of the address space leaves VLS as it is in the record's first word. -/
theorem test_commit_at_top : (let b : Barge := { solo with run := some { here := ⟨2 ^ 48 - 4, .ckpt, 0⟩ } }
    got (exec .ckpt (mk b)) (fun t => (t.barge 1).resume == 0 && (t.barge 1).word0 == solo.word0 - BitVec.ofNat 64 solo.resume) = true) := by
  decide +kernel

/-- `ganged` after a `YIELD` of barge 1, flight 0 in the cut of its tenant. -/
def yielded : State :=
  let s := match exec .yield ganged with | .next t => t | _ => ganged
  { s with whf := { s.whf with cut := [(0, 1)], tenants := [(0, { dies := 15 })] } }

/-- YieldAndEnd: a barge alone, and one whose gang's other member is resident, which keeps its slot and no other barge may take it; a
barge that ends with nothing left of it. -/
theorem witness_YieldAndEnd : Alone (mk solo) solo lone ∧ Alone ganged inGang lone ∧
    (solo.eff = [] ∧ solo.leases = [] ∧ (mk solo).mem.leaseQ = [] ∧
      (∀ m ∈ (mk solo).gangOf 1, m ≠ 1 → ((mk solo).barge m).st ≠ .resident) ∧ solo.gang = 0 ∧ solo.succ = [] ∧
      (mk solo).inEngine 1 = false ∧ (mk solo).issuedIn 1 = false ∧ tsorted (mk solo).barges 0 = true ∧ (∀ e ∈ (mk solo).barges, e.2.leases = []) ∧
      solo.late = []) ∧
    (inGang.eff = [] ∧ ∃ m ∈ ganged.gangOf 1, m ≠ 1 ∧ (ganged.barge m).st = .resident) ∧
    ((yielded.barge 1).st = .ready ∧ (yielded.barge 1).resume = 0x1004 ∧ yielded.keeps 1 (yielded.barge 1) = true ∧
      yielded.allowed 1 (yielded.barge 1) 0 = true ∧ yielded.allowed 1 (yielded.barge 1) 1 = false ∧ yielded.freeSlots 0 = [1, 2, 3, 4, 5, 6, 7]) ∧
    got (exec .endOp (mk solo)) (fun t => t.barges == []) = true :=
  ⟨alone_mk rfl rfl rfl, ⟨⟨rfl, rfl, rfl⟩, rfl, rfl, rfl, rfl⟩, by decide +kernel⟩

/-! ### Synchronisation -/

/-- s1 names the last word of the window, which is full; the one before it is empty. s2 names the last granule. -/
def synced : Barge := { solo with sreg := [(1, 65528), (2, 65520), (3, 65472)], full := [(8191, true)] }

/-- A machine in which barge 2 has waited before for the full word, and for the empty one. -/
def behind : State := { mk synced with barges := [(1, synced),
  (2, { synced with core := 1, held := some { pc := 0, op := .ldf 1 1 65528 0 } }),
  (3, { synced with core := 2, held := some { pc := 0, op := .ste 1 65520 0 } })] }

/-- FullEmptyWords: a full word and an empty one, with no barge before and with one. -/
theorem witness_FullEmptyWords : Alone (mk synced) synced lone ∧
    (synced.eff = [] ∧ synced.leases = [] ∧ (mk synced).mem.leaseQ = [] ∧ Machine.still (mk synced) ∧
      (ctxOf (mk synced) synced lone).countWith [.stf 1 65528 0] ≤ 128) ∧
    (∀ e ∈ [(1, 65528, true), (2, 65520, false)],
      let ea := Machine.eaOf (mk synced) synced lone e.1 3 0
      ea.toNat % 8 = 0 ∧ (mk synced).spad 1 ea 8 = some (1, e.2.1) ∧ ((mk synced).barge 1).isFull e.2.1 = e.2.2 ∧
      ((mk synced).barge 1).wordPoison e.2.1 = false ∧ Machine.firstFor (mk synced) 1 e.2.1 e.2.2) ∧
    ¬ Machine.firstFor behind 1 65528 true ∧ ¬ Machine.firstFor behind 1 65520 false := by
  refine ⟨alone_mk rfl rfl rfl, ?_, ?_, ?_, ?_⟩
  · unfold Machine.still; decide +kernel
  · intro e he
    refine ⟨?_, ?_, ?_, ?_, ?_⟩
    iterate 4 (revert e; decide +kernel)
    intro x hx h1
    obtain rfl : x = (1, synced) := by simpa [mk] using hx
    exact absurd rfl h1
  · intro h
    exact absurd rfl (h (2, _) (.tail _ (.head _)) (by decide) rfl _ rfl (by decide))
  · intro h
    exact absurd rfl (h (3, _) (.tail _ (.tail _ (.head _))) (by decide) rfl _ rfl (by decide))

/-- The full word is poisoned: a load of it takes the poison fault, behind its commit, and has it with it (R193); a store of an empty
word whose poison stands takes it away. -/
def tainted : Barge := { synced with spPoison := [(8190, true), (8191, true)] }

theorem witness_poisonedWords : Alone (mk tainted) tainted lone ∧ ((mk tainted).barge 1).wordPoison 65528 = true ∧
    ((mk tainted).barge 1).isFull 65528 = true ∧ (mk tainted).faultChan 0 0x0A = none ∧
    got (exec (.ldf 4 1 0) (mk tainted)) (fun t => t.barges == []) = true ∧
    got (exec (.ste 4 2 0) (mk tainted)) (fun t => (t.barge 1).spPoison == [(8191, true)] && (t.barge 1).isFull 65520) = true :=
  ⟨alone_mk rfl rfl rfl, by decide +kernel⟩

/-- s1 names the last word of a page, s2 the last granule of a page. -/
def atomicB : Barge := { solo with sreg := [(1, 0x2FF8), (2, 0x2FC0)] }
def wordSeg (n : Nat) : Seg := ⟨0x2FF8, 0x2FF8, n, 0, 1⟩
def cellSeg : Seg := ⟨0x2FC0, 0x2FC0, 64, 0, 1⟩

/-- The machine with a supervisor channel 5 of context 0. -/
def supervised0 (b : Barge) : State := { mk b with map := { (mk b).map with
  ctxs := [(0, { (mk b).ctx 0 with super := some 5 })], chans := [(5, { owner := some 0 })] } }

/-- Atomics, MemoryReductions: a word that can be reached, of each width, and a reduction of each op. -/
theorem witness_Atomics : Alone (mk atomicB) atomicB lone ∧
    (let s := mk atomicB
     atomicB.eff = [] ∧ atomicB.leases = [] ∧ s.mem.leaseQ = [] ∧ Machine.still s ∧ s.MemWf ∧
     (∀ n ∈ [4, 8], 0x2FF8 % n = 0 ∧ s.access 0 0 0x2FF8 n .w = .ok [wordSeg n] ∧ s.blocked 1 0x2FF8 n = false) ∧
     s.isIsolated 0x2FF8 = false ∧ s.poisonedIn 0 0x2FF8 8 = false ∧ s.unheard { atomicB with heard := false } 0 0x2FF8 8 = none ∧ s.homeStopped 0 0x2FF8 = false ∧
     (ctxOf s atomicB lone).countWith [.red 0 true .s 0x2FF8 0 0] ≤ 128 ∧
     got (exec (.amoadd 3 1 2 true .s) s) (fun t => t.seenAt 0 0x2FF8 2 == [0xC0, 0x2F] && t.byteAt 0 0x2FF9 == 0x2F) = true) ∧
    (∀ e ∈ [(0, 0xFFFFFFFF), (4, 0xFFFFFFFF), (5, 0), (6, 0), (7, 0xFFFFFFFF), (8, 0x7FC00000), (9, 0x7FC00000)],
      (Machine.merged e.1 (0 : BitVec 32) 0xFFFFFFFF).toNat = e.2) ∧
    Machine.merged 8 (0 : BitVec 32) 0x80000000 = 0x80000000 ∧ Machine.merged 9 (0x80000000 : BitVec 32) 0 = 0 := by
  refine ⟨alone_mk rfl rfl rfl, ?_⟩
  unfold State.MemWf Machine.still
  decide +kernel

/-- Atomics: a word of a poisoned granule and one of an isolated port: nothing is written, and the poison fault follows the commit. A
context of scope .F: an atomic of scope .S counts one as it is performed, and a reduction of scope .S as it is released. -/
theorem witness_atomicsElse :
    (let s : State := { supervised0 atomicB with mem := { (mk atomicB).mem with poison := [(0xBF, BitVec.allOnes 4)] } }
     s.access 0 0 0x2FF8 8 .w = .ok [wordSeg 8] ∧ s.unheard { atomicB with heard := false } 0 0x2FF8 8 = none ∧
     s.poisonedIn 0 0x2FF8 8 = true ∧
     got (exec (.amoadd 1 1 1 true .s) s) (fun t => (t.barge 1).st == .parked && tgetD 0 (t.barge 1).sreg 1 == 0 &&
       (t.chan 5).queue.map (fun m => m.words.take 3) == [[0x200000000A, 0x1000, 0x2FF8]] && t.mem.out == [] && t.mem.flight == []) = true) ∧
    (let b : Barge := { solo with sreg := [(1, 0x800000000000)] }
     let s : State := { supervised0 b with slu := { (mk b).slu with isolated := [(0x100, true)] } }
     s.access 0 0 0x800000000000 8 .w = .ok [⟨0x800000000000, 0x800000000000, 8, 0, 10⟩] ∧ s.isIsolated 0x800000000000 = true ∧
     got (exec (.amoadd 1 1 1 true .s) s) (fun t => (t.barge 1).st == .parked && t.mem.out == [] && t.mem.flight == []) = true) ∧
    (let s : State := { mk atomicB with map := { (mk atomicB).map with ctxs := [(0, { (mk atomicB).ctx 0 with scope := 1 })] } }
     (s.ctx 0).scope < Scope.s.code ∧
     got (exec (.amoadd 3 1 2 true .s) s) (fun t => (t.ctx 0).scopecnt == 1) = true ∧
     (s.perform 1 (.red 0 true .s 0x2FF8 0 0)).map.ctxs.map (fun e => e.2.scopecnt) = [1] ∧
     ((mk atomicB).perform 1 (.xa .f32 .s 0x2FC0 0 0)).map.ctxs.map (fun e => e.2.scopecnt) = [0]) := by decide +kernel

/-- MemoryReductions and ExactAccumulatorRead: a cell that can be reached. -/
theorem witness_cells : (let s := mk atomicB
     (ctxOf s atomicB lone).x 2 = 0x2FC0 ∧ 0x2FC0 % 64 = 0 ∧ s.access 0 0 0x2FC0 64 .w = .ok [cellSeg] ∧
     s.access 0 0 0x2FC0 64 .r = .ok [cellSeg] ∧ Machine.readable s atomicB true [cellSeg] ∧ Machine.quiet s [cellSeg] ∧
     (ctxOf s atomicB lone).countWith [.xa .f32 .s 0x2FC0 0 0] ≤ 128) := by
  unfold Machine.readable Machine.quiet
  decide +kernel

/-- Four leases, the highest of granule 0xBE; three of them; and a machine where another barge holds granule 0xBF, and one where
another has asked for it before. -/
def holding : Barge := { atomicB with leases := [⟨0xBB, 256⟩, ⟨0xBC, 256⟩, ⟨0xBD, 256⟩, ⟨0xBE, 256⟩] }
def three : Barge := { atomicB with leases := [⟨0xBB, 256⟩, ⟨0xBC, 256⟩, ⟨0xBE, 256⟩] }
def second : Barge := { atomicB with leases := [⟨0xBF, 256⟩] }
def contended : State := { mk three with barges := [(1, three), (2, { second with core := 1 })] }
def queued : State := { contended with mem := { contended.mem with leaseQ := [.wait 2 0xBF] } }

/-- Leases: the fourth lease, a fifth, one that is not above those held, one that another barge holds, and one asked for before. -/
theorem witness_Leases : (∀ s ∈ [mk three, contended, queued], Issuing s three lone) ∧ Issuing (mk holding) holding lone ∧
    Issuing (mk second) second lone ∧ 0x2FC0 / 64 = 0xBF ∧
    (∀ s ∈ [mk three, mk holding, mk second, contended, queued], s.access 0 0 0x2FC0 64 .w = .ok [cellSeg]) ∧
    (three.leases.length < 4 ∧ (∀ l ∈ three.leases, l.granule < 0xBF) ∧ (mk three).blockedAt 1 0xBF = false ∧
      (mk three).unheard three 0 0x2FC0 64 = none ∧ (mk three).l1Full 0 0xBF = false) ∧
    Machine.quiet (mk three) [cellSeg] ∧ 4 ≤ holding.leases.length ∧ (∃ l ∈ second.leases, 0xBF ≤ l.granule) ∧
    contended.blockedAt 1 0xBF = true ∧ queued.blockedAt 1 0xBF = true ∧ contended.mem.leaseQ = [] ∧
    got (exec (.lease true 2) (mk three)) (fun t => (t.barge 1).leases.length == 4 && t.mem.l1.length == 1) = true := by
  refine ⟨?_, ⟨rfl, rfl, rfl⟩, ⟨rfl, rfl, rfl⟩, ?_⟩
  · intro s hs
    simp only [List.mem_cons, List.not_mem_nil, or_false] at hs
    rcases hs with rfl | rfl | rfl <;> exact ⟨rfl, rfl, rfl⟩
  · unfold Machine.quiet
    decide +kernel

/-- A core whose L1 has no way left for granule 0xBF: three barges hold twelve leases in its set. A granule of host memory, whose port
is isolated or does not answer. -/
def crowded : State :=
  let g (i : Nat) : Nat := 2 * (0x5F + 512 * i)
  let holds (i : Nat) : Barge := { atomicB with leases := (List.range 4).map (fun j => ⟨g (4 * i + j + 1), 256⟩) }
  { mk atomicB with
    barges := [(1, atomicB), (2, { holds 0 with slot := 1 }), (3, { holds 1 with slot := 2 }), (4, { holds 2 with slot := 3 })]
    mem := { (mk atomicB).mem with l1use := (List.range 12).map (fun i => (l1LineKey 0 (g (i + 1)), 0)) } }
def hostly : Barge := { solo with sreg := [(2, 0x800000000000)] }
def isolatedS : State := { mk hostly with slu := { (mk hostly).slu with isolated := [(0x100, true)] } }
def stalledS : State := { mk hostly with hst := { (mk hostly).hst with stalls := [(0x100, 0x800000000000)] } }

theorem witness_leaseWaits : Issuing crowded atomicB lone ∧ crowded.access 0 0 0x2FC0 64 .w = .ok [cellSeg] ∧ atomicB.leases = [] ∧
    crowded.isIsolated 0x2FC0 = false ∧ crowded.unheard atomicB 0 0x2FC0 64 = none ∧ crowded.blockedAt 1 0xBF = false ∧
    crowded.l1Full 0 0xBF = true ∧
    got (exec (.lease true 2) crowded) (fun t => (t.barge 1).leases == [] && ((t.barge 1).run.map (fun r => (r.words.length, r.waits))) == some (1, true)) = true ∧
    (∀ s ∈ [isolatedS, stalledS], Issuing s hostly lone ∧
      s.access 0 0 0x800000000000 64 .w = .ok [⟨0x800000000000, 0x800000000000, 64, 0, 10⟩]) ∧
    isolatedS.isIsolated 0x800000000000 = true ∧ stalledS.isIsolated 0x800000000000 = false ∧
    stalledS.unheard hostly 0 0x800000000000 64 = some 0x100 ∧
    got (exec (.lease true 2) isolatedS) (fun t => t.barges == []) = true ∧
    got (exec (.lease true 2) stalledS) (fun t => (t.barge 1).unanswered == some (0x100, 0)) = true := by
  refine ⟨⟨rfl, rfl, rfl⟩, by decide +kernel, rfl, ?_, ?_, ?_, ?_, ?_, ?_, ?_⟩
  all_goals try decide +kernel
  intro s hs
  simp only [List.mem_cons, List.not_mem_nil, or_false] at hs
  rcases hs with rfl | rfl
  · exact ⟨⟨rfl, rfl, rfl⟩, by decide +kernel⟩
  · exact ⟨⟨rfl, rfl, rfl⟩, by decide +kernel⟩

/-- A write of core 0 that nothing but its core sees yet, and one of another core that has its place. -/
def releasing : State := { mk solo with mem := { (mk solo).mem with
  nextW := 3, out := [{ id := 2, core := 0, home := 0, pa := 0x2000, bytes := [7] }]
  flight := [{ id := 1, core := 4, home := 0, pa := 0x3000, bytes := [8] }] } }

/-- What barge 1 releases at granule 0xBF waits behind the lease of barge 2: a store, and the fence behind it. Where barge 2 is of the
same core, that does not see it either. -/
def behindLease : State := contended.releaseStore 1 0 .l1 [⟨0x2FC0, 0, [1, 2]⟩]
def mates (b : Barge) : State := { mk b with barges := [(1, b), (2, { second with slot := 1 })] }

theorem witness_waiting : contended.MemWf ∧ Machine.still contended ∧ contended.blockedAt 1 0xBF = true ∧ contended.unseenAt 1 0 0xBF = false ∧
    behindLease.mem.leaseQ = [.store 1 0 1 1 .l1 0 0x2FC0 2] ∧ behindLease.coreWaits 1 0 = true ∧ Issuing behindLease three lone ∧
    behindLease.seenAt 0 0x2FC0 2 = [1, 2] ∧ (behindLease.drainAll.mem.out.map (fun w => w.bytes)) = [[1, 2]] ∧
    got (exec (.fence true .f) behindLease) (fun t => ((t.barge 1).run.map (fun r => (r.words.length, r.waits))) == some (1, true)) = true ∧
    (let t := (mates three).releaseStore 1 0 .l1 [⟨0x2FC0, 0, [1, 2]⟩]
     (mates three).blockedAt 1 0xBF = true ∧ (mates three).unseenAt 1 0 0xBF = true ∧
     t.mem.leaseQ = [.effect 1 0 (.store .l1 [⟨0x2FC0, 0, [1, 2]⟩])] ∧ t.seenAt 0 0x2FC0 2 = [0, 0]) := by
  refine ⟨?_, ?_, ?_, ?_, ?_, ?_, ⟨rfl, rfl, rfl⟩, ?_⟩
  all_goals (try unfold State.MemWf); (try unfold Machine.still)
  all_goals decide +kernel

/-- PlainCommitPoints, the stages: behind the store that waits, a command (`op`) and a store to granule 0xBE, which the barge holds. -/
def staged (op : Op) (l : List Lease) (b : Barge) : Barge := { b with
  leases := l, eff := [.store .l1 [⟨0x2FC0, 0, [1]⟩], .cmd (tlKey 0 0) 0 { op := op, barge := 1, ctx := 0, core := 0 },
    .store .l1 [⟨0x2F80, 0, [2]⟩]] }
def stagedS (op : Op) (l : List Lease) : State := mates (staged op l three)

/-- A wharf command, and a store to a leased granule, hold up the record and the end of the leases; another command only what follows.
When the lease of the other barge has ended, the commit goes on to its end; when the barge's own has, without that lease. -/
theorem witness_CommitsInStages :
    (∀ e ∈ [(Op.chpri, ([] : List Lease), false), (.sqcfg, [⟨0xBE, 256⟩], false), (.sqcfg, [], true)],
      got (exec .ckpt (stagedS e.1 e.2.1)) (fun t =>
        (t.barge 1).commit == some ⟨0x1004, .goOn none, e.2.2⟩ && (t.barge 1).late.length == 2 && (t.barge 1).leases == e.2.1 &&
        (t.barge 1).resume == (if e.2.2 then 0x1004 else 0x1000) && t.mem.leaseQ.length == 1 &&
        (let u := (State.expire { t with cycle := 256 } 2).goLate 1
         (u.barge 1).commit.isNone && (u.barge 1).late == [] && (u.barge 1).leases == [] && (u.barge 1).resume == 0x1004)) = true) ∧
    got (exec .ckpt (stagedS .sqcfg [⟨0xBE, 256⟩])) (fun t => does (.leaseExpiry 1) { t with cycle := 256 } (fun u =>
      (u.barge 1).commit == some ⟨0x1004, .goOn none, true⟩ && (u.barge 1).leases == [] && (u.barge 1).late.length == 2)) = true := by
  decide +kernel

/-- Fences: a context whose scope reaches the module, and one whose scope does not reach the fence's. -/
theorem witness_Fences : Alone (mk solo) solo lone ∧ (mk solo).coreWaits 1 0 = false ∧ Issuing releasing solo lone ∧
    4 ≤ min Scope.m.code ((mk solo).ctx solo.ctx).scope ∧ ((mk other).ctx other.ctx).scope < Scope.f.code ∧
    (∀ e ∈ [(Scope.f, 1, 1), (.g, 1, 2), (.d, 1, 2), (.m, 0, 0)], let t := releasing.performAt 0 0 e.1
      t.mem.out = [] ∧ (t.mem.flight.filter (fun w => w.core == 0)).length = e.2.1 ∧
      ∀ w ∈ t.mem.flight, w.core = 0 → w.reach = e.2.2 ∨ w.views.contains 0 = true) :=
  ⟨alone_mk rfl rfl rfl, by decide, ⟨rfl, rfl, rfl⟩, by decide +kernel⟩

/-- A fence of scope .S, the second of a run, in a context of scope .F: it counts one at the end of the run, and not at its issue. -/
theorem witness_narrowedFence : (let r : Run := { lone with items := [.sreg 1 7] }
    let b : Barge := { solo with run := some r }
    let s : State := { mk b with map := { (mk b).map with ctxs := [(0, { (mk b).ctx 0 with scope := 1 })] } }
    s.coreWaits 1 0 = false ∧ r.raised &&& b.rfpen = 0 ∧ s.barge? 1 = some b ∧
    got (exec (.fence true .s) s) (fun t => (t.ctx 0).scopecnt == 1 && (t.barge 1).eff == [.fence .s] && tgetD 0 (t.barge 1).sreg 1 == 7) = true ∧
    got (exec (.fence false .s) s) (fun t => (t.ctx 0).scopecnt == 0) = true) := by decide +kernel

/-- A barrier in the last granule of the window with EXPECT 65,535; nothing stands in the granule before it. s4 adds the
most bytes that may be added, s5 one more. -/
def barriered : Barge := { solo with
  sreg := [(1, 65472), (2, 65408), (4, 2 ^ 40 - 1), (5, 2 ^ 40)], window := [(65472, 255), (65473, 255)] }

theorem witness_BarrierArrivals : Issuing (mk barriered) barriered lone ∧
    (let c := ctxOf (mk barriered) barriered lone
     let rec_ (off : Nat) := leNum (overlayWin c.effs 1 off (readTab ((mk barriered).barge 1).window off 64))
     (∀ e ∈ [(1, 65472), (2, 65408)], (c.x e.1).toNat % 64 = 0 ∧ (mk barriered).spad 1 (c.x e.1) 64 = some (1, e.2)) ∧
     (rec_ 65472 % 2 ^ 16 ≠ 0 ∧ rec_ 65472 / 2 ^ 33 % 2 ^ 31 = 0 ∧ rec_ 65472 / 2 ^ 112 = 0) ∧ ¬ rec_ 65408 % 2 ^ 16 ≠ 0 ∧
     c.countWith [.arrive 1 65472 0] ≤ 128 ∧ (c.x 4).toNat < 2 ^ 40 ∧ 2 ^ 40 ≤ (c.x 5).toNat) :=
  ⟨⟨rfl, rfl, rfl⟩, by decide +kernel⟩

/-- BarrierPhases: a record short of its count, one that has it, and fuel for both. -/
theorem witness_BarrierPhases : (∃ r : BarRec, r.queue = [] ∧ r.arrived + 1 = r.expect ∧ r.pending = 0) ∧
    (∃ r : BarRec, r.queue = [] ∧ r.arrived = r.expect ∧ 0 < r.pending) ∧ 2 ≤ 2 :=
  ⟨⟨{ expect := 1, arrived := 0, phase := 0, pending := 0, queue := [] }, by decide⟩,
   ⟨{ expect := 1, arrived := 1, phase := 0, pending := 1, queue := [] }, by decide⟩, by decide⟩

/-- Numbers 1 and 2 issued on timeline KIND 3 INDEX 0, number 1 completed; tile 0 READY, 1 FILLING, 2 EMPTY. s1 names the
timeline, s2 the number 1, s3 the number 2, s4 a number not issued, s5 a granule of the window, s6 and s7 the tiles 1 and 2,
s8 no tile. -/
def waiting : Barge := { solo with
  sreg := [(1, 0x30000), (2, 1), (3, 2), (4, 3), (5, 65472), (6, 1), (7, 2), (8, 64)]
  tileTab := [(0, { st := .ready }), (1, { st := .filling })] }
def waitS : State := { mk waiting with tls := [(tlKey 3 0, { issued := 2, completed := 1, latest := [(0, 2)] })] }

/-- Waits: names that are allowed and not, what holds already and what does not. -/
theorem witness_Waits : Alone waitS waiting lone ∧ waiting.eff = [] ∧ waiting.leases = [] ∧ waitS.mem.leaseQ = [] ∧
    (let c := ctxOf waitS waiting lone
     let v := (c.x 1).toNat
     let key := v / 2 ^ 16 % 8 * 65536 + v % 65536
     let named (q : Nat) : Prop := v < 2 ^ 19 ∧ v % 65536 < tlLimit (v / 2 ^ 16 % 8) ∧ (c.x q).toNat ≤ (waitS.tl key).issued ∧
      waitS.mayWait 0 (v / 2 ^ 16 % 8) (v % 65536) (c.x q).toNat = true
     named 2 ∧ named 3 ∧ ¬ named 4 ∧ (c.x 2).toNat ≤ (waitS.tl key).completed ∧ (waitS.tl key).completed < (c.x 3).toNat ∧
     64 ≤ (c.x 8).toNat ∧
     (∃ e, c.tileState 2 = some e ∧ e.st = .empty) ∧ (tgetD {} waiting.tileTab 0).st = .ready ∧
     (tgetD {} waiting.tileTab 1).st = .filling ∧ 1 < waiting.tiles ∧
     (c.x 5).toNat % 64 = 0 ∧ waitS.spad 1 (c.x 5) 64 = some (1, 65472) ∧ ((waitS.barge 1).barRec 65472).phase = 0) :=
  ⟨⟨⟨rfl, rfl, rfl⟩, rfl, rfl, rfl, rfl⟩, by decide +kernel⟩

/-- s1 is a definition of tile 63, of FP32, to be READY; s2 one with a reserved bit; s3 the base; s4 names tile 63; s5 is a
base that is no multiple of 64, s6 one at the end of the footprint of 16 pages; s7 names no entry at all. -/
def tiling : Barge := { solo with sreg := [(1, 0x1003F), (2, 0x2003F), (3, 64), (4, 63), (5, 1), (6, 65536), (7, 64)] }
def tiled : Barge := { tiling with tileTab := [(63, { st := .ready })] }

/-- TileWords: a definition whose checks pass and one whose do not; an entry to release and one in another state. -/
theorem witness_TileWords : Issuing (mk tiling) tiling lone ∧ Issuing (mk tiled) tiled lone ∧
    (let c := ctxOf (mk tiling) tiling lone
     let k := ctxOf (mk tiled) tiled lone
     let good (v : Nat) : Prop := v < 2 ^ 17 ∧ v / 2 ^ 6 % 4 = 0 ∧ v / 2 ^ 12 % 16 = 0 ∧ v / 2 ^ 8 % 16 < 10
     good (c.x 1).toNat ∧ ¬ good (c.x 2).toNat ∧ (c.tileState 63).map Tile.st = some .empty ∧ (c.x 3).toNat % 64 = 0 ∧
     64 + shapeRows 0 * shapeCols 0 * tyWidth 0 / 8 ≤ 16 * 4096 ∧ c.countWith [.tileDef 63 {}] ≤ 128 ∧
     (∃ e, k.tileState 63 = some e ∧ e.st = .ready) ∧ (∃ e, c.tileState 63 = some e ∧ e.st ≠ .ready) ∧
     k.countWith [.tileRel 63] ≤ 128 ∧ (c.x 5).toNat % 64 ≠ 0 ∧ (c.x 6).toNat % 64 = 0 ∧
     16 * 4096 < (c.x 6).toNat + shapeRows 0 * shapeCols 0 * tyWidth 0 / 8) ∧
    64 ≤ ((ctxOf (mk tiling) tiling lone).x 7).toNat := ⟨⟨rfl, rfl, rfl⟩, ⟨rfl, rfl, rfl⟩, by decide +kernel⟩

/-- TileWords, ArrayAndSluiceCommands: entry 63 of a barge with 63 entries, and entry 64, are none: the tile-state fault. -/
theorem witness_noTile : (let b : Barge := { tiling with tiles := 63 }
    let s := supervised0 b
    (ctxOf s b lone).tileState 63 = none ∧
    (∀ e ∈ [(4, 63), (7, 0)], ∀ i ∈ [Instr.ttrel true e.1, .maccwr true 0 1 e.1],
      got (exec i s) (fun t => (t.chan 5).queue.map (fun m => m.words.take 3) == [[0x0B, 0x1000, e.2]]) = true)) := by decide +kernel

/-! ### Commands, queries and messages -/

/-- TimelineNumbers: a number not issued, one issued and not finished, the next to complete and a later one. -/
theorem witness_TimelineNumbers :
    let t := waitS.tl (tlKey 3 0)
    t.issued < 3 ∧ (0 < 2 ∧ 2 ≤ t.issued ∧ t.finished 2 = false ∧ ∀ e ∈ t.ends, e.n ≠ 2) ∧ 2 = t.completed + 1 ∧
    (let u : Timeline := { issued := 3, completed := 1 }
     0 < 3 ∧ 3 ≤ u.issued ∧ 3 ≠ u.completed + 1 ∧ u.ahead = []) := by decide +kernel

/-- ArrayAndSluiceCommands, ComposerMappingAndWharfCommands: a descriptor in the last granule of the window, room in the
region for the command, a tile entry that is READY and one that is not. -/
def commanding : Barge := { solo with
  sreg := [(1, 65472), (2, 63), (3, 62)], tileTab := [(63, { st := .ready })], eff := List.replicate 127 (.arrive 0 0 0) }

theorem witness_commands : Issuing (mk commanding) commanding lone ∧
    (let c := ctxOf (mk commanding) commanding lone
     (∀ tl ∈ [tlKey 1 0, tlKey 0 15, tlKey 2 1023, tlKey 3 4095, 0], c.countWith [.cmd tl 0 (cmdOf c.s commanding .mturn 0 0)] = 128) ∧
     (c.x 1).toNat % 64 = 0 ∧ (mk commanding).spad 1 (c.x 1) 64 = some (1, 65472) ∧
     (∀ j < 8, tgetD false ((mk commanding).barge 1).spPoison (65472 / 8 + j) = false) ∧
     (c.x 2).toNat < 64 ∧ (∃ e, c.tileState (c.x 2).toNat = some e ∧ e.st = .ready) ∧
     (∃ e, c.tileState (c.x 3).toNat = some e ∧ e.st ≠ .ready)) := ⟨⟨rfl, rfl, rfl⟩, by decide +kernel⟩

/-- CommandFaults: a misaligned descriptor, one past the window, one whose last word is poisoned; a region that is full. -/
def refused : Barge := { solo with
  sreg := [(1, 65471), (2, 65536), (3, 65472)], spPoison := [(8191, true)], eff := List.replicate 128 (.arrive 0 0 0) }

theorem witness_CommandFaults : Issuing (mk refused) refused lone ∧
    (let c := ctxOf (mk refused) refused lone
     (c.x 1).toNat % 64 ≠ 0 ∧ ((c.x 2).toNat % 64 = 0 ∧ (mk refused).spad 1 (c.x 2) 64 = none) ∧
     ((c.x 3).toNat % 64 = 0 ∧ (mk refused).spad 1 (c.x 3) 64 = some (1, 65472) ∧
      tgetD false ((mk refused).barge 1).spPoison (65472 / 8 + 7) = true ∧
      ∀ l < 7, tgetD false ((mk refused).barge 1).spPoison (65472 / 8 + l) = false) ∧
     128 < c.countWith [.arrive 0 0 0]) := ⟨⟨rfl, rfl, rfl⟩, by decide +kernel⟩

/-- CommandFaults, a full region: the words that have checks of their own: a record in form, a tile entry to release and one to define. -/
def crammed : Barge := { barriered with
  sreg := [(1, 65472), (2, 63), (3, 0x1003E), (4, 64)], tileTab := [(63, { st := .ready })], eff := List.replicate 128 (.arrive 0 0 0) }

theorem witness_CapacityFault : Issuing (mk crammed) crammed lone ∧
    (let s := mk crammed
     let c := ctxOf s crammed lone
     let rec_ := leNum (overlayWin c.effs 1 65472 (readTab (s.barge 1).window 65472 64))
     128 < c.countWith [.arrive 0 0 0] ∧ (c.x 1).toNat % 64 = 0 ∧ s.spad 1 (c.x 1) 64 = some (1, 65472) ∧
     (∀ j < 8, tgetD false (s.barge 1).spPoison (65472 / 8 + j) = false) ∧
     rec_ % 2 ^ 16 ≠ 0 ∧ rec_ / 2 ^ 33 % 2 ^ 31 = 0 ∧ rec_ / 2 ^ 112 = 0 ∧ (c.x 4).toNat < 2 ^ 40 ∧
     (c.x 2).toNat < 64 ∧ (∃ e, c.tileState (c.x 2).toNat = some e ∧ e.st = .ready) ∧
     (let v := (c.x 3).toNat
      v < 2 ^ 17 ∧ v / 2 ^ 6 % 4 = 0 ∧ v / 2 ^ 12 % 16 = 0 ∧ v / 2 ^ 8 % 16 < 10 ∧ (c.tileState (v % 64)).map Tile.st = some .empty) ∧
     (c.x 4).toNat % 64 = 0 ∧ (c.x 4).toNat + shapeRows crammed.rtcode * shapeCols crammed.rtcode * tyWidth 0 / 8 ≤ crammed.spf * 4096 ∧
     ∀ i ∈ [Instr.scopy true 1 1 0, .cdef true 1 1, .spawn true 1, .barv true 1, .barvx true 1 4, .ttrel true 2, .maccwr true 1 0 2,
         .ttdef true 3 4, .mtend true 1],
       got (exec i s) (fun t => decide (t = (s.issued (s.barge 1)).takeExc 1 { cls := 8, pc := lone.at })) = true) :=
  ⟨⟨rfl, rfl, rfl⟩, by decide +kernel⟩

/-- A barge that commands, one that awaits one predecessor at record 0x2000, one that awaits two at 0x2040. -/
def pool : State := { mk solo with barges := [(1, solo), (2, { pred := 1, recPa := 0x2000 }), (3, { pred := 2, recPa := 0x2040 })] }

theorem witness_WharfCommandEffects : pool.barge? 1 = some solo ∧ Machine.still pool ∧ solo.gang = 0 ∧
    (16383 - 3072 < 2 ^ 14 ∧ 8831 / 2 ^ 10 % 4 = 0 ∧ 8831 % 2 ^ 10 = 639 ∧ 639 ≤ 639) ∧
    (2 ^ 14 ≤ 2 ^ 14 ∧ 1024 / 2 ^ 10 % 4 ≠ 0 ∧ 639 < 640 % 2 ^ 10) ∧
    (∀ e ∈ [(0x2000, 2), (0x2040, 3)], pool.recAddr 0 (BitVec.ofNat 64 e.1) = some e.1 ∧ pool.poolAt e.1 = some e.2 ∧
      ∃ x, pool.barge? e.2 = some x ∧ x.ctx = 0 ∧ x.st = .created ∧ x.gang = 0 ∧ x.bound = false ∧ x.pred + 1 = e.2) := by
  unfold Machine.still
  decide +kernel

/-- s1 and s2 are numbers at the edges of the queries' ranges, s3 a handle; the barge holds a turn with ring 7, virtual cache
1,023 is defined and is its partition's, and 1,022 another's. -/
def asking : Barge := { solo with sreg := [(1, 2559), (2, 2560), (3, 0x401), (4, 7), (5, 1023), (6, 3), (7, 1), (8, 15), (9, 0x700000000000)] }
def asked : State := { mk asking with
  map := { (mk asking).map with eps := [(epKey 0 1, { valid := true, gen := 1, s := true })]
                                nodes := tset (mk asking).map.nodes 44 { vgn := 0x400000000, ctx := 0, vcid := some 1023, pgn := 0, count := 1 } }
  arr := { turn := [(0, { holder := 1, tiles := 1, wbase := 0, wsize := 1, rings := [(7, { base := 0, size := 64 })] })] }
  com := { (mk asking).com with vc := [(1022, { defw := 0, owner := 1 }), (1023, { defw := 0, shares := [0] })] } }

theorem witness_Queries : Issuing asked asking lone ∧
    (let c := ctxOf asked asking lone
     let n (k : Nat) := (c.x k).toNat
     n 1 < 2560 ∧ 2560 ≤ n 2 ∧ n 4 < 8 ∧ c.x 0 = 0 ∧ n 5 < 1024 ∧ n 6 < 4 ∧ c.x 7 ≠ 0 ∧ asking.gsize < n 7 ∧
     n 0 ≤ asking.gsize ∧ n 0 < 16 ∧ asked.member 1 0 = some 1 ∧ (asked.turnHeld 1).isSome = true ∧
     asked.endpoint 0 (c.x 0) = none ∧ (∃ e, asked.endpoint 0 (c.x 3) = some e) ∧
     (∃ v, tget asked.com.vc 1023 = some v ∧ v.owner = (asked.ctx 0).partition) ∧
     (∃ v, tget asked.com.vc 1022 = some v ∧ v.owner ≠ (asked.ctx 0).partition) ∧
     asked.lookup 0 (n 9) = none ∧ 1024 ≤ n 2 ∧ asking.ctx = 0 ∧ other.ctx ≠ 0 ∧
     (∃ nd, asked.lookup 0 0x400000000000 = some (44, nd, 0) ∧ nd.vcid = some 1023)) := by
  refine ⟨⟨rfl, rfl, rfl⟩, ?_⟩
  dsimp only
  and_intros
  any_goals first | exact ⟨_, rfl⟩ | exact ⟨_, rfl, rfl⟩ | decide +kernel

/-- s1 names channel 65,535 of context 0, s2 the last 16 bytes of the window, s3 is a handle for a call on channel 65,534. -/
def talking : Barge := { solo with sreg := [(1, 65535), (2, 65520), (3, 0x401)] }
def talk (q : List Msg) : State := { mk talking with map := { (mk talking).map with
  eps := [(epKey 0 1, { valid := true, gen := 1, s := true, chan := 65534 })]
  chans := [(65534, { owner := some 0, queue := List.replicate 63 ⟨[], 0, 0, 0⟩ }), (65535, { owner := some 0, queue := q })] } }

/-- Messages: a channel with a message and one without; a handle that is not valid, and a valid one whose channel has room
for one message. -/
theorem witness_Messages : (∀ q ∈ [[], [⟨[1, 2, 3, 4, 5, 6], 7, 0, 0⟩]],
      (talk q).barge? 1 = some talking ∧ (talk q).mem.leaseQ = [] ∧ (talk q).spad 1 65520 16 = some (1, 65520) ∧
      65520 % 16 = 0 ∧ twf 0 ((talk q).barge 1).window = true ∧ 65535 < 65536 ∧ ((talk q).chan 65535).owner = some 0 ∧
      ((talk q).chan 65535).queue = q ∧ (talk q).endpoint 0 0 = none ∧
      (∃ e, (talk q).endpoint 0 0x401 = some e ∧ e.s = true ∧ ((talk q).ctx e.tctx).st = .live ∧ (talk q).liveOwner e.chan ≠ none ∧
        ((talk q).chan e.chan).queue.length < 64 ∧ ((talk q).chan e.chan).heldFaults = [] ∧ ((talk q).chan e.chan).waiters = [] ∧
        (talk q).map.spent.contains (talking.token false talking.calls) = false)) ∧
    talking.late = [] ∧ Alone (talk []) talking lone ∧ talking.eff = [] ∧ talking.leases = [] := by
  refine ⟨?_, rfl, ⟨⟨rfl, rfl, rfl⟩, rfl, rfl, rfl, rfl⟩, rfl, rfl⟩
  intro q hq
  simp only [List.mem_cons, List.not_mem_nil, or_false] at hq
  rcases hq with rfl | rfl <;> and_intros <;> first | exact ⟨_, rfl, by decide +kernel⟩ | decide +kernel

/-- The same machine, once that barge's first token has been given out. -/
def spentS : State := { mk talking with map := { (mk talking).map with spent := [talking.token false 0] } }

/-- 18_mapping R299, R301: a token that has been given out is passed over for the lowest that has not. -/
theorem test_spent_token : (spentS.freshOf 1 { barge := 1, isFault := false }).1 = spentS.spareToken ∧
    State.spareToken { State.reset with map := { State.reset.map with spent := [1, 3] } } = 2 := by
  refine ⟨?_, by decide +kernel⟩
  have hb : spentS.barge 1 = talking := rfl
  have hs : spentS.map.spent.contains (talking.token false 0) = true := by simp [spentS]
  simp only [State.freshOf, hb]
  exact if_pos hs

/-! ### The step, exceptions and encoding -/

/-- StepRunsTheDecodedWord: the machine with `addi s8, s0, 10` placed has one thing to do; its barge has no run, and its fetch finds
the one word. -/
def ready : State := State.reset.withFetchWord 32 0x8480000A

def chosen : State := (ready.chooseAct ready.acts).2

theorem witness_StepRunsTheDecodedWord : ready.inputs = [] ∧ (ready.chooseAct ready.acts).1 = some (.issue 1) ∧
    chosen.barge? 1 = some startBarge ∧ startBarge.run = none ∧ startBarge.frame = none ∧ startBarge.unanswered = none ∧
    (let u := chosen.setB 1 startBarge
     startBarge.pc < 2 ^ 48 ∧ u.page 0 0 0x1000 0x1000 4 .x = .ok ⟨0x1000, 0x1000, 4, 0, 1⟩ ∧ u.directOk 0x1000 = true ∧
     u.isIsolated 0x1000 = false ∧ u.mem.seenPoison 0 0x1000 4 = false ∧ u.unheard startBarge 0 0x1000 4 = none ∧ leNum (u.seenAt 0 0x1000 4) = 0x8480000A ∧
     decode32 0x8480000A = .ok (.addi true 8 0 10) ∧ (Fields.unpack 0x8480000A).st = 1 ∧
     u.nextRun startBarge = .ok ([⟨0x1000, .addi true 8 0 10, 0⟩], [1])) := by decide +kernel

/-- A run with a word left, and an event that is due. -/
def midRun : State := ready.setB 1 { startBarge with run := some { here := ⟨0x1000, .ckpt, 0⟩, words := [⟨0x1004, .ckpt, 0⟩] } }

theorem witness_StepOtherwise : midRun.inputs = [] ∧ (midRun.chooseAct midRun.acts).1 = some (.issue 1) ∧
    (∃ r, (midRun.barge 1).run = some r ∧ r.words ≠ []) ∧
    (let due : State := { State.reset with inputs := [(0, .backInvalidate 0 0 true)] }
     due.inputs = [(0, .backInvalidate 0 0 true)] ∧ 0 ≤ due.cycle) ∧ (Instr.backInvalidate 0 0 true).isWord = false := by
  refine ⟨rfl, ?_, ⟨_, rfl, ?_⟩, ?_⟩ <;> decide +kernel

/-- A supervisor channel 5 of context 0, with `q` messages and `w` waiting. -/
def supervised (b : Barge) (q : Nat) (w : List Nat) : State := { mk b with
  barges := [(1, b), (2, { st := .resident, core := 1, held := some { pc := 0, op := .recv (some 5) 0 0 false } })]
  map := { (mk b).map with
    ctxs := [(0, { (mk b).ctx 0 with super := some 5 })]
    chans := [(5, { owner := some 0, queue := List.replicate q ⟨[], 0, 0, 0⟩, waiters := w })] } }

/-- TakingAnException: a message that can be delivered, with no barge waiting, with one, and with no room; one that cannot; a
buffered command that an abort finishes. -/
theorem witness_TakingAnException :
    (∀ e ∈ [(63, ([] : List Nat)), (63, [2]), (64, [])],
      (supervised solo e.1 e.2).barge? 1 = some solo ∧ (supervised solo e.1 e.2).mem.leaseQ = [] ∧
      (supervised solo e.1 e.2).faultChan 0 15 = some 5 ∧ ((supervised solo e.1 e.2).chan 5).waiters = e.2 ∧
      ((supervised solo e.1 e.2).chan 5).queue.length = e.1 ∧
      (supervised solo e.1 e.2).map.spent.contains (solo.token true solo.faults) = false) ∧
    (∃ c, (supervised solo 63 [2]).barge? 2 = some c ∧ c.held = some ⟨0, .recv (some 5) 0 0 false, 0, 0, (0, 0)⟩) ∧
    (mk solo).faultChan 0 15 = none ∧
    (let b : Barge := { solo with eff := [.cmd (tlKey 1 0) 1 { op := .mtend, barge := 1, ctx := 0, core := 0 }] }
     (supervised b 0 []).barge? 1 = some b ∧ (supervised b 0 []).faultChan 0 1 = some 5 ∧ 0 < 1) := by decide +kernel

/-- ReturnFromException: a parked barge, and a reply of each kind. -/
theorem witness_ReturnFromException : (mk { solo with st := .parked }).barge? 1 = some { solo with st := .parked } ∧
    (0 : Word).toNat = 0 ∧ (4 : Word).toNat = 4 ∧ (1 : Word).toNat = 1 ∧ (5 : Word).toNat = 5 ∧ 8 ≤ (8 : Word).toNat ∧
    2 ≤ (2 : Word).toNat % 4 := by decide +kernel

/-- MemoryKeepsItsForm: memory after reset has the form, and a step goes on from there. -/
theorem witness_MemoryKeepsItsForm : ready.MemWf ∧ goesOn (step ready) := ⟨by unfold State.MemWf; decide +kernel, by
  have h : got (step ready) (fun _ => true) = true := by decide +kernel
  unfold got at h
  unfold goesOn
  split at h
  · rename_i t e; exact ⟨t, e⟩
  · cases h⟩

/-- TablesKeepTheirForm: the machine with a word placed has the forms too. -/
theorem witness_TablesKeepTheirForm : Machine.TablesWf ready := by
  unfold Machine.TablesWf
  decide +kernel

/-- DecodingAnEncodedWord, EncodingADecodedWord: the last well-formed term of the arithmetic group, and the highest word that decodes. -/
theorem witness_encoding : (Instr.remu true 31 31 31).isWord = true ∧ (Instr.remu true 31 31 31).wf = true ∧
    0x83FFFC27 < 2 ^ 32 ∧ decode32 0x83FFFC27 = .ok (.remu true 31 31 31) ∧ decode32 0x7FFFFFFF = .ok (.pfx 33554431) := by
  decide +kernel

/-! ### Steps without a word -/

/-- A barge that holds a load of the first word, which is full; one that holds a store of the next, which is empty; one that waits
on a number, completed or not. -/
def loading : Barge := { startBarge with held := some { pc := 0x1000, op := .ldf 1 1 0 0 }, full := [(0, true)], window := [(0, 7)] }
def filling8 : Barge := { loading with held := some { pc := 0x1000, op := .ste 1 8 9 } }
def awaiting (n : Nat) : Barge := { startBarge with held := some { pc := 0x1000, op := .tlwait (tlKey 3 0) n } }

theorem witness_held : (mk loading).barge? 1 = some loading ∧ loading.st = .resident ∧ loading.fpx = none ∧
    ((mk loading).barge 1).isFull 0 = true ∧ ((mk loading).barge 1).wordPoison 0 = false ∧
    (∀ e ∈ (mk loading).barges, e.1 ≠ 1 → e.2.held = none) ∧
    does (.feHeldPerform 1) (mk loading) (fun t => tgetD 0 (t.barge 1).sreg 1 == 7 && !(t.barge 1).isFull 0) = true ∧
    (mk filling8).barge? 1 = some filling8 ∧ filling8.isFull 8 = false ∧
    does (.feHeldPerform 1) (mk filling8) (fun t => (t.barge 1).isFull 8 && (t.barge 1).wordAt 8 == 9) = true ∧
    0 ≤ ((mk (awaiting 0)).tl (tlKey 3 0)).completed ∧ ((mk (awaiting 1)).tl (tlKey 3 0)).completed < 1 := by decide +kernel

/-- A lease at its end at cycle 256, and before it. -/
def leasing : Barge := { solo with leases := [⟨0x80, 256⟩] }
theorem witness_leaseExpiry : (let s : State := { mk leasing with cycle := 256 }
     s.barge? 1 = some leasing ∧ (∃ l ∈ leasing.leases, l.until_ ≤ s.cycle) ∧ s.mem.leaseQ = [] ∧
     does (.leaseExpiry 1) s (fun t => (t.barge 1).leases == [] && (t.barge 1).run == none) = true) ∧
    (∀ l ∈ leasing.leases, l.until_ = 256) ∧ Machine.noCommands leasing := ⟨by decide +kernel, by decide, fun _ h => by cases h⟩

/-- A barge asked to leave: between regions, at a suspension point, and while it holds a lease. -/
theorem witness_preemption : (let b : Barge := { solo with preempt := true }
     (mk b).barge? 1 = some b ∧ b.st = .resident ∧ b.leases = [] ∧ b.held = none ∧ b.eff = [] ∧
     does (.preemption 1) (mk b) (fun t => (t.barge 1).st == .ready) = true) ∧
    (let b : Barge := { awaiting 1 with preempt := true }
     (mk b).barge? 1 = some b ∧ b.leases = [] ∧ b.suspended = true ∧
     does (.preemption 1) (mk b) (fun t => (t.barge 1).st == .waiting && (t.barge 1).held == b.held) = true) ∧
    (let b : Barge := { leasing with preempt := true }
     b.leases ≠ [] ∧ does (.preemption 1) (mk b) (fun t => (t.barge 1) == b) = true) := by decide +kernel

/-- A target that has left an access without an answer for 1,024 µs. -/
theorem witness_hostAccessTimeout : let b : Barge := { solo with unanswered := some (0x100, 0) }
    let s : State := { mk b with cycle := 3072000 }
    s.barge? 1 = some b ∧ 0x100 < 0x300 ∧ 0 + 3072000 ≤ s.cycle ∧ b.held = none ∧ tgetD false s.slu.isolated 0x100 = false ∧
    s.hst.events = [] ∧ does (.hostAccessTimeout 1) s (fun t => tgetD false t.slu.isolated 0x100) = true := by decide +kernel

/-- Granule 0x80 leased, 0x81 not, with a copy in M, and 0x82 not leased but asked for. -/
theorem witness_backInvalidate : let s : State := { mk leasing with mem := { (mk leasing).mem with
      l1 := [(2 ^ 46 + 0x81, .m)], leaseQ := [.wait 1 0x82] } }
    s.granLeased 0x80 = true ∧ s.granLeased 0x81 = false ∧ tget s.mem.l1 (1 * 2 ^ 46 + 0x81) = some .m ∧
    (∀ r ∈ s.mem.leaseQ, r.gran ≠ 0x81 ∧ r.gran = 0x82) ∧
    does (.backInvalidate 1 0x81 false) s (fun t => tget t.mem.l1 (2 ^ 46 + 0x81) == some .e) = true ∧
    does (.backInvalidate 1 0x81 true) s (fun t => tget t.mem.l1 (2 ^ 46 + 0x81) == none) = true := by decide +kernel

/-- A region that uses node 1 or not, whose core holds it under a lease that ends at cycle 4,096. -/
def rented (u : List Nat) : State :=
  let b : Barge := { solo with used := u }
  { mk b with cycle := 4096, mem := { (mk b).mem with tcache := [(0, [⟨1, rootNode 0 25165824, 4096⟩])] } }

/-- A translation that a core does not hold; a lease that has ended, used and not used; one of a node that is withdrawn. -/
theorem witness_translation : (∃ n, (mk solo).translate 0 0x1000 = some (1, n, 0x1000) ∧ tget (mk solo).map.nodes 1 = some n) ∧
    (let t1 : TEntry := ⟨1, rootNode 0 25165824, 4096⟩
     let s (l : Tab (List TEntry)) : State := { mk solo with mem := { (mk solo).mem with tcache := l } }
     ∀ l ∈ [[], [(850, [t1])]], tsorted (s l).mem.tcache 0 = true ∧
       does (.translationWalk 0 0 0x1000) (s l) (fun t => t.mem.tcache == [(0, [t1]), (850, [t1])]) = true) ∧
    (∀ e ∈ tgetD [] (mk solo).mem.tcache 0, e.key ≠ 1) ∧
    (∀ u ∈ [[], [1]], ∃ e, (rented u).tleaseOut 0 1 = some e ∧ (rented u).nodeGone e = false ∧
      ((∃ e ∈ (rented u).barges, e.2.core = 0 ∧ e.2.st = .resident ∧ 1 ∈ e.2.used) ↔ u = [1]) ∧
      does (.translationLeaseExpiry 0 1) (rented u) (fun t =>
        t.mem.tcache == if u = [] then [] else [(0, [⟨1, rootNode 0 25165824, 8192⟩])]) = true) ∧
    (let s : State := { rented [1] with map := { (rented [1]).map with nodes := [] } }
     ∃ e, s.tleaseOut 0 1 = some e ∧ s.nodeGone e = true ∧ (∃ b, s.barge? 1 = some b ∧ b.core = 0 ∧ b.st = .resident ∧ 1 ∈ b.used) ∧
       tsorted s.barges 0 = true ∧ s.mem.leaseQ = [] ∧
       does (.translationLeaseExpiry 0 1) s (fun t => (t.barge 1).used == [] && t.mem.tcache == []) = true) := by
  refine ⟨⟨rootNode 0 25165824, by decide +kernel⟩, ?_, ?_, ?_, ⟨_, rfl, ?_, ⟨_, rfl, ?_⟩, ?_⟩⟩
  any_goals decide +kernel

/-- A released write of core 0 without a place; the same with its place, not in its home's view yet, and held by three views. -/
def wr0 : Write := { id := 1, core := 0, home := 2, pa := 0x2000, bytes := [9] }
def viewsS (out flight : List Write) : State := { mk solo with mem := { (mk solo).mem with nextW := 3, out := out, flight := flight } }

theorem witness_viewAppliesWrite :
    (∀ s ∈ [viewsS [wr0] [], viewsS [] [wr0], viewsS [] [{ wr0 with views := [2, 0, 1] }]],
      (s.mem.waiting 3).length = 1 ∧ ((s.mem.out ++ s.mem.flight).map (fun x => x.id)).Nodup ∧
      (∀ x ∈ s.mem.flight, x.views.length < 4) ∧ s.mem.wf = true) ∧
    (let s := viewsS [wr0] []
     s.mem.canMove 3 wr0 = true ∧ does (.viewAppliesWrite 3 0) s (fun t => t.mem.out == [] && t.mem.flight == [wr0]) = true) ∧
    (let s := viewsS [] [wr0]
     s.mem.may 3 wr0 = false ∧ s.mem.canMove 3 wr0 = true ∧ s.mem.may 2 wr0 = true ∧
     does (.viewAppliesWrite 3 0) s (fun t => t.mem.flight.map (fun x => x.reach) == [1] && t.byteAt 3 0x2000 == 0) = true ∧
     does (.viewAppliesWrite 2 0) s (fun t => t.byteAt 2 0x2000 == 9 && t.byteAt 0 0x2000 == 0) = true) ∧
    (let w : Write := { wr0 with views := [2, 0, 1] }
     (viewsS [] [w]).mem.may 3 w = true ∧
     does (.viewAppliesWrite 3 0) (viewsS [] [w]) (fun t => t.mem.flight == [] && t.byteAt 3 0x2000 == 9) = true) ∧
    (let w : Write := { wr0 with reach := 2 }
     (viewsS [] [w]).mem.canMove 3 w = false) := by decide +kernel

/-- A command of barge 1 on core 0, whose turn holds tile 0 and two rings with 128 bytes in each; and the state in which it waits. -/
def cmd1 (op : Op) (a b : Word) (args : List Word := []) : Cmd := { op := op, barge := 1, ctx := 0, core := 0, a := a, b := b, args := args }
def turn1 : Turn := { holder := 1, tiles := 1, wbase := 0, wsize := 1, rings := [
  (0, { base := 0, size := 4096, tail := 128 }), (1, { base := 4096, size := 4096, tail := 128 })] }
def arrayS (op : Op) (a b : Word) : State := { mk solo with
  tls := [(tlKey 1 0, { issued := 1, latest := [(0, 1)] })]
  arr := { queue := [(0, [{ n := 1, cmd := cmd1 op a b }])], turn := [(0, turn1)], acc := [(accKey 0 0 0 0, 5), (accKey 0 0 127 95, 1)] } }
/-- The same command running with status `st`. -/
def running (op : Op) (a b : Word) (st : Nat) : State :=
  let s := arrayS op a b
  { s with arr := { s.arr with queue := [], running := [(0, ⟨0, { n := 1, cmd := cmd1 op a b }, st, List.replicate 8 7⟩)] } }
/-- The command completes with `code`, in a state that has `p`. -/
def completes (s : State) (code : Nat) (p : State → Bool) : Bool :=
  does (.matrixCommandComplete 0) s (fun t => (t.tl (tlKey 1 0)).ends.head? == some ⟨1, code, 0, 0⟩ && p t)

/-- ArraySteps, the begin: an `MTEND` of the turn's holder, an `MZERO`, one of a barge without the turn, an `MTURN` that is granted
and one of a barge that holds a turn, an `MLDPROG` of the last granule of its window. -/
theorem witness_matrixBegin : (∀ op ∈ [Op.mtend, .mzero, .mldprog], (arrayS op 1 0).matrixNext 0 = some 0 ∧
      tgetD [] (arrayS op 1 0).arr.queue 0 = [{ n := 1, cmd := cmd1 op 1 0 }] ∧
      (tget (arrayS op 1 0).arr.turn 0).map (fun t => t.holder) = some 1) ∧
    does (.matrixCommandBegin 0) (arrayS .mtend 0 0) (fun t => (tget t.arr.turn 0).map (fun t => t.ending) == some (some 1)) = true ∧
    (let s := (arrayS .mzero 1 0).setArr { (arrayS .mzero 1 0).arr with turn := [] }
     s.matrixNext 0 = some 0 ∧ tget s.arr.turn 0 = none ∧
     does (.matrixCommandBegin 0) s (fun t => (tget t.arr.running 0).map (·.status) == some 4) = true) ∧
    (let s := (arrayS .mturn 0x10001 0).setArr { (arrayS .mturn 0x10001 0).arr with turn := [] }
     s.matrixNext 0 = some 0 ∧ s.matrixStatus 0 { n := 1, cmd := cmd1 .mturn 0x10001 0 } = 0 ∧
     does (.matrixCommandBegin 0) s (fun t => (tget t.arr.turn 0).map (·.holder) == some 1) = true) ∧
    ((arrayS .mturn 0x10001 0).matrixStatus 0 { n := 1, cmd := cmd1 .mturn 0x10001 0 } = 2 ∧
      ∃ e ∈ (arrayS .mturn 0x10001 0).arr.turn, e.2.holder = 1) ∧
    (arrayS .mldprog 65472 0).spad 1 65472 64 = some (1, 65472) := by decide +kernel

/-- The completion of a refused command, of those that change the turn, and of `MZERO`. -/
theorem witness_matrixComplete :
    (∀ e ∈ [(Op.mzero, 2), (.mturn, 0), (.mringcfg, 0), (.mringadv, 0), (.mldprog, 0), (.mzero, 0)],
      let s := running e.1 1 1 e.2
      (tget s.arr.running 0).map (fun r => (flightOf r.core, r.m.n, r.status)) = some (0, 1, e.2) ∧
      (tget s.arr.turn 0).isSome = true ∧ tsorted s.arr.acc 0 = true) ∧
    completes (running .mzero 1 0 2) 2 (fun t => t.arr.acc.length == 2) = true ∧
    completes (running .mzero 1 0 0) 0 (fun t => t.arr.acc == []) = true ∧
    completes (running .mringcfg 7 0x4000001000 0) 0 (fun t => (tget t.arr.turn 0).map (fun u => tget u.rings 7) ==
      some (some ⟨0x1000, 0x40, 0, 0⟩)) = true ∧
    completes (running .mringadv 0x400001 0 0) 0 (fun t => (tget t.arr.turn 0).map (fun u => (tget u.rings 1).map (fun g => g.tail)) ==
      some (some 192)) = true ∧
    completes (running .mldprog 0 0 0) 0 (fun t => (tget t.arr.turn 0).map (fun u => u.prog) == some (some (List.replicate 8 7))) =
      true := by decide +kernel

/-- The multiply commands, of one element over 32 positions of FP32: with clean rings and with a poisoned granule in ring 0. -/
theorem witness_multiply : (let c := cmd1 (.mma false) 0x2000000000 0x10
      c.mN ≤ 96 ∧ (c.mRings.map (fun x => x.1)).Nodup ∧ c.mM = 1 ∧ c.mK = 32) ∧
    (∀ op ∈ [Op.mma false, .mmax, .mrec], let s := running op 0x2000000000 0x10 0
      (tget s.arr.turn 0).isSome = true ∧
      completes s 0 (fun t => (tget t.arr.turn 0).map (fun u => u.rings.map (fun g => g.2.head)) == some [128, 128]) = true ∧
      (let p := s.setArr { s.arr with rpoison := [(1, true)] }
       s.arr.ringPoison 0 ⟨0, 4096, 0, 128⟩ 128 = false ∧ p.arr.ringPoison 0 ⟨0, 4096, 0, 128⟩ 128 = true ∧
       completes p 7 (fun t => (tget t.arr.turn 0).map (fun u => u.rings.map (fun g => g.2.head)) == some [128, 128]) = true)) := by
  decide +kernel

/-- `MACCRD` of the first element to the last four bytes of the window; `MACCWR` of a tile entry that stands there, clean and
poisoned. -/
theorem witness_maccrdMaccwr :
    (let s := running (.maccrd false) 0 65532 0
     let c := cmd1 (.maccrd false) 0 65532
     s.spad 1 c.b c.rBytes = some (1, 65532) ∧ c.rTy = 0 ∧ c.rRows = 1 ∧ c.rCols = 1 ∧ twf 0 solo.window = true ∧
     s.barge? 1 = some solo ∧ solo.st ≠ .ended ∧
     completes s 0 (fun t => readTab (t.barge 1).window 65532 4 == [5, 0, 0, 0]) = true) ∧
    (∀ bad ∈ [false, true],
      let b : Barge := { solo with
        tileTab := [(63, { st := .ready, rows := 1, cols := 1, base := 65532 })]
        window := [(65532, 9)], spPoison := if bad then [(8191, true)] else [] }
      let s : State := { running .maccwr 0x5F7F0 63 0 with barges := [(1, b)] }
      s.barge? 1 = some b ∧ b.st ≠ .ended ∧ b.wordPoison 65532 = bad ∧ 127 + 1 ≤ 128 ∧ 95 + 1 ≤ 96 ∧
      completes s (if bad then 7 else 0) (fun t => (t.barge 1).tileTab == [] && (t.arr.cell 0 0 127 95 == if bad then 0x7FC00000 else 9)) =
        true) := by decide +kernel

/-- The steps of a program: a NaN that a register holds, and one that the step makes. -/
theorem witness_programSteps : Machine.nanCode fmtF32 0x7FC00001 = true ∧ Machine.nanCode fmtF32 0x7F800000 = false ∧
    (let v : Cell := [0x7F800000, 0, 0, 0xFF800000, 0, 0, 0, 0]
     Machine.nanCode fmtF32 (fpAdd fmtF32 (v.getD 0 0) (v.getD 3 0)).code = true ∧
     (∀ i < 3, Machine.nanCode fmtF32 (v.getD i 0) = false) ∧
     recStep 639 4095 v (3 * 2 ^ 20) = v.set 0 (0x7FC00000 + 639 * 4096 + 4095)) := by decide +kernel

/-- A step of which two registers that it reads hold NaNs: the one with the smaller bits 21:0 stays, the first where they are equal. A
CSEL whose S1 is no less keeps its destination, its S3 read all the same. -/
theorem witness_programNans : (let v : Cell := [0x7FC00005, 0xFFC00003, 0x7FC00005, 0, 0, 0, 0, 0]
     (∀ e ∈ v, e < 2 ^ 32) ∧ recStep 5 0 v (2 ^ 20) = v.set 0 0xFFC00003 ∧
     recStep 5 0 v (2 ^ 23 + 2 ^ 21) = v.set 0 0xFFC00003 ∧ recStep 5 0 v (2 ^ 24) = v.set 0 0x7FC00005 ∧
     recStep 5 0 v (7 * 2 ^ 28 + 3 * 2 ^ 23 + 4 * 2 ^ 20 + 2 ^ 17) = v.set 0 0xFFC00003) := by decide +kernel

/-- What a multiply command gives an element: the first group of FP32, of one product 2 × 3 on an accumulator of 1, and the sum of 32
INT8 products −1 × −1 (R235 to R237). A group with a NaN, with two infinities, and with none. -/
theorem witness_ArrayCells :
    (let ones : Tab Byte := (List.range 64).map (fun i => (i, 255))
     let a : ArraySt := { ring := ones }
     let g : Ring := { base := 0, size := 4096 }
     let c := cmd1 (.mma false) 0x2007700000 0x10
     c.mTA = 7 ∧ c.mTB = 7 ∧ c.mK = 32 ∧ a.mmaCell 0 0 c ⟨g, g, none, none⟩ 0 0 0xFFFFFFF0 = 16) ∧
    (let a : ArraySt := { ring := [(3, 0x40), (4098, 0x40), (4099, 0x40)] }
     let c := cmd1 (.mma false) 0x2000000000 0x10
     c.mTA ≠ 7 ∧ Machine.ringElement a 0 { base := 0, size := 4096 } 1 32 0 0 = 0x40000000 ∧
     a.mmaCell 0 0 c ⟨{ base := 0, size := 4096 }, { base := 4096, size := 4096 }, none, none⟩ 0 0 0x3F800000 = 0x40E00000) ∧
    (let zeros := List.replicate 31 (FVal.fin false 0 0)
     (FVal.nan :: zeros).length = 32 ∧ arrayGroup 5 64 0 (FVal.nan :: zeros) = 0x7FC00000 + 5 * 4096 + 64 ∧
     arrayGroup 5 64 0 (.inf true :: .inf false :: List.replicate 30 (.fin false 0 0)) = 0x7FC00000 + 5 * 4096 + 65 ∧
     arrayGroup 5 64 0x7F800000 (FVal.inf true :: zeros) = 0x7FC00000 + 5 * 4096 + 64 ∧
     arrayGroup 5 64 0 (FVal.inf true :: zeros) = 0xFF800000 ∧ arrayGroup 5 64 0x7FC00001 (FVal.nan :: zeros) = 0x7FC00001) := by
  decide +kernel

/-- The release: a turn that its `MTEND` ends. -/
theorem witness_turnRelease : let s := (running .mtend 0 0 0).setTurn 0 { turn1 with ending := some 1 }
    (∃ tn, tget s.arr.turn 0 = some tn ∧ tn.ending = some 1 ∧ 0 < 1) ∧ s.turnReady 0 = true ∧ tsorted s.arr.acc 0 = true ∧
    tsorted s.arr.ring 0 = true ∧
    does (.turnRelease 0) s (fun t => t.arr.acc == [] && t.arr.turn == [] && (t.tl (tlKey 1 0)).completed == 1) = true := by
  decide +kernel

/-- A virtual cache of two shares and 128-byte lines, the example's VCID 5; context 0 names granule 0x80 of HBM through it. -/
def vc5 : VCache := { defw := 0x200009005, place := 0x800C, shares := [0, 1] }

/-- Command 1 of queue 0 of flight 0, as accepted; 1 stands at 0x2000 of every view; core 0 holds a turn. -/
def accepted (sc : SCmd) : State :=
  let s := mk solo
  { s with
    tls := [(tlKey 0 0, { issued := 1, latest := [(0, 1)] })]
    slu := { cmds := [(0, [sc])] }
    arr := { turn := [(0, turn1)] }
    mem := { s.mem with view0 := [(0x2000, 1)], view1 := [(0x2000, 1)], view2 := [(0x2000, 1)], view3 := [(0x2000, 1)] }
    map := { s.map with nodes := tset s.map.nodes 44 { vgn := 0x400000000, ctx := 0, vcid := some 5, pgn := 2, count := 1 } }
    com := { s.com with vc := [(5, vc5)] } }
def begun (c : Cmd) (v : Nat := 0) : SCmd := { q := 0, n := 1, cmd := c, begun := true, verdict := v }

/-- What `Going` asks for, to be decided. -/
theorem going_of {s : State} {f q n : Nat} {sc : SCmd} (hf : s.findSc f q n = some sc) (hb : sc.begun = true) (hn : 0 < n)
    (ho : sc.peer = none ∧ sc.resp = none) (hc : s.cmdBar sc.cmd = none)
    (hp : (∀ p ∈ (s.resolve f sc.cmd).all, p.kind ≤ 3 ∧ p.peer = none ∧ (p.kind = 0 → p.id = 0) ∧
      (p.kind = 1 → (s.barge? p.id).isSome) ∧ (p.kind = 2 → p.addr + p.len ≤ 2 ^ 21)) ∧ ∀ p ∈ (s.resolve f sc.cmd).src.flatten, p.kind ≠ 2)
    (hw : s.slWaits f sc (s.resolve f sc.cmd) = [] ∧ s.mem.leaseQ = []) (hs : s.mem.out = [] ∧ s.mem.flight = [])
    (hm : s.mem.wf = true ∧ (tsorted s.barges 0 = true ∧ tsorted s.tls 0 = true ∧ twf 0 s.arr.acc = true ∧ twf 0 s.arr.ring = true ∧
      twf 0 s.hst.exact = true ∧ twf 0 s.hst.coarse = true ∧ ∀ e ∈ s.barges, twf 0 e.2.window = true) ∧ tsorted s.mem.poison 0 = true)
    (hr : (∀ e ∈ s.barges, e.2.st ≠ .ended) ∧ s.com.failed = [] ∧ s.hst.tripped = [] ∧ s.hst.events = []) :
    Machine.Going s f q n sc := ⟨hf, hb, hn, ho, hc, hp, hw, hs, hm, hr⟩

/-- A copy within memory; one of two rows that land on each other; one to ring memory; a conversion of 32 FP32 elements to BF16; a fill of the last
granule of the window, with its words left as they are and made full. -/
def copyG : Cmd := cmd1 .scopy 0 0 [0x2000, 0x3000, 64, 0, 0, 0, 0, 0]
def copyRows : Cmd := cmd1 .scopy2d 0 0 [0x2000, 0x3000, 64, 0, 0, 0x400002, 0, 0]
def copyRing : Cmd := cmd1 .scopy 0 0 [0x2000, 64, 64, 0x2000000, 0, 0, 0, 0]
def convertG : Cmd := cmd1 .scvt 0 0 [0x2000, 0x3000, 32, 0x1000, 0, 0, 0, 0]
def fill (fe : Word) : Cmd := cmd1 .sfill 0 0 [0, 65472, 64, 0x1000000 + fe * 2 ^ 26, 0, 0x0807060504030201, 0, 0]
def warming : Cmd := cmd1 .shint 0 0 [0x400000000000, 0, 64, 0x10000000, 0, 0, 0, 0]
def cooling : Cmd := cmd1 .shint 0 0 [0x400000000000, 0, 64, 0x20000000, 0, 0, 0, 0]

/-- SluiceSteps, the begin: a command, and one that was refused at acceptance. -/
theorem witness_sluiceBegins : ∀ r ∈ [false, true], let c : SCmd := { q := 0, n := 1, cmd := copyG, refused := r }
    (accepted c).slNextOf 0 0 = some c ∧ linkPeer c.cmd ((accepted c).drainAll.resolve 0 c.cmd) = none ∧
    does (.sluiceCommandBegin 0 0) (accepted c) (fun t => (t.findSc 0 0 1).map (·.verdict) == some (if r then 2 else 0)) = true := by
  decide +kernel

/-- 12_sluice R216, 05_core_state R101: a scratchpad range that runs from member 0's full window into member 1's is checked in both. -/
theorem test_range_over_windows :
    (let b : Barge := { solo with gang := 1, gsize := 1, spf := 256 }
     let s (n : Nat) : State := { mk b with barges := [(1, b), (2, { b with gmem := 1, core := 1, spf := n })] }
     let c := cmd1 .scopy 0 0 [0, 0, 0, 0, 0, 0, 0, 0]
     ((s 1).slRange 0 c 1 none (2 ^ 20 - 64, 128)).1.map (fun p => (p.id, p.addr, p.len)) = [(1, 2 ^ 20 - 64, 64), (2, 0, 64)] ∧
     ((s 1).slRange 0 c 1 none (2 ^ 20 - 64, 128)).2 = [] ∧ ((s 0).slRange 0 c 1 none (2 ^ 20 - 64, 128)).2 = [4]) := by decide +kernel

/-- The end: commands that write all of their destination, those that a begin has stopped, one with an XLATE, and hints. -/
theorem witness_sluiceCompletes :
    (∀ c ∈ [copyG, copyRows, copyRing, convertG, fill 0, fill 1, fill 2, warming, cooling], ∀ v ∈ [0, 2, 4, 7],
      Machine.Going (accepted (begun c v)) 0 0 1 (begun c v)) ∧
    (∀ c ∈ [copyG, copyRows, copyRing, convertG, fill 0, fill 1, warming, cooling], let s := accepted (begun c)
      topStatus (0 :: (s.resolve 0 c).fails) = 0 ∧ s.slStalled (s.resolve 0 c) = none) ∧
    (let c : Cmd := { copyG with ctx := 9 }
     Machine.Going (accepted (begun c)) 0 0 1 (begun c) ∧ topStatus (0 :: ((accepted (begun c)).resolve 0 c).fails) = 3) := by
  refine ⟨?_, ?_, ?_⟩
  · intro c hc v hv
    apply going_of
    all_goals (revert v; revert c; decide +kernel)
  · decide +kernel
  · refine ⟨?_, by decide +kernel⟩
    apply going_of
    all_goals decide +kernel

theorem witness_sluiceWrites :
    does (.sluiceCommandComplete 0 0 1) (accepted (begun copyG)) (fun t => t.byteAt 3 0x3000 == 1) = true ∧
    does (.sluiceCommandComplete 0 0 1) (accepted (begun copyRows)) (fun t => t.byteAt 3 0x3000 == 0) = true ∧
    does (.sluiceCommandComplete 0 0 1) (accepted (begun copyRing)) (fun t => tgetD 0 t.arr.ring (ringKey 0 64) == 1) = true ∧
    (accepted (begun (fill 1))).resolve 0 (fill 1) = ⟨[], [[⟨1, 1, 65472, 64, 0, 0, 65472⟩]], []⟩ ∧ (fill 0).fedst = 0 ∧ (fill 1).fedst ≠ 0 ∧
    ((Machine.written (accepted (begun (fill 1))) (fill 1) ((accepted (begun (fill 1))).resolve 0 (fill 1))).map (fun e => e.2.length)).sum =
      64 ∧
    does (.sluiceCommandComplete 0 0 1) (accepted (begun (fill 1))) (fun t =>
      (t.barge 1).isFull 65528 && readTab (t.barge 1).window 65528 8 == [1, 2, 3, 4, 5, 6, 7, 8]) = true ∧
    (let s := accepted (begun copyG)
     does (.sluiceCommandComplete 0 0 1) { s with mem := { s.mem with poison := [(0x80, BitVec.allOnes 4)] } } (fun t =>
       t.poisonedAt 3 0x3000 && ((t.tl (tlKey 0 0)).ends.head?.map (·.code)) == some 5) = true) := by decide +kernel

/-- Hints: a line of the cache is allocated, or is there and goes. -/
theorem witness_hints : (∀ c ∈ [warming, cooling], (accepted (begun c)).resolve 0 c = ⟨[[⟨0, 0, 0x2000, 64, 6, 44, 0x400000000000⟩]], [], []⟩) ∧
    vc5.policy ≠ 4 ∧ vc5.shares ≠ [] ∧ warming.tier = 1 ∧ cooling.tier = 2 ∧
    (let key := lineKey vc5 5 0x2000
     does (.sluiceCommandComplete 0 0 1) (accepted (begun warming)) (fun t => (tget t.com.lines key).isSome) = true ∧
     (let s := accepted (begun cooling)
      does (.sluiceCommandComplete 0 0 1) { s with com := { s.com with lines := [(key, {})] } } (fun t => t.com.lines == []) = true)) := by
  decide +kernel

/-- A refused copy whose descriptor names a barrier, and a refused fill that counts against tile entry 63. -/
theorem witness_sluiceCounts :
    (let c : Cmd := cmd1 .scopy 0 0 [0x2000, 0x3000, 64, 0, 2 ^ 63 + 65472, 0, 0, 0]
     (begun c 2).counted = false ∧ (accepted (begun c 2)).cmdBar c = some (1, 65472) ∧
     does (.sluiceCommandComplete 0 0 1) (accepted (begun c 2)) (fun t => ((t.barge 1).barRec 65472).pending == -64) = true) ∧
    (let c : Cmd := cmd1 .sfill 0 0 [0, 0, 64, 0x4100003F, 0, 0, 0, 0]
     let sc : SCmd := { begun c 2 with counted := true }
     let b : Barge := { solo with tileTab := [(63, { st := .filling, fills := 1 })] }
     let s : State := { accepted sc with barges := [(1, b)] }
     s.cmdBar c = none ∧ s.findSc 0 0 1 = some sc ∧ c.tile = 63 ∧
     does (.sluiceCommandComplete 0 0 1) s (fun t => (tget (t.barge 1).tileTab 63).map (·.st) == some .ready) = true) := by decide +kernel

/-- A copy whose source does not answer, at its bound of 2^0 µs and before it. -/
theorem witness_sluiceTimeouts : (let c : SCmd := { begun (cmd1 .scopy 0 0 [0x800000000000, 0x3000, 64, 0, 0, 0, 0, 0]) with tout := 0 }
    let s : State := { accepted c with cycle := 3000, hst := { (accepted c).hst with stalls := [(0x100, 0x800000000000)] } }
    Machine.Going s 0 0 1 c ∧ (s.resolve 0 c.cmd).fails = [] ∧ s.slStalled (s.resolve 0 c.cmd) = some 0x100 ∧
    c.start + 2 ^ c.tout * 3000 ≤ s.cycle ∧ ¬ c.start + 2 ^ c.tout * 3000 ≤ 2999 ∧
    does (.sluiceTimeout 0 0 1) s (fun t => tgetD false t.slu.isolated 0x100 && t.slu.cmds == []) = true) := by
  refine ⟨?_, by decide +kernel⟩
  apply going_of
  all_goals decide +kernel

/-- Blocks of a conversion: 32 elements of one scale to E2M1 with a new scale; a poisoned byte; values of 0, of the largest element, an infinity. -/
theorem witness_blocks : 32 * tyWidth 8 % 8 = 0 ∧ 32 % 32 = 0 ∧
    (let c : Cmd := cmd1 .scvt 0 0 [0x2000, 0x3000, 32, 0x308000, 0, 0x4000, 0x5000, 0]
     c.sbs = true ∧ c.dbs = true ∧ c.stype = 0 ∧ c.dtype = 8 ∧
     (cvtBlock c 32 ((List.replicate 32 [0, 0, 0x80, 0x3F]).flatten.map (fun b => (b, false))) (some (127, false))).2 = (125, false) ∧
     (cvtBlock c 32 (List.replicate 128 (0, true)) (some (127, false))).1 = List.replicate 16 (0, true)) ∧
    blockScale [.fin false 0 0] 8 = 0 ∧ blockScale [.inf true] 8 = 255 ∧ blockScale [.fin true 1 0] 8 = 125 ∧
    blockScale [.fin false 15 (-3)] 4 = 127 ∧ blockScale [.fin false 7 0] 9 = 129 := by decide +kernel

/-- What the composer has to do for virtual cache 5, with shares 0 and 1 of die 0 held by it; context 0 names a granule through it. -/
def comS (c : Cmd) (vc : Tab VCache) : State :=
  let s := accepted (begun copyG)
  { s with
    slu := {}, tls := [(tlKey 2 5, { issued := 1, latest := [(0, 1)] })]
    com := { s.com with queue := [(5, [(1, c)])], vc := vc, share := [(0, 6), (1, 6)], used := [(0, 2)] } }
/-- The command ends with `code`, in a state that has `p`. -/
def ends5 (s : State) (code : Nat) (p : State → Bool) : Bool :=
  does (.composerCommandComplete 5) s (fun t => (t.tl (tlKey 2 5)).ends.head? == some ⟨1, code, 0, 0⟩ && p t)
/-- The same cache as a direct one (policy 4). -/
def direct5 : VCache := { vc5 with defw := 0x200080005 }

theorem witness_ComposerSteps :
    (∀ op ∈ [Op.cplace, .cdrop, .crsz], let c := cmd1 op 0x20005 0x8001
      tgetD [] (comS c [(5, vc5)]).com.queue 5 = [(1, c)] ∧ vc5.state = 1 ∧ (comS c [(5, vc5)]).comStopped (some vc5) (some c) = false) ∧
    ends5 (comS (cmd1 .cplace 5 0x8001) [(5, vc5)]) 0 (fun t => (tget t.com.vc 5).map (·.place) == some 0x8001) = true ∧
    ends5 (comS (cmd1 .cplace 5 0x8001) [(5, { vc5 with owner := 1 })]) 3 (fun t => t.com.queue == []) = true ∧
    does (.composerCommandComplete 5) (comS (cmd1 .cdrop 5 0) [(5, vc5)]) (fun t => (tget t.com.vc 5).map (·.state) == some 3) = true ∧
    (let s := comS (cmd1 .cdrop 5 0) [(5, { vc5 with state := 3 })]
     (∀ e ∈ s.barges, e.2.leases = []) ∧ s.mem.leaseQ = [] ∧ tsorted s.com.share 0 = true ∧
     ends5 s 0 (fun t => t.com.vc == [] && t.com.share == []) = true) ∧
    (comS (cmd1 .cdef 0 0 [0x200009005, 0, 0x800C, 0, 0, 0, 0, 0]) []).comStatus 5
      (cmd1 .cdef 0 0 [0x200009005, 0, 0x800C, 0, 0, 0, 0, 0]) = 0 := by decide +kernel

/-- `CRSZ` to the same size, of a direct cache to three shares, and of a cache with lines to three and to one. -/
theorem witness_resizes : ends5 (comS (cmd1 .crsz 0x20005 0) [(5, vc5)]) 0 (fun t => t.com.vc == [(5, vc5)]) = true ∧
    direct5.policy = 4 ∧ vc5.policy ≠ 4 ∧ (comS (cmd1 .crsz 0x30005 0) [(5, direct5)]).comStatus 5 (cmd1 .crsz 0x30005 0) = 0 ∧
    does (.composerCommandComplete 5) (comS (cmd1 .crsz 0x10005 0) [(5, vc5)]) (fun t =>
      (tget t.com.vc 5).map (fun v => (v.state, v.old, v.shares)) == some (2, [0, 1], [0])) = true := by decide +kernel

/-- A flush and an invalidation of the granule that context 0 names, over a cache with a dirty line of it, over a direct cache's
window, and over no cache. -/
def lineKey5 : Nat := lineKey vc5 5 0x2000
def keeping (op : Op) (vc : Tab VCache) : State :=
  let s := comS (cmd1 op (5 * 2 ^ 54 + 0x400000000000) 64) vc
  { s with com := { s.com with lines := [(lineKey5, { dirty := true })] }, mem := { s.mem with l1 := [(0x80, .m)] } }

theorem witness_ComposerUpkeep :
    (∀ e ∈ [(Op.cflush, []), (.cflush, [(5, vc5)]), (.cinval, []), (.cinval, [(5, vc5)]), (.cinval, [(5, direct5)])],
      let s := keeping e.1 e.2
      let c := cmd1 e.1 (5 * 2 ^ 54 + 0x400000000000) 64
      tgetD [] s.com.queue 5 = [(1, c)] ∧ s.comStatus 5 c = 0 ∧ (c.a.extractLsb' 54 10).toNat = 5 ∧ s.mem.wf = true ∧
      s.comStopped (tget s.com.vc 5) (some c) = false ∧ (∀ e ∈ s.barges, e.2.leases = []) ∧ s.mem.leaseQ = [] ∧
      tsorted s.com.lines 0 = true) ∧
    0x80 ∈ lineGrans vc5 lineKey5 ∧ (keeping .cflush [(5, vc5)]).drainAll.namedAt 0 0 5 0x80 false = [0x400000000000] ∧
    (keeping .cinval [(5, vc5)]).drainAll.namedAt 0 0 5 0x80 true = [0x400000000000] ∧
    ends5 (keeping .cflush [(5, vc5)]) 0 (fun t => t.com.lines == [(lineKey5, {})] && tget t.mem.l1 0x80 != some .m) = true ∧
    ends5 (keeping .cinval [(5, vc5)]) 0 (fun t => t.com.lines == [] && t.mem.l1 == []) = true ∧
    ends5 (keeping .cinval []) 0 (fun t => t.com.lines == [(lineKey5, { dirty := true })]) = true ∧
    (let s (l : List (Nat × L1St)) : State := { keeping .cinval [(5, vc5)] with mem := { (keeping .cinval [(5, vc5)]).mem with
        l1 := l, icache := [(639, [0x80, 0x82])] } }
     (∀ e ∈ (s [(0x80, .e)]).mem.l1, e.2 = .m → (s [(0x80, .e)]).drainAll.flushes 0 5 0x400000000000 64 vc5 (e.1 % 2 ^ 46) = false) ∧
     ends5 (s [(0x80, .e)]) 0 (fun t => t.com.lines == [] && t.mem.l1 == [] && t.mem.icache == [(639, [0x82])]) = true) := by
  decide +kernel

/-- ResizeSteps: the walk comes to a line of which barge 1 holds a granule leased. It sends a probe, which a later request for the granule
stands behind, and passes the line over; when the lease ends the probe moves the line. -/
theorem witness_probes : (let v : VCache := { vc5 with state := 2, old := [0, 1], shares := [0], crszN := 1 }
    let c := comS (cmd1 .crsz 0x10005 0) [(5, v)]
    let s : State := { c with barges := [(1, { solo with leases := [⟨0x80, 256⟩] })], cycle := 256
                              com := { c.com with lines := [(lineKey5, { rank := 1 })] } }
    tget s.com.vc 5 = some v ∧ s.walkLine 5 = some (lineKey5, { rank := 1 }) ∧ s.linePinned v lineKey5 = true ∧
    lineKey v 5 (64 * 0x80) = lineKey5 ∧ tget s.com.lines lineKey5 = some { rank := 1 } ∧
    does (.resizeLineMove 5) s (fun t => t.mem.leaseQ == [.probe 5 0x80] && t.walkLine 5 == none &&
      got (exec (.leaseExpiry 1) (t.enqueue 2 [0x80])) (fun u => (tget u.com.lines lineKey5).map (fun l => l.moved) == some true &&
        u.mem.leaseQ == [.wait 2 0x80])) = true) := by decide +kernel

/-- The walk of a resize with a line to move and with none; a share that is free, one of a direct cache, one of a cache with lines. -/
theorem witness_composerEvents :
    (let v : VCache := { vc5 with state := 2, old := [0, 1], shares := [0], crszN := 1 }
     let s (m : Bool) : State := { comS (cmd1 .crsz 0x10005 0) [(5, v)] with
       com := { (comS (cmd1 .crsz 0x10005 0) [(5, v)]).com with lines := [(lineKey5, { dirty := true, rank := 1, moved := m })] } }
     tget (s false).com.vc 5 = some v ∧ (s false).walkLine 5 = some (lineKey5, { dirty := true, rank := 1 }) ∧
     (s false).dieStopped v.die = false ∧ (s false).walked 5 = false ∧ (s true).walked 5 = true ∧ 1 ∉ v.shares ∧
     does (.resizeLineMove 5) (s false) (fun t => (tget t.com.lines lineKey5).map (fun l => (l.moved, l.dirty)) == some (true, true)) =
       true ∧
     ends5 (s true) 0 (fun t => (tget t.com.vc 5).map (·.state) == some 1 && tgetD 0 t.com.share (shareKey 0 1) == 0) = true) ∧
    (let s := comS (cmd1 .cdrop 5 0) [(5, direct5)]
     3 < 4 ∧ 6399 < 6400 ∧ tgetD 0 s.com.share (shareKey 3 6399) = 0 ∧ s.hst.events = [] ∧ 5 < 1024 ∧
     tgetD 0 s.com.share (shareKey 0 1) = 5 + 1 ∧ (s.markShares 0 2000 [1]).spareShare 0 direct5.place.toNat = some 6360 ∧
     does (.bankShareFault 0 1) s (fun t => (tget t.com.vc 5).map (·.shares) == some [0, 6360]) = true) ∧
    (let s := comS (cmd1 .cdrop 5 0) [(5, vc5)]
     vc5.state = 1 ∧ vc5.old = [] ∧ 1 ∈ vc5.shares ∧ vc5.shares.Nodup ∧
     does (.bankShareFault 0 1) s (fun t => (tget t.com.vc 5).map (fun v => (v.state, v.shares, v.faults)) == some (2, [0], 1)) = true) ∧
    (let s := (comS (cmd1 .cdrop 5 0) []).markShares 0 2000 [7]
     tgetD 0 s.com.share (shareKey 0 7) = 2000) := by decide +kernel

/-! ### The mapping engine and the wharf -/

/-- Context 0 maps two granules to context 7, whose channel 9 has room for one message, through its slot 1. -/
def item : List Word := [0, 0, 0, 0, 0x0000002000000100, 0x0000001000000200]
def mapS (c : Cmd) : State := { mk solo with
  tls := [(tlKey 3 0, { issued := 1, latest := [(0, 1)] })]
  map := { (mk solo).map with
    ctxs := [(0, (mk solo).ctx 0), (7, { st := .live, partition := 0 })]
    eps := [(epKey 0 1, { chan := 9, tctx := 7, s := true, m := true, g := true, gen := 1, valid := true, badge := 5 })]
    chans := [(9, { owner := some 7, queue := List.replicate 63 ⟨[], 0, 0, 0⟩ })]
    nodes := tset (mk solo).map.nodes 44 { vgn := 0x300, ctx := 7, vcid := some 1023, pgn := 0x80, count := 1, parent := 1 }
    queue := [(0, [(1, c)])] } }

theorem witness_MappingCommands :
    (∀ op ∈ [Op.send, .map], let c := cmd1 op 0x401 0 item
      tgetD [] (mapS c).map.queue 0 = [(1, c)] ∧ (mapS c).mapBusy 0 1 = false ∧ 0 < 1 ∧ c.ctx = 0 ∧ (mapS c).itemStatus c = 0 ∧
      (((mapS c).endpoint 0 0x401).map (fun e => (e.chan, ((mapS c).chan e.chan).waiters))) = some (9, []) ∧
      ((mapS c).coverOf 0 0x100 2).1 = [⟨1, 0x100, 2⟩] ∧
      does (.mappingCommandBegin 0) (mapS c) (fun t => (t.chan 9).queue.length == 64 && (t.tl (tlKey 3 0)).completed == 1) = true) ∧
    (∀ op ∈ [Op.send, .map, .grant], (mapS (cmd1 op 0 0 item)).itemStatus (cmd1 op 0 0 item) ≠ 0) ∧
    (let c := cmd1 .unmap 0x80000 1
     (mapS c).unmapStatus c false = 0 ∧ (mapS c).derived ((mapS c).coverOf 0 0x80 1).1 = [44] ∧
     (mapS c).confidential ((mapS c).node 44).ctx = false ∧
     (mapS c).unmapStatus (cmd1 .unmap 1 1) false ≠ 0 ∧
     does (.mappingCommandBegin 0) (mapS c) (fun t => (t.node 44).st == .withdrawing && t.map.pending.length == 1) = true) ∧
    ((mapS (cmd1 .epdrop 0x401 0)).endpoint 0 0x401).isSome = true ∧ (mapS (cmd1 .epdrop 0x801 0)).endpoint 0 0x801 = none ∧
    (let c := cmd1 .chbind 0 65535
     c.a.toNat = 0 ∧ 0 < 4096 ∧ c.b.toNat < 65536 ∧ ((mapS c).ctx 0).st = .live ∧
     does (.mappingCommandBegin 0) (mapS c) (fun t => (t.ctx 0).super == some 65535) = true) := by decide +kernel

/-- Context 0 has node 45, a child of root node 1, of two granules: granted whole, or its first granule. -/
def grantItem (k : Nat) : List Word := [0, 0, 0, 0, BitVec.ofNat 64 (k * 2 ^ 36 + 0x500000000), 0x0000001000000200]
def grantS (k : Nat) : State :=
  let s := mapS (cmd1 .grant 0x401 0 (grantItem k))
  { s with map := { s.map with nodes := tset s.map.nodes 45 { vgn := 0x500000000, ctx := 0, vcid := some 0, pgn := 0x90, count := 2, parent := 1 } } }

theorem witness_grants : ∀ k ∈ [1, 2], let s := grantS k
    let c := cmd1 .grant 0x401 0 (grantItem k)
    tgetD [] s.map.queue 0 = [(1, c)] ∧ s.mapBusy 0 1 = false ∧ s.itemStatus c = 0 ∧
    (s.coverOf 0 (itemOf c.args).svgn (itemOf c.args).count).1 = [⟨45, 0, k⟩] ∧ (∀ f ∈ s.map.nodes, f.2.parent ≠ 45) ∧
    (tget s.map.nodes 45).isSome = true ∧ tsorted s.map.nodes 0 = true ∧ (s.node 45).count = 2 ∧
    does (.mappingCommandBegin 0) s (fun t => (t.node 45).ctx == 7 && t.map.pending.length == 1 &&
      (tget t.map.nodes 46).isSome == decide (k = 1)) = true := by decide +kernel

/-- An `UNMAPX` of node 45, whole. -/
theorem witness_unmapx : (let c := cmd1 .unmapx 0x500000000000 2
    let s := { grantS 2 with map := { (grantS 2).map with queue := [(0, [(1, c)])] } }
    s.unmapStatus c true = 0 ∧ (s.coverOf 0 0x500000000 2).1 = [⟨45, 0, 2⟩] ∧ s.derived [⟨45, 0, 2⟩] = [] ∧
    s.confidential (s.node 45).ctx = false ∧
    does (.mappingCommandBegin 0) s (fun t => (t.node 45).st == .withdrawing && t.map.pending.length == 1) = true) := by decide +kernel

/-- Token 9 of a call by barge 2, or of the fault of a parked barge 2; context 0 has received its message, or context 7 has. -/
def replyS (fault : Bool) (rcv : Nat) (w : List Word) : State :=
  let s := mapS (cmd1 .reply 9 0 w)
  let b : Barge := { st := if fault then .parked else .resident, core := 1
                     held := if fault then none else some { pc := 0, op := .call 0 1 16 [] (some 9) } }
  { s with barges := [(1, solo), (2, b)], map := { s.map with tokens := [(9, { barge := 2, isFault := fault, receiver := some rcv })] } }

theorem witness_replies :
    (∀ f ∈ [false, true], let s := replyS f 0 [4, 1, 2, 3, 4, 5]
      s.mapBusy 0 1 = false ∧ (tget s.map.tokens 9).map (fun k => (k.barge, k.isFault, k.receiver)) = some (2, f, some 0) ∧
      does (.mappingCommandBegin 0) s (fun t => t.map.tokens == [] && (t.barge 2).carry == (if f then [1, 2, 3, 4, 5, 0] else [4, 1, 2, 3, 4, 5]) &&
        ((t.barge 2).st == if f then .ready else .resident)) = true) ∧
    twf 0 solo.window = true ∧ (replyS true 0 [8, 0, 0, 0, 0, 0]).drainAll.replyFault 2 [8, 0, 0, 0, 0, 0] = none ∧
    (∀ s ∈ [replyS false 7 [], replyS true 0 [8, 0, 0, 0, 0, 0]],
      does (.mappingCommandBegin 0) s (fun t => (t.tl (tlKey 3 0)).ends.head?.map (·.code) == some 12) = true) ∧
    ¬ 2 ^ 32 ≤ (0xFFFFFFFF : Word).toNat ∧ 2 ^ 32 ≤ (0x100000000 : Word).toNat := by decide +kernel

/-- The withdrawal of node 44 with nothing left to wait for, of a command and of a dying context; a held fault message. -/
def settling (n : Nat) : State :=
  let p : Pending := { ctx := 0, n := n, free := [44], nodes := [44], parties := [], deadline := 0 }
  let s := mapS (cmd1 .unmap 0x80000 1)
  { s with map := { s.map with pending := [p], queue := if n = 0 then [] else s.map.queue } }

theorem witness_mappingEnds :
    (settling 1).mapDone 0 = some { ctx := 0, n := 1, free := [44], nodes := [44], parties := [], deadline := 0 } ∧
    tgetD [] (settling 1).map.queue 0 = [(1, cmd1 .unmap 0x80000 1)] ∧
    does (.mappingCommandComplete 0) (settling 1) (fun t => (tget t.map.nodes 44).isNone && (t.tl (tlKey 3 0)).completed == 1) = true ∧
    ((settling 0).ctxDone 0).isSome = true ∧
    does (.contextFree 0) (settling 0) (fun t => (t.ctx 0).st == .free && (tget t.tru.keys 0).isNone) = true ∧
    (∀ q ∈ [63, 64], let h : HeldFault := { bid := 1, msg := ⟨[15, 0, 0, 0, 0, 0], 0, 2, 1⟩ }
      let s := (supervised solo q []).updChan 5 (fun c => { c with heldFaults := [h] })
      (s.chan 5).heldFaults = [h] ∧ s.stillBound 5 h = true ∧ (s.chan 5).queue.length = q ∧ (s.chan 5).waiters = [] ∧
      does (.heldFaultQueue 5) s (fun t => (t.chan 5).queue.length == 64 && ((t.chan 5).heldFaults == if q = 63 then [] else [h])) = true) := by
  decide +kernel

/-- A core that is asked for node 1, with a barge whose region uses it and without. -/
def asking1 (b : Barge) : State := { mk b with map := { (mk b).map with pending := [
  { ctx := 0, n := 1, free := [], nodes := [1], parties := [0], deadline := 4096 }] } }

theorem witness_shootdown : (∀ u ∈ [[], [1]], let b : Barge := { solo with used := u }
      let s := asking1 b
      s.asked 0 = [1] ∧ s.barge? 1 = some b ∧ b.core = 0 ∧ b.st = .resident ∧ tsorted s.barges 0 = true ∧ s.mem.leaseQ = [] ∧
      ((∃ j ∈ b.used, j ∈ s.asked 0) ↔ u = [1]) ∧ s.mayAck 0 = decide (u = []) ∧
      does (.shootdown 0) s (fun t => (t.barge 1).used == []) = true) ∧
    does (.shootdownAck 0) (asking1 solo) (fun t => t.map.pending.map (·.parties) == [[]]) = true := by decide +kernel

/-- Tenant 0 holds flight 0; barge 1 is READY at priority 7. -/
def wharfS : State := { mk { startBarge with st := .ready, pri := 7, run := none } with
  whf := { (mk solo).whf with cut := [(0, 1)], tenants := [(0, { target := 256, min := 1, max := 40, primax := 7, dies := 15 })] } }

theorem witness_WharfSteps :
    (wharfS.dieStopped 0 = false ∧ 7 ≤ 7 ∧ wharfS.pickAt 0 false 7 = some (1, 0) ∧ (wharfS.barge 1).gang = 0 ∧
     wharfS.together 1 = [1] ∧ wharfS.choosePlace 1 (wharfS.barge 1) (coresOf 0) = some 0 ∧
     does (.slotDispatch 0) wharfS (fun t => (t.barge 1).st == .resident && (t.barge 1).pc == 0x1000) = true) ∧
    (let s : State := { wharfS with cycle := 65536 }
     tgetD 65536 s.whf.nextWeir 3 ≤ s.cycle ∧ does (.weirPeriod 3) s (fun t => tgetD 65536 t.whf.nextWeir 3 == 131072) = true) ∧
    (let s : State := { wharfS with cycle := 65535, whf := { wharfS.whf with tenants := [] } }
     s.cycle < tgetD 65536 s.whf.nextWeir 0 ∧ s.urgent 0 = none) ∧
    (let m : Move := { flight := 159, src := none, dst := 0 }
     let s : State := { wharfS with whf := { wharfS.whf with moves := [m] } }
     s.joinable 159 = some m ∧ does (.flightJoin 159) s (fun t => tgetD 0 t.whf.cut 159 == 1 && t.whf.moves == []) = true) ∧
    (let s : State := { mk solo with cycle := 30000, whf := { (mk solo).whf with slotEn := true, slotLen := 10, slots := [(1, 0)] } }
     s.slotAt s.now = 1 ∧ s.whf.curSlot = 0 ∧ tsorted s.barges 0 = true ∧ s.barge? 1 = some solo ∧ solo.st = .resident ∧
     s.eligibleIn 0 (s.slotAt s.now) = false ∧ does .slotBoundary s (fun t => (t.barge 1).preempt && t.whf.curSlot == 1) = true) ∧
    wharfS.slotAt wharfS.now = wharfS.whf.curSlot := by decide +kernel

/-! ### The host edge, the security core and the links -/

/-- Queue interface 63 of port 1 is bound, its ring at 0x10000 of host memory, whose translations the port has. -/
def hostS (words : List Word) : State :=
  let s : State := { State.reset with
    hst := { State.reset.hst with queues := [(127, { bound := true, ring := 0x10000, logsize := 16, cpl := 0x20000, tail := 1 })]
                                  ats := [(atsKey 1 0 0x10000, 0x10), (atsKey 1 0 0x20000, 0x20)] } }
  s.hostWrite 1 0x10000 (words.flatMap (fun w => leBytes 8 w.toNat))

theorem witness_HostSteps :
    (let s := hostS []
     63 < 64 ∧ s.tru.verified = true ∧ (s.hq 127).bound = true ∧ (65535 : Word).toNat < 65536 ∧ 65536 ≤ (65536 : Word).toNat ∧
     s.hst.events = [] ∧ 4095 % 64 ≠ 0 ∧ (s.hq 126).bound = false ∧
     does (.notifyWrite 1 4032 8 65535) s (fun t => (t.hq 127).tail == 65535) = true) ∧
    (let h : HQueue := { bound := true, logsize := 4, tail := 15 }
     let s : State := { State.reset with hst := { State.reset.hst with queues := [(127, h)], ats := [(atsKey 1 0 0, 0)] } }
     16 ≤ (h.tail + 16 - h.head) % 16 + (14 + 16 - h.tail) % 16 ∧ ¬ 16 ≤ (h.tail + 16 - h.head) % 16 + (15 + 16 - h.tail) % 16 ∧
     s.stopped 127 = false ∧ s.edgeWaits 1 (s.entryAddr 127) 64 = false ∧
     (let u : State := { s with hst := { s.hst with stalls := [(0x101, 0)] } }
      u.edgeWaits 1 (u.entryAddr 127) 64 = true ∧
      u.turnOf 1 = some 63 ∧ u.readTurn 1 = none ∧
      does (.notifyWrite 1 4032 8 14) u (fun t => (t.hq 127).tail == 14 && (t.hq 127).lapped == 16) = true) ∧
     (let u : State := { s with hst := { s.hst with queues := [(126, { h with prio := 1 }), (127, { h with tail := 0, lapped := 16, prio := 2 })] } }
      u.turnOf 1 = some 63 ∧ u.readTurn 1 = some 63 ∧
      (let t := u.consume 127
       (t.tl (tlKey 4 127)).issued = 1 ∧ (t.hq 127).head = 1 ∧ (t.hq 127).lapped = 0 ∧ t.readTurn 1 = some 63)) ∧
     does (.notifyWrite 1 4032 8 14) s (fun t => (t.hq 127).tail == 14 && (t.hq 127).lapped == 16) = true) ∧
    (∀ e ∈ [(1, 0), (0x1003, 10), (0x203, 2)], let s := hostS [BitVec.ofNat 64 e.1]
      s.lineHead 127 = none ∧ s.readTurn 1 = some 63 ∧ packetKind (s.entryAt 127) = e.1 % 256 ∧
      (s.hq 127).check (s.entryAt 127) = e.2) ∧
    does (.order 1 63) (hostS [3]) (fun t => t.hst.packets.length == 1 && (t.hq 127).head == 1) = true := by decide +kernel

/-- Packet 1 of that queue has passed, and is done. -/
theorem witness_packetCompletion : let p : Packet := { qi := 127, n := 1, words := [1], passed := true }
    let q : HQueue := { bound := true, intr := 2047, intrEn := true, pasid := 5 }
    let s : State := { State.reset with
      hst := { State.reset.hst with
        packets := [p], queues := [(127, q)], remap := [(2048 + 2047, ⟨9, 5, true⟩)], irqs := [(127, 1)], ats := [(atsKey 1 5 0, 0)] }
      tls := [(tlKey 4 127, { issued := 1 })] }
    1 < 2 ∧ 63 < 64 ∧ 0 < 1 ∧ s.hst.packets.find? (fun p => p.qi == 127 && p.n == 1) = some p ∧ s.packetDone p = true ∧
    s.hst.events = [] ∧ (∀ e ∈ s.barges, e.2.leases = []) ∧ s.mem.leaseQ = [] ∧
    (let u : State := { s with mem := { s.mem with leaseQ := [.ownWrite 0 0 0xA00000000000 [1]] } }
     does (.packetCompletion 1 63 1) u (fun t => t.edgeBusy 1 && t.hst.irqs == [(127, 1)] && t.hst.interrupts == []) = true) ∧
    (s.hq 127).intrEn = true ∧ (tgetD {} s.hst.remap (1 * 2048 + (s.hq 127).intr)).en = true ∧
    does (.packetCompletion 1 63 1) s (fun t => t.hst.interrupts == [(1, 9)] && t.hst.packets == []) = true := by decide +kernel

/-- A confidential context (a queue interface in RUN names it) holds granule 0x80 of HBM. -/
def confS : State := { State.reset with
  hst := { State.reset.hst with queues := [(0, { bound := true, ctx := 7, tdi := .run })] }
  map := { State.reset.map with
    ctxs := [(0, State.reset.ctx 0), (7, { st := .live })]
    nodes := tset State.reset.map.nodes 44 { vgn := 0, ctx := 7, vcid := some 0, pgn := 0x80, count := 1, parent := 1 } } }

/-- The same machine with a copy of granule 0x1FFF (its last byte 0x7FFFF) in two cores' L1, alone in one and shared in the other. -/
def cachedS : State := { confS with mem := { confS.mem with l1 := [(0x1FFF, .m), (2 ^ 46 + 0x1FFF, .s)] } }

theorem witness_hostMemory : [(1 : Byte)] ≠ [] ∧ 0x7FFFF % 4096 + 1 ≤ 4096 ∧
    (let s := cachedS
     s.tru.verified = true ∧ 0x7FFFF + 1 ≤ 0xBFC0000000 ∧ s.confGranule 0x7F = false ∧ s.confGranule 0x80 = true ∧
     Machine.still s ∧ s.MemWf ∧ s.mem.leaseQ = [] ∧ (∀ g ∈ granules 0x7FFFF 1, s.granLeased g = false) ∧ s.hst.events = [] ∧
     s.homeStopped (s.vcAt 0x7FFFF) 0x7FFFF = false ∧ tsorted s.mem.l1 0 = true ∧ tgetD false s.hst.bias 7 = false ∧
     does (.hostMemoryAccess 0 true 0x7FFFF [1]) s (fun t => t.byteAt 0 0x7FFFF == 1 && t.mem.l1 == []) = true ∧
     does (.hostMemoryAccess 0 false 0x7FFFF [1]) s (fun t => t.mem.l1 == [(2 ^ 46 + 0x1FFF, .s)] && t.hst.reads == [(0, [0])]) = true ∧
     does (.hostMemoryAccess 0 false 0x80000 [0, 0]) s (fun t => t.hst.reads == [(0, [255, 255])]) = true) ∧
    (targetOf 0x800000000000 = some 0x100 ∧ targetOf 0x9FFFFFFFFFFF = some 0x100 ∧
      does (.hostMemoryAccess 0 true 0x800000000000 [7]) confS (fun t => t.drainAll.byteAt 3 0x800000000000 == 7) = true) ∧
    (let s := { mk leasing with mem := { (mk leasing).mem with l1 := [] } }
     s.granLeased (0x2000 / 64) = true ∧ 0x2000 % 64 + 1 ≤ 64 ∧ s.confGranule 2 = false ∧
     does (.hostMemoryAccess 1 true 0x2000 [1]) s (fun t => t.mem.leaseQ == [.hostWrite 1 0x2000 [1]]) = true) ∧
    (targetOf 0x800000000000 ≠ some 0x101 ∧ ¬ 0x800000000000 + 1 ≤ 0xBFC0000000) := by
  unfold Machine.still State.MemWf
  decide +kernel

theorem witness_hostEvents : 15 < 16 ∧ 1 < 2 ∧ tget State.reset.hst.expanders 15 = none ∧
    does (.expanderHotAdd 15 1) State.reset (fun t => tget t.hst.expanders 15 == some 1 && (tget t.map.nodes 27).isSome) = true ∧
    (∀ k ∈ [1, 2], let i : Injection := { target := 15, addr := 0x400000000000 + 15 * 2 ^ 40, kind := k, due := 1 }
      let s (c : Nat) : State := { State.reset with cycle := c, hst := { State.reset.hst with injections := [i] } }
      (s 0).hst.injections[0]? = some i ∧ (s 0).cycle < i.due ∧ i.due ≤ (s 1).cycle ∧ targetOf i.addr = some i.target ∧
      does (.injectionTakesEffect 0) (s 1) (fun t => t.hst.injections == [] && (t.poisonedAt 3 i.addr == decide (k = 1))) = true) ∧
    (let s : State := { State.reset with hst := { State.reset.hst with ats := [(atsKey 1 5 0x1000, 7), (atsKey 1 5 0x2000, 8)] } }
     does (.atsInvalidation 1 0x1000 4096) s (fun t => t.hst.ats == [(atsKey 1 5 0x2000, 8)] && t.hst.atsInv == [(1, 0x1000, 4096)]) =
       true) := by
  decide +kernel

/-- Packet 1 of queue interface 127 waits, with the words `w`. -/
def packetS (w : List Word) : State := { State.reset with
  hst := { State.reset.hst with queues := [(127, { bound := true, logsize := 16, cpl := 0x20000 })]
                                packets := [{ qi := 127, n := 1, words := w }]
                                ats := [(atsKey 1 0 0x20000, 0x20)] }
  tls := [(tlKey 4 127, { issued := 1 })] }
/-- What the statement supposes of it, for a packet of kind `k`. -/
def packetOk (k : Nat) (w : List Word) : Bool :=
  let s := packetS w
  (s.lineHead 127 == some { qi := 127, n := 1, words := w }) && s.mayPass { qi := 127, n := 1, words := w } && s.hst.irqs == [] &&
    s.barges.all (fun e => e.2.leases == []) && s.mem.leaseQ == [] && packetKind w == k
/-- The status that the packet's number completes with. -/
def packetSt (t : State) : Option Nat := (t.tl (tlKey 4 127)).ends.head?.map (·.code)

/-- RequestPackets: each packet at the edges of its operands, and the status that R359 gives. -/
theorem witness_RequestPackets :
    ([(3, [3]), (4, [4, 0xFFC0000000000000, 2 ^ 48 - 1, 1]), (101, [5, 1, 0x500FFF]), (102, [5, 2, 0]), (103, [5, 3, 0, 0, 2 ^ 45]),
      (104, [5, 4, 1, 62]), (105, [5, 5, 1, 63]), (106, [5, 6, 255, 3, 6400]), (107, [5, 7, 255, 0xF722010000]), (108, [5, 8, 63]),
      (109, [5, 9, 0, 1023]), (110, [5, 10, 65535, 4095]), (111, [5, 11, 0x20F]), (112, [5, 12, 12582911, 1, 1]),
      (113, [5, 13, 1, 2047]), (114, [5, 14, 1, 0, 65536]), (115, [5, 15, 0, 0, 3]), (116, [5, 16, 1, 15, 2, 7, 1]),
      (117, [5, 17, 15, 1])] : List (Nat × List Word)).all (fun e => packetOk e.1 e.2) = true ∧
    does (.order 1 63) (packetS [3]) (fun t => packetSt t == some 0) = true ∧
    does (.maint 1 63) (packetS [4, 0x1000000000000, 0, 0]) (fun t => packetSt t == some 2) = true ∧
    does (.ctxcreate 1 63) (packetS [5, 1, 0x500FFF]) (fun t =>
      packetSt t == some 0 && (t.ctx 4095).st == .live && (tget t.tru.keys 4095).isSome) = true ∧
    does (.ctxcreate 1 63) (packetS [5, 1, 0x600FFF]) (fun t => packetSt t == some 2) = true ∧
    does (.ctxdestroy 1 63) (packetS [5, 2, 0]) (fun t => packetSt t == some 2) = true ∧
    does (.bindq 1 63) (packetS [5, 3, 0, 0, 2 ^ 45]) (fun t => packetSt t == some 2) = true ∧
    does (.resetq 1 63) (packetS [5, 4, 1, 62]) (fun t => packetSt t == some 2) = true ∧
    does (.unbindq 1 63) (packetS [5, 5, 1, 63]) (fun t => packetSt t == some 0 && (t.hq 127).revoked) = true ∧
    does (.setlimit 1 63) (packetS [5, 6, 255, 3, 6400]) (fun t => packetSt t == some 0 && t.limitOf 255 3 == 6400) = true ∧
    does (.tenant 1 63) (packetS [5, 7, 255, 0xF729280000]) (fun t => packetSt t == some 2) = true ∧
    does (.slotset 1 63) (packetS [5, 8, 63, 1, 2, 3, 4]) (fun t => packetSt t == some 0 && (tget t.whf.slots 63).isSome) = true := by
  decide +kernel

theorem witness_adminPackets :
    does (.epset 1 63) (packetS [5, 9, 0, 1023]) (fun t => packetSt t == some 0 && (tgetD {} t.map.eps 1023).valid) = true ∧
    does (.epset 1 63) (packetS [5, 9, 0, 0]) (fun t => packetSt t == some 2) = true ∧
    does (.chown 1 63) (packetS [5, 10, 65535, 4095]) (fun t => packetSt t == some 0 && (t.chan 65535).owner == some 4095) = true ∧
    does (.unisolate 1 63) (packetS [5, 11, 0x20F]) (fun t => packetSt t == some 0) = true ∧
    does (.bias 1 63) (packetS [5, 12, 12582911, 1, 1]) (fun t => packetSt t == some 0 && tgetD false t.hst.bias 12582911) = true ∧
    does (.intrset 1 63) (packetS [5, 13, 1, 2047, 9, 0, 1]) (fun t => packetSt t == some 0 && (tgetD {} t.hst.remap 4095).en) = true ∧
    does (.evring 1 63) (packetS [5, 14, 1, 0, 65536]) (fun t => packetSt t == some 0 && (tget t.hst.events 1).isSome) = true ∧
    does (.evring 1 63) (packetS [5, 14, 1, 0, 131072]) (fun t => packetSt t == some 2) = true ∧
    does (.peerset 1 63) (packetS [5, 16, 1, 15, 2, 7, 1]) (fun t => packetSt t == some 0 && (tget t.map.nodes 43).isSome) = true ∧
    does (.exportOp 1 63) (packetS [5, 17, 15, 1]) (fun t => packetSt t == some 2) = true := by decide +kernel

/-- RequestPackets, what is turned away: a binding of an interface that is locked, or in ERROR already; a reset of one that is locked; a QCB
out of form; device memory ends before the last block; a reset of a queue that a TAIL has run round. -/
theorem witness_turnedAway :
    (∀ d ∈ [Tdi.locked, .run, .error], ∀ w ∈ [[5, 3, 0, 5, 0], [5, 5, 0, 5]],
      let p := packetS (w.map (BitVec.ofNat 64))
      let s : State := { p with hst := { p.hst with queues := (5, { bound := true, tdi := d }) :: p.hst.queues } }
      (s.hq 5).tdi = d ∧
      does (if w.length = 5 then .bindq 1 63 else .unbindq 1 63) s (fun t => packetSt t == some 2 && (t.hq 5).tdi == .error) = true) ∧
    (let p := packetS [5, 4, 0, 5]
     let s (q : HQueue) : State := { p with hst := { p.hst with queues := (5, q) :: p.hst.queues, ats := (atsKey 0 0 0, 0) :: p.hst.ats } }
     does (.resetq 1 63) (s { bound := true, tdi := .locked }) (fun t => packetSt t == some 2 && (t.hq 5).tdi == .locked) = true ∧
     does (.resetq 1 63) (s { bound := true, tail := 3, head := 1, lapped := 16 }) (fun t =>
       (t.hq 5).head == 3 && (t.hq 5).lapped == 0 && (t.tl (tlKey 4 5)).issued == 16) = true) ∧
    (let p := packetS [5, 3, 0, 5, 0x30000]
     let s (l : Nat) : State := { p with hst := { p.hst with ats := (atsKey 0 0 0x30000, 0x30) :: p.hst.ats } }.hostWrite 0 0x30008 [BitVec.ofNat 8 l]
     (∀ l ∈ [3, 17], does (.bindq 1 63) (s l) (fun t => packetSt t == some 2 && !(t.hq 5).bound) = true) ∧
     ∀ l ∈ [4, 16], does (.bindq 1 63) (s l) (fun t => packetSt t == some 0 && (t.hq 5).logsize == l) = true) ∧
    does (.bias 1 63) (packetS [5, 12, 12582911, 2, 1]) (fun t => packetSt t == some 2 && t.hst.bias == []) = true := by decide +kernel

/-- 21_host R354, R366: the record of a completion at port 1 is written though D2, whose views would hold it, has tripped. -/
theorem test_record_of_a_tripped_die : (let p := packetS [3]
    does (.order 1 63) { p with hst := { p.hst with tripped := [2] } } (fun t =>
      packetSt t == some 0 && t.bytesAt 2 0xA00000020010 12 == [1, 0, 0, 0, 0, 0, 0, 0, 0, 0, 0, 0] )) = true := by decide +kernel

/-- 21_host R361: each interface that has the remap entry frozen enters ERROR, and the packet is refused. -/
theorem test_intrset_frozen :
    (let s := packetS [5, 13, 1, 9, 9, 0, 1]
     let q (d : Tdi) : HQueue := { bound := true, intr := 9, tdi := d }
     does (.intrset 1 63) { s with hst := { s.hst with queues := [(64, q .locked), (65, q .run), (66, q .unlocked)] ++ s.hst.queues } }
       (fun t => packetSt t == some 2 && (t.hq 64).tdi == .error && (t.hq 65).tdi == .error && (t.hq 66).tdi == .unlocked)) = true := by
  decide +kernel

/-- Whether an image lets errors be injected, and whether an image passes its check, are free values: where they are so, the
clauses about them have a machine; a KIND of 3 is refused whatever they are. -/
theorem witness_freeChecks : (∀ b, Config.injectEnabled [] = b → Config.injectEnabled State.reset.tru.image = b) ∧
    packetOk 115 [5, 15, 15, 0, 1, 10] = true ∧ ¬ (3 = 1 ∨ 3 = 2) ∧
    (let s : State := { State.reset with tru := {} }
     s.tru.verified = false ∧ ∀ image, Config.imageOk image = true ∨ Config.imageOk image = false) :=
  ⟨fun _ h => h, by decide +kernel, by decide, rfl, fun image => by cases Config.imageOk image <;> simp⟩

/-- `MAINT` over virtual cache 5 with a dirty line that context 0 names: a flush and an invalidation; a `CTXDESTROY` of a live context
and a `RESETQ` of a queue interface that is bound. -/
def maintS (w : List Word) : State :=
  let s := packetS w
  let c := keeping .cflush [(5, vc5)]
  { s with com := { c.com with queue := [] }, mem := c.mem, map := c.map }

theorem witness_maintPackets :
    (∀ d ∈ [0, 1], let w : List Word := [4, 5 * 2 ^ 54 + 0x400000000000, 64, BitVec.ofNat 64 d]
      let s := maintS w
      tget s.com.vc 5 = some vc5 ∧ s.mem.wf = true ∧ s.rangeStatus 0 (w.getD 1 0).toNat 64 (d == 1) = 0 ∧
      does (.maint 1 63) s (fun t => packetSt t == some 0 && t.com.lines.length == 1 - d) = true) ∧
    (let s : State := { packetS [5, 2, 7] with map := { State.reset.map with ctxs := (7, { st := .live }) :: State.reset.map.ctxs } }
     7 ≠ 0 ∧ (s.ctx 7).st = .live ∧ s.barges = [] ∧ (∀ e ∈ s.map.nodes, e.2.ctx ≠ 7) ∧ s.map.tokens = [] ∧
     does (.ctxdestroy 1 63) s (fun t => packetSt t == none && (t.ctx 7).st == .dying && t.map.pending.length == 1) = true) ∧
    (let p := packetS [5, 4, 0, 3]
     let s : State := { p with hst := { p.hst with queues := (3, { bound := true, tail := 9 }) :: p.hst.queues } }
     (s.hq 3).tdi = .unlocked ∧ (∀ o ∈ s.hst.packets, o.qi ≠ 3) ∧
     does (.resetq 1 63) s (fun t => packetSt t == none && (t.hq 3).head == 9) = true) := by decide +kernel

/-- A record at 0x2000 of context 0, to resume at 0x1000, in its memory home. -/
def recordS (k : Nat) : State :=
  let s := packetS [BitVec.ofNat 64 k, 0x2000]
  { s with mem := { s.mem with view0 := [(0x2001, 0x10)], view1 := [(0x2001, 0x10)], view2 := [(0x2001, 0x10)], view3 := [(0x2001, 0x10)] } }

theorem witness_dispatchPacket : (recordS 1).lineHead 127 = some { qi := 127, n := 1, words := [1, 0x2000] } ∧
    ((recordS 1).create 0 false [0x2000] (some (127, 1))).1 = 0 ∧ ((recordS 1).recsAt 0 0x2000 1).map (fun r => r.pa) = [some 0x2000] ∧
    does (.dispatch 1 63) (recordS 1) (fun t => t.barges.map (fun e => (e.2.st, e.2.resume)) == [(.ready, 0x1000)]) = true ∧
    ((packetS [2, 0x2001]).create 0 true [0x2001] (some (127, 1))).1 ≠ 0 ∧
    does (.dispatchg 1 63) (packetS [2, 0x2001]) (fun t => packetSt t == some 2) = true := by decide +kernel

/-- TrustSteps: a module that holds an image and one that does not; queue interfaces in each state; both sides of a window. -/
theorem witness_TrustSteps : State.reset.tru.verified = true ∧
    (let s : State := { State.reset with tru := {} }
     s.tru.verified = false ∧ does .warmStart s (fun t => decide (t = s)) = true) ∧
    (∀ d ∈ [Tdi.unlocked, .locked, .run, .error],
      let s : State := { State.reset with hst := { State.reset.hst with queues := [(127, { bound := true, tdi := d })] } }
      (s.hq (1 * 64 + 63)).bound = true ∧ (s.hq 127).tdi = d ∧ (s.hq 127).ctx = 0 ∧
      does (.configLocked 1 63) s (fun t => (t.hq 127).tdi == if d = .unlocked then .locked else d) = true ∧
      does (.run 1 63) s (fun t => (t.hq 127).tdi == if d = .locked then .run else d) = true ∧
      does (.configUnlocked 1 63) s (fun t => (t.hq 127).tdi == .unlocked) = true ∧
      does (.error 1 63) s (fun t => (t.hq 127).tdi == .error) = true) ∧
    (let s := confS
     (s.hq 0).ctx ≠ 0 ∧ (s.ctx (s.hq 0).ctx).st = .live ∧ (∀ e ∈ s.barges, e.2.ctx ≠ 7)) ∧
    (let s : State := { State.reset with cycle := 300000000 }
     s.hst.nextWindow ≤ s.now ∧ does .counterWindow s (fun t => t.hst.nextWindow == 200000000) = true) ∧
    State.reset.now < State.reset.hst.nextWindow ∧ 6400000 ≤ 6400000 ∧ ¬ 6400000 ≤ 6399999 ∧
    does (.trip 3) State.reset (fun t => t.dieStopped 3) = true ∧
    does .coldStart (mk solo) (fun t => t.barges == [] && !t.tru.verified) = true := by decide +kernel

/-- TrustSteps: a measurement that a message asks for, and a queue interface whose context is measured when it is locked. -/
theorem witness_measurements : ([0, 0, 0, 1] : List Byte).getD 3 0 = 1 ∧
    (let s : State := { State.reset with
      hst := { State.reset.hst with queues := [(127, { bound := true, ctx := 7 })] }
      map := { State.reset.map with ctxs := (7, { st := .live, measured := true }) :: State.reset.map.ctxs }
      tru := { State.reset.tru with measures := [(7, [1])] } }
     127 < 128 ∧ (16 + 127 : Nat) = 143 ∧ (s.hq 127).tdi = .unlocked ∧ (s.ctx (s.hq 127).ctx).measured = true ∧
     tget s.tru.measures (s.hq 127).ctx = some [1] ∧
     does (.getMeasurements 0 [0, 0, 0, 143]) s (fun t => t.tru.mailbox.length == 1) = true) := by decide +kernel

/-- LinkSteps: links: one beyond the last, a flit in sequence at the wrap, one that is not, the ninth failure in a row, and a link that is the
last of a peer. -/
theorem witness_LinkFlits :
    (let s : State := { State.reset with lnk := { State.reset.lnk with expect := [(17, 4095)], replays := [(17, 8)] } }
     17 < 18 ∧ 17 ∉ s.lnk.down ∧ ((0x3FFC000000000000 : Word).extractLsb' 50 12).toNat = 4095 ∧ tgetD 0 s.lnk.replays 17 = 8 ∧
     does (.linkFlitReceive 17 true 0x3FFC000000000000) s (fun t => tgetD 0 t.lnk.expect 17 == 0 && t.lnk.replays == []) = true ∧
     does (.linkFlitReceive 17 false 0x3FFC000000000000) s (fun t => t.lnk.down == [17]) = true ∧
     does (.linkFlitReceive 17 false 0) s (fun t => t.lnk == s.lnk) = true ∧
     does (.linkFlitReceive 16 false 0) s (fun t => tgetD 0 t.lnk.replays 16 == 1) = true ∧
     does (.linkFlitReceive 18 false 0) s (fun t => t.lnk == s.lnk) = true) ∧
    (let s : State := { State.reset with lnk := { State.reset.lnk with peers := [(15, ⟨2, 2 ^ 17, true⟩)] } }
     ((s.lnk.peers.filter (fun e => e.2.en && e.2.mask == 2 ^ 17)).map (·.1)) = [15] ∧
     does (.linkDown 17 0) s (fun t => tgetD false t.slu.isolated 0x20F && t.lnk.down == [17]) = true) := by decide +kernel

/-- Requests in an export and past it, with a poisoned byte and with a notification; one that has been answered. -/
def exported : State := { State.reset with lnk := { State.reset.lnk with
  exports := [(15, { ctx := 0, base := 0x2000, size := 64, r := true, w := true, nchan := 5, badge := 0 })]
  answered := [(15 * 2 ^ 34 + 1, ([], 0))] }
                                           map := { State.reset.map with chans := [(5, { owner := some 0 })] } }

theorem witness_PeerRequests :
    (let s := exported
     s.lnk.inq = [] ∧ s.lnk.notices = [] ∧ Machine.still s ∧ s.barges = [] ∧ s.mem.leaseQ = [] ∧ s.MemWf ∧
     tget s.lnk.answered (15 * 2 ^ 34) = none ∧ tget s.lnk.answered (15 * 2 ^ 34 + 1) = some ([], 0) ∧ tget s.lnk.exports 14 = none ∧
     64 < 1 + 64 ∧ ¬ 64 < 63 + 1 ∧
     (s.exportPieces ⟨15, 0, false, 63, 1, [], none⟩).toOption.map (fun e => e.2) = some [⟨0, 0, 0x203F, 1, 0, 1, 0x203F⟩] ∧
     s.slHang ⟨0, 0, 0x203F, 1, 0, 1, 0x203F⟩ 0 = none ∧ s.homeStopped 0 0x203F = false ∧
     does (.linkRequest 15 0 true 63 1 [(9, false)] none) s (fun t => t.byteAt 3 0x203F == 9 && t.lnk.sent == [(15, 0, [], 0)]) = true ∧
     does (.linkRequest 15 0 true 63 1 [(9, true)] none) s (fun t => t.poisonedAt 3 0x203F && t.lnk.sent == [(15, 0, [], 5)]) = true ∧
     does (.linkRequest 15 0 true 63 1 [(9, false)] (some [1, 0, 3, 5, 5, 6])) s (fun t =>
       t.lnk.sent == [] && t.lnk.notices.map (fun n => n.msg.words.getD 3 0) == [5]) = true ∧
     does (.linkRequest 15 0 true 1 64 [] (some [1, 0, 3, 0, 5, 6])) s (fun t =>
       t.lnk.sent == [] && t.lnk.notices.map (fun n => n.msg.words.getD 3 0) == [3]) = true ∧
     (let u : State := { s with lnk := { s.lnk with wrote := [(15 * 2 ^ 40, 3)] } }
      Machine.noteCode u 15 63 [1, 0, 3, 0, 5, 6] 0 = 3 ∧ Machine.noteCode u 15 63 [1, 1, 3, 0, 5, 6] 0 = 0) ∧
     does (.linkRequest 15 0 false 63 1 [] none) s (fun t => t.lnk.sent == [(15, 0, [(0, false)], 0)]) = true ∧
     does (.linkRequest 15 0 false 1 64 [] none) s (fun t => t.lnk.sent == [(15, 0, [], 3)]) = true ∧
     does (.linkRequest 15 1 true 63 1 [(9, false)] none) s (fun t => t.lnk.sent == [(15, 1, [], 0)] && t.byteAt 3 0x203F == 0) = true) := by
  unfold Machine.still State.MemWf
  decide +kernel

/-- A peer that is isolated, over a link that it has for itself and over one with another peer: its requests come in over the second
only, which carries more than time flits. -/
theorem witness_carries : (let s (l : List (Nat × Peer)) : State :=
      { exported with slu := { exported.slu with isolated := [(0x20F, true)] }, lnk := { exported.lnk with peers := l } }
     (s [(15, ⟨2, 1, true⟩)]).carries 15 = false ∧ (s [(14, ⟨3, 1, true⟩), (15, ⟨2, 1, true⟩)]).carries 15 = true ∧
     exported.carries 15 = true ∧
     does (.linkRequest 15 0 true 63 1 [(9, false)] none) (s [(15, ⟨2, 1, true⟩)]) (fun t => decide (t = s [(15, ⟨2, 1, true⟩)])) = true ∧
     does (.linkRequest 15 0 true 63 1 [(9, false)] none) (s [(14, ⟨3, 1, true⟩), (15, ⟨2, 1, true⟩)]) (fun t =>
       t.byteAt 3 0x203F == 9) = true) := by decide +kernel

/-- A command that waits for peer 15, whose time is over, one before its time and one that has sent nothing yet. -/
theorem witness_PeerAnswers : (let sc : SCmd := { begun copyG with tout := 0, peer := some 15, sent := true }
    let s : State := { accepted sc with cycle := 3000 }
    s.findSc 0 0 1 = some sc ∧ sc.begun = true ∧ sc.sent = true ∧ sc.peer.isSome = true ∧ sc.resp = none ∧ s.hst.stalls = [] ∧
    s.peerLate 15 = true ∧ s.peerLate 14 = false ∧ s.slu.cmds = [(0, [sc])] ∧ 0 < sc.n ∧ sc.sentAt + 2 ^ sc.tout * 3000 ≤ s.cycle ∧
    tgetD false s.slu.isolated 0x20F = false ∧
    (∀ c ∈ [{ sc with sent := false }, { sc with sentAt := 1 }],
      let u : State := { s with slu := { s.slu with cmds := [(0, [c])] }, lnk := { s.lnk with peers := [(15, ⟨2, 1, true⟩)] } }
      (c.sent = false ∨ u.cycle < c.sentAt + 2 ^ c.tout * 3000) ∧ (tgetD {} u.lnk.peers 15).mask ≠ 0 ∧
      does (.peerTimeout 15 0) u (fun t => decide (t = u)) = true) ∧
    does (.linkResponse 0 0 1 [(1, true)] 5) s (fun t => (t.findSc 0 0 1).map (·.resp) == some (some ([(1, true)], 5))) = true) := by
  decide +kernel

end Sys2Proof.Tests
end

/-! ## Timelines: numbers, statuses and *completed* (01_engines R16) -/

section

open Sys2Proof Sys2Proof.Machine

namespace Sys2Proof.Machine

@[simp] theorem State.tl_setTl (s : State) (k : Nat) (t : Timeline) : (s.setTl k t).tl k = t := by
  simp [State.tl, tgetD]

theorem State.tl_setTl_other (s : State) {k j : Nat} (t : Timeline) (h : j ≠ k) : (s.setTl k t).tl j = s.tl j := by
  simp [State.tl, tgetD, tget_tset_other _ _ h]

theorem State.tl_finish (s : State) (k : Nat) {n : Nat} (code : Nat) (hn : n ≠ 0) :
    (s.finish k n code).tl k = (s.tl k).finish ⟨n, code, 0, 0⟩ := by
  simp [State.finish, hn]

/-- A finished number stays below `completed`, or ahead of it, as `completed` is raised. -/
theorem advance_keeps {x : Nat} (f c : Nat) (l : List Nat) (hx : x ≤ c ∨ x ∈ l) :
    x ≤ (advance f c l).1 ∨ x ∈ (advance f c l).2 := by
  induction f generalizing c l with
  | zero => exact hx
  | succ f ih =>
    unfold advance
    split
    · refine ih _ _ ?_
      by_cases hc : x ≤ c + 1
      · exact .inl hc
      · have hl : x ∈ l := hx.resolve_left (by omega)
        exact .inr ((List.mem_erase_of_ne (by omega)).2 hl)
    · exact hx

theorem le_advance (f c : Nat) (l : List Nat) : c ≤ (advance f c l).1 := by
  induction f generalizing c l with
  | zero => exact Nat.le_refl c
  | succ f ih =>
    unfold advance
    split
    · exact Nat.le_trans (Nat.le_succ c) (ih _ _)
    · exact Nat.le_refl c

@[simp] theorem Timeline.finish_issued (t : Timeline) (e : Ended) : (t.finish e).issued = t.issued := rfl

theorem Timeline.finished_iff (t : Timeline) (n : Nat) : t.finished n = true ↔ n ≤ t.completed ∨ n ∈ t.ahead := by
  simp [Timeline.finished]

theorem Timeline.finished_finish (t : Timeline) (e : Ended) : (t.finish e).finished e.n = true :=
  (Timeline.finished_iff _ _).2 (advance_keeps (e.n :: t.ahead).length t.completed (e.n :: t.ahead) (.inr (List.mem_cons_self ..)))

/-- The number next behind `completed` takes `completed` up to itself at least. -/
theorem Timeline.le_completed_finish {t : Timeline} {e : Ended} (h : e.n = t.completed + 1) : e.n ≤ (t.finish e).completed := by
  have hc : (e.n :: t.ahead).contains (t.completed + 1) = true := by simp [h]
  have hs : (t.finish e).completed = (advance t.ahead.length (t.completed + 1) ((e.n :: t.ahead).erase (t.completed + 1))).1 := by
    simp only [Timeline.finish, List.length_cons, advance, hc, if_true]
  rw [hs, h]
  exact le_advance ..

/-- A number that finishes ahead of its turn, the first to do so, leaves `completed` alone. -/
theorem Timeline.completed_finish_ahead {t : Timeline} {e : Ended} (h : e.n ≠ t.completed + 1) (ha : t.ahead = []) :
    (t.finish e).completed = t.completed := by
  simp [Timeline.finish, ha, advance, Ne.symm h]

theorem Timeline.status_finish {t : Timeline} {e : Ended} (h0 : 0 < e.n) (hi : e.n ≤ t.issued) : (t.finish e).status e.n = e := by
  have hg : ¬ (e.n = 0 ∨ t.issued < e.n) := by omega
  simp [Timeline.status, hg, Timeline.finish]

theorem Timeline.status_unissued {t : Timeline} {n : Nat} (h : t.issued < n) : (t.status n).code = 15 := by
  simp [Timeline.status, h]

theorem Timeline.status_unfinished {t : Timeline} {n : Nat} (h0 : 0 < n) (hi : n ≤ t.issued) (hf : t.finished n = false)
    (he : ∀ e ∈ t.ends, e.n ≠ n) : (t.status n).code = 14 := by
  have hg : ¬ (n = 0 ∨ t.issued < n) := by omega
  have hfind : t.ends.find? (fun e => e.n == n) = none := by simpa using he
  simp [Timeline.status, hg, hfind, hf]

end Sys2Proof.Machine

/-- Settles O37, field by field of the timeline that a reservation and a finish leave. -/
theorem timelineNumbers : Obligations.TimelineNumbers := by
  intro s k ctx n code
  refine ⟨rfl, by simp [State.reserve], by simp [State.reserve, Timeline.latestOf, tgetD], by simp [State.reserve],
    fun j hj => State.tl_setTl_other s _ hj, rfl, rfl, Timeline.status_unissued, Timeline.status_unfinished, fun h0 hi => ?_⟩
  dsimp only
  rw [State.tl_finish s k code (by omega)]
  exact ⟨by rw [Timeline.status_finish h0 hi], rfl, Timeline.finished_finish _ _,
    fun h => Timeline.le_completed_finish (e := ⟨n, code, 0, 0⟩) h, Timeline.completed_finish_ahead (e := ⟨n, code, 0, 0⟩)⟩

end

/-! ## Caches and requests: what they leave unchanged -/

section

open Sys2Proof Sys2Proof.Machine

namespace Sys2Proof.Machine

/-- `t` is `s` but for what the caches hold, which changes time only (16_composer R263). -/
def CachesOnly (s t : State) : Prop :=
  ∃ l1 use lines, t = { s with mem := { s.mem with l1 := l1, l1use := use }, com := { s.com with lines := lines } }

theorem CachesOnly.refl (s : State) : CachesOnly s s := ⟨_, _, _, rfl⟩

theorem CachesOnly.trans {s t u : State} : CachesOnly s t → CachesOnly t u → CachesOnly s u := by
  rintro ⟨_, _, _, rfl⟩ ⟨_, _, _, rfl⟩
  exact ⟨_, _, _, rfl⟩

theorem CachesOnly.barges {s t : State} : CachesOnly s t → t.barges = s.barges := by
  rintro ⟨_, _, _, rfl⟩; rfl

theorem CachesOnly.setL1 (s : State) (t : Tab L1St) : CachesOnly s (s.setL1 t) := ⟨_, _, _, rfl⟩
theorem CachesOnly.setLines (s : State) (t : Tab Line) : CachesOnly s (s.setLines t) := ⟨_, _, _, rfl⟩

theorem CachesOnly.foldl {α : Type} {f : State → α → State} (h : ∀ s a, CachesOnly s (f s a)) (l : List α) (s : State) :
    CachesOnly s (l.foldl f s) :=
  foldl_keeps (P := CachesOnly s) (fun t a ht => ht.trans (h t a)) l (CachesOnly.refl s)

theorem State.seatLine_cachesOnly (s : State) (vcid : Nat) (v : VCache) (key : Nat) (l : Line) :
    CachesOnly s (s.seatLine vcid v key l) := by
  unfold State.seatLine
  split <;> exact CachesOnly.setLines _ _

theorem State.touchLine_cachesOnly (s : State) (vcid pa : Nat) (wr strm force : Bool) :
    CachesOnly s (s.touchLine vcid pa wr strm force) := by
  unfold State.touchLine
  split
  · exact CachesOnly.refl s
  · dsimp only
    split
    · exact CachesOnly.refl s
    · split
      · split
        · exact State.seatLine_cachesOnly ..
        · exact CachesOnly.setLines _ _
      · split
        · exact CachesOnly.refl s
        · exact State.seatLine_cachesOnly ..

theorem State.giveBack_cachesOnly (s : State) (p : Nat → Bool) : CachesOnly s (s.giveBack p) := by
  refine CachesOnly.foldl (fun s e => ?_) _ s
  split
  · exact CachesOnly.refl s
  · exact State.touchLine_cachesOnly ..

theorem State.useL1_cachesOnly (s : State) (core g : Nat) : CachesOnly s (s.useL1 core g) := by
  unfold State.useL1
  dsimp only
  split
  · exact ⟨_, _, _, rfl⟩
  · split
    · exact ⟨_, _, _, rfl⟩
    · split
      · exact CachesOnly.refl s
      · exact (State.giveBack_cachesOnly s _).trans ⟨_, _, _, rfl⟩

theorem State.touchRead_cachesOnly (s : State) (vc pa n : Nat) : CachesOnly s (s.touchRead vc pa n) := by
  unfold State.touchRead
  split
  · exact CachesOnly.refl s
  · exact CachesOnly.foldl (fun s g => State.touchLine_cachesOnly s ..) _ s

theorem State.touchWrite_cachesOnly (s : State) (vc pa n : Nat) (strm : Bool) : CachesOnly s (s.touchWrite vc pa n strm) := by
  have hd (t : Tab L1St) :=
    (State.giveBack_cachesOnly s (fun k => (granules pa n).contains (k % 2 ^ 46))).trans (CachesOnly.setL1 _ t)
  unfold State.touchWrite
  dsimp only
  split
  · exact hd _
  · exact (hd _).trans (CachesOnly.foldl (fun s g => State.touchLine_cachesOnly s ..) _ _)

theorem State.touchStore_cachesOnly (s : State) (core vc pa n : Nat) (spc : Space) :
    CachesOnly s (s.touchStore core vc pa n spc) := by
  unfold State.touchStore
  split
  · refine CachesOnly.foldl (fun s g => ?_) _ s
    dsimp only
    have hu (t : Tab L1St) := (CachesOnly.setL1 s t).trans (State.useL1_cachesOnly _ core g)
    split
    · exact hu _
    · exact (hu _).trans (State.touchLine_cachesOnly ..)
  · exact State.touchWrite_cachesOnly ..

/-! ### Serving a request changes no barge -/

@[simp] theorem State.touchWrite_barges (s : State) (vc pa n : Nat) (strm : Bool) :
    (s.touchWrite vc pa n strm).barges = s.barges := (State.touchWrite_cachesOnly ..).barges
@[simp] theorem State.touchRead_barges (s : State) (vc pa n : Nat) : (s.touchRead vc pa n).barges = s.barges :=
  (State.touchRead_cachesOnly ..).barges
@[simp] theorem State.touchStore_barges (s : State) (core vc pa n : Nat) (spc : Space) :
    (s.touchStore core vc pa n spc).barges = s.barges := (State.touchStore_cachesOnly ..).barges
@[simp] theorem State.giveBack_barges (s : State) (p : Nat → Bool) : (s.giveBack p).barges = s.barges :=
  (State.giveBack_cachesOnly ..).barges
@[simp] theorem State.seatLine_barges (s : State) (vcid : Nat) (v : VCache) (key : Nat) (l : Line) :
    (s.seatLine vcid v key l).barges = s.barges := (State.seatLine_cachesOnly ..).barges
@[simp] theorem State.putMem_barges (s : State) (pa : Nat) (bs : List Byte) : (s.putMem pa bs).barges = s.barges := rfl
@[simp] theorem State.sendWords_barges (s : State) (core vc pa : Nat) (bs : List Byte) :
    (s.sendWords core vc pa bs).barges = s.barges := rfl
@[simp] theorem State.discard_barges (s : State) (pa : Nat) : (s.discard pa).barges = s.barges := by
  unfold State.discard; split <;> rfl

@[simp] theorem State.writeMem_barges (s : State) (vc pa : Nat) (bs : List Byte) : (s.writeMem vc pa bs).barges = s.barges := by
  unfold State.writeMem; split <;> simp

@[simp] theorem State.hostPut_barges (s : State) (pa : Nat) (bs : List Byte) : (s.hostPut pa bs).barges = s.barges := by
  simp only [State.hostPut]; split <;> simp

@[simp] theorem State.hostGet_barges (s : State) (port pa n : Nat) : (s.hostGet port pa n).barges = s.barges := by
  simp only [State.hostGet]; split <;> simp

@[simp] theorem State.mergeMem_barges (s : State) (core vc pa : Nat) (bs : List Byte) :
    (s.mergeMem core vc pa bs).barges = s.barges := by
  unfold State.mergeMem
  split
  · simp
  · split <;> simp

@[simp] theorem State.lastAt_barges (s : State) (core vc pa n : Nat) : (s.lastAt core vc pa n).1.barges = s.barges := rfl

@[simp] theorem State.mergeNow_barges (s : State) (core : Nat) (e : Effect) : (s.mergeNow core e).barges = s.barges := by
  unfold State.mergeNow; split <;> simp

@[simp] theorem State.effectNow_barges (s : State) (core : Nat) (e : Effect) : (s.effectNow core e).barges = s.barges := by
  unfold State.effectNow
  split
  · refine foldl_keeps (P := fun t : State => t.barges = s.barges) (fun t p h => ?_) _ rfl
    split
    · simp [h]
    · split <;> simp [h]
  · simp

@[simp] theorem State.probed_barges (s : State) (vcid g : Nat) : (s.probed vcid g).barges = s.barges := by
  unfold State.probed
  split
  · rfl
  · split
    · split <;> simp [State.shiftLine]
    · rfl

theorem State.serveReq_barges (s : State) (r : LeaseReq) : (s.serveReq r).barges = s.barges := by
  cases r with
  | inval core g drop =>
    simp only [State.serveReq]
    split
    · simp
    · split <;> simp
  | wait | hostWrite | hostRead | ownWrite | store | effect | probe => simp [State.serveReq]

theorem serveList_barges (q kept : List LeaseReq) (s : State) : (serveList s kept q).barges = s.barges := by
  induction q generalizing s kept with
  | nil => rfl
  | cons r rest ih =>
    unfold serveList
    split
    · exact ih ..
    · rw [ih, State.serveReq_barges]

@[simp] theorem State.leaveQueue_barges (s : State) (k : Nat) : (s.leaveQueue k).barges = s.barges := by
  have hu : (s.unqueue k).barges = s.barges := by unfold State.unqueue; split <;> rfl
  unfold State.leaveQueue State.serveLeaseQ
  split
  · exact hu
  · rw [serveList_barges, hu]

@[simp] theorem State.barge?_leaveQueue (s : State) (k j : Nat) : (s.leaveQueue k).barge? j = s.barge? j := by
  simp [State.barge?]

/-! ## A commit -/

/-- Step 1 is as far as step 2 asks: no wharf command is late, and no effect on a granule that the barge holds leased. -/
theorem Barge.released_iff (b : Barge) : b.released = true ↔ ∀ e ∈ b.late,
    (∀ t n k, e = Effect.cmd t n k → k.op.isWharf = false) ∧ ∀ l ∈ b.leases, l.granule ∉ e.global := by
  unfold Barge.released
  rw [List.all_eq_true]
  refine forall₂_congr fun e _ => ?_
  rw [Bool.and_eq_true]
  refine and_congr ?_ ?_
  · cases e <;> simp
  · simp only [Bool.not_eq_true', List.any_eq_false, List.any_eq_true, beq_iff_eq, not_exists, not_and]
    exact ⟨fun h l hl hg => h _ hg l hl rfl, fun h g hg l hl e => h l hl (e ▸ hg)⟩

@[simp] theorem Barge.recordCommit_late (b : Barge) (n : Nat) : (b.recordCommit n).late = b.late := rfl

/-- A commit whose record is not written yet seals the barge with its resume address. -/
theorem Barge.sealed_of {b : Barge} {c : Committing} (hc : b.commit = some c) (hr : c.recorded = false) :
    b.sealed = { b.recordCommit c.resume with commit := some { c with recorded := true } } := by
  simp [Barge.sealed, hc, hr]

/-- Memory as the leases `ls` end: what has been written to their granules is in every view (09_core_ordering R182). -/
def MemSt.settleAll (m : MemSt) (ls : List Lease) : MemSt := ls.foldl (fun m l => m.settle allDies (64 * l.granule) 64) m

@[simp] theorem MemSt.settleAll_nil (m : MemSt) : m.settleAll [] = m := rfl
@[simp] theorem MemSt.settleAll_cons (m : MemSt) (l : Lease) (ls : List Lease) :
    m.settleAll (l :: ls) = (m.settle allDies (64 * l.granule) 64).settleAll ls := rfl

/-- The leases of barge `b` end, and it becomes `f b`. -/
theorem State.endLeases_of {s : State} {k : Nat} {b : Barge} (h : s.barge? k = some b) (f : Barge → Barge) :
    s.endLeases k f = ((s.setMem (s.mem.settleAll b.leases)).setB k (f b)).leaveQueue k := by
  have hm (m : MemSt) : (s.setMem m).barge? k = some b := h
  simp only [State.endLeases, State.barge_of h, State.updB_some (hm _), MemSt.settleAll]

@[simp] theorem State.barge?_endLeases {s : State} {k : Nat} {b : Barge} (h : s.barge? k = some b) (f : Barge → Barge) :
    (s.endLeases k f).barge? k = some (f b) := by
  rw [State.endLeases_of h]; simp

theorem State.endLeases_sealed {s : State} {k : Nat} {b : Barge} {c : Committing} (h : s.barge? k = some b)
    (hc : b.commit = some c) (hr : c.recorded = false) : s.endLeases k Barge.sealed =
      s.endLeases k (fun e => { e.recordCommit c.resume with commit := some { c with recorded := true } }) := by
  rw [State.endLeases_of h, State.endLeases_of h, Barge.sealed_of hc hr]

/-- A commit of which an effect is late goes no further than the record (08_core_memory R164). -/
theorem State.goCommit_late {s : State} {k : Nat} {b : Barge} {c : Committing} (h : s.barge? k = some b) (hc : b.commit = some c)
    (hl : b.late ≠ []) :
    s.goCommit k = if c.recorded = false ∧ b.released = true then
      s.endLeases k (fun e => { e.recordCommit c.resume with commit := some { c with recorded := true } }) else s := by
  have he : b.late.isEmpty = false := by simpa using hl
  by_cases hr : c.recorded = false ∧ b.released = true
  · simp [State.goCommit, State.barge_of h, hc, hr, State.endLeases_sealed h hc hr.1,
      State.barge_of (State.barge?_endLeases h _), he]
  · have hn : (!c.recorded && b.released) = false := by simpa using hr
    simp [State.goCommit, State.barge_of h, hc, hn, hr, he]

/-- A commit that is recorded and of which nothing is late any more: what follows it takes place. -/
theorem State.goCommit_follow {s : State} {k : Nat} {b : Barge} {c : Committing} (h : s.barge? k = some b)
    (hc : b.commit = some c) (hl : b.late = []) (hr : c.recorded = true) :
    s.goCommit k = (s.setB k { b with commit := none }).follow k c.follow := by
  simp [State.goCommit, State.barge_of h, hc, hl, hr, State.updB_some h]

/-- A commit of which nothing is late: the record is written, the leases end, and what follows takes place. -/
theorem State.goCommit_whole {s : State} {k : Nat} {b : Barge} {n : Nat} {f : Follow} (h : s.barge? k = some b)
    (hc : b.commit = some ⟨n, f, false⟩) (hl : b.late = []) :
    s.goCommit k = ((s.endLeases k (fun e => { e.recordCommit n with commit := some ⟨n, f, true⟩ })).updB k
      (fun e => { e with commit := none })).follow k f := by
  have hrel : b.released = true := by simp [Barge.released, hl]
  simp [State.goCommit, State.barge_of h, hc, hrel, State.endLeases_sealed h hc rfl,
    State.barge_of (State.barge?_endLeases h _), hl]

/-- The barge whose commit with the resume address `n`, which `f` follows, has begun: nothing is released yet (01_engines R13). -/
def Barge.committing (b : Barge) (n : Nat) (f : Follow) : Barge := { b with
  eff := [], used := [], run := none, frame := none, unanswered := none, late := b.late ++ b.eff, commit := some ⟨n, f, false⟩ }

theorem State.commitRegion_of {s : State} {k : Nat} {b : Barge} (h : s.barge? k = some b) (n : Nat) (f : Follow) :
    s.commitRegion k n f = (s.setB k (b.committing n f)).goLate k := by
  simp [State.commitRegion, h, Barge.committing]

theorem Barge.recordCommit_committing {b : Barge} (he : b.eff = []) (hl : b.late = []) (n : Nat) (f : Follow) :
    (b.committing n f).recordCommit n = { Machine.committed b n with commit := some ⟨n, f, false⟩ } := by
  simp only [Barge.recordCommit, Barge.committing, Machine.committed, he, hl]
  rfl

/-- The commit of a region that has buffered nothing. -/
theorem State.commitRegion_nothing {s : State} {b : Barge} (h : s.barge? s.cur = some b) (he : b.eff = []) (hl : b.late = [])
    (n : Nat) (f : Follow) : s.commitRegion s.cur n f = (Machine.commits b n f s).follow s.cur f := by
  have hlate : (b.committing n f).late = [] := by simp [Barge.committing, he, hl]
  have hm (m : MemSt) (c : Barge) : ((s.setB s.cur (b.committing n f)).setMem m).setB s.cur c = (s.setMem m).setB s.cur c :=
    State.setB_setB (s.setMem m) s.cur (b.committing n f) c
  rw [State.commitRegion_of h, State.goLate, State.barge_setB, hlate, performAll_nil,
    State.goCommit_whole (State.barge?_setB ..) rfl hlate, State.endLeases_of (State.barge?_setB ..), hm,
    Barge.recordCommit_committing he hl]
  rfl

/-! ## A commit point alone in its run -/

/-- The address that the record takes at a commit point at address `a` (01_engines R13, 10_core_faults R192). -/
def Commit.resumeAt (a : Nat) : Commit → Nat
  | .bkpt => a
  | _ => a + 4

/-- What follows a commit point of a run that has raised no flag, issued in `site`. -/
def Commit.follows (r : Run) (site : Nat × Nat) : Commit → Follow
  | .plain => .goOn none
  | .held op => .hold r.at op none site
  | .yield => .yield none
  | .end_ => .end_
  | .trap code p q => .goOn (some { cls := 0x0F, pc := r.here.pc, s3 := BitVec.ofNat 64 code, s5 := p, s6 := q, after := true })
  | .bkpt => .goOn (some { cls := 0x10, pc := r.here.pc, after := true })

/-- A run that has raised no flag and has no result ends in a commit point: the region commits. -/
theorem endRun_commit_quiet {s : State} {k : Nat} {b : Barge} {r : Run} (h : s.barge? k = some b) (hi : r.items = [])
    (hr : r.raised = 0) (c : Commit) :
    s.endRun k r (.commit c) = s.commitRegion k (c.resumeAt r.here.pc) (c.follows r (b.core, b.slot)) := by
  have hb : s.setB k b = s := by simp [State.setB, tset_self h]
  cases c <;>
    simp [State.endRun, State.barge_of h, hi, hr, State.putItems, State.updB_some h, hb, Commit.resumeAt, Commit.follows]

/-- A commit point alone in its run. -/
theorem leave_commit_alone {s : State} {b : Barge} {r : Run} (h : Alone s b r) (c : Commit) :
    s.leave s.cur true (.fin [] (.commit c)) =
      s.doing b (fun s => s.commitRegion s.cur (c.resumeAt r.here.pc) (c.follows r (b.core, b.slot))) := by
  obtain ⟨hi, hitems, hraised, _, _⟩ := h
  have hb : (s.issued b).barge? s.cur = some b := hi.1
  simp only [State.leave, hi.1, hi.2.2, List.append_nil, State.doing]
  rw [endRun_commit_quiet hb hitems hraised]
  rfl

/-- A commit point alone in its run, of a region that has buffered nothing. -/
theorem leave_commit_nothing {s : State} {b : Barge} {r : Run} (h : Alone s b r) (he : b.eff = []) (hl : b.late = []) (c : Commit) :
    s.leave s.cur true (.fin [] (.commit c)) =
      s.doing b (fun s => (Machine.commits b (c.resumeAt r.here.pc) (c.follows r (b.core, b.slot)) s).follow s.cur
        (c.follows r (b.core, b.slot))) := by
  have hb : (s.issued b).barge? (s.issued b).cur = some b := h.1.1
  rw [leave_commit_alone h, State.doing, State.doing, State.commitRegion_nothing hb he hl]

/-- The commit points without an effect of their own on memory, each by what follows its commit. -/
theorem commitsOfNothing : Machine.CommitsOfNothing := by
  intro s b r h he hl p q code
  have key (c : Commit) := leave_commit_nothing h he hl c
  refine ⟨?_, ?_, ?_, ?_, ?_⟩
  · rw [exec_ckpt, execCkpt, issue_of h.1, key]; rfl
  · rw [exec_lrel, execLrel, issue_of h.1, key]; rfl
  · rw [exec_trap, execTrap, issue_of h.1, key]; rfl
  · rw [exec_bkpt, execBkpt, issue_of h.1, key]; rfl
  · rw [exec_endOp, execEndOp, issue_of h.1, key]; rfl

/-- The stages of a commit, each an equation of the functions that perform it. -/
theorem commitsInStages : Machine.CommitsInStages := by
  intro s k b h
  refine ⟨fun n f => State.commitRegion_of h n f, fun e l => ?_, fun c hc => ⟨fun hl hw => ?_, fun hl hr hw => ?_, fun hl hr => ?_⟩⟩
  · rw [performAll, State.barge_of h, State.updB_some h]
  · rw [State.goCommit_late h hc hl, if_neg]
    rintro ⟨hr, hrel⟩
    obtain hr' | ⟨e, he, hw⟩ := hw
    · simp [hr] at hr'
    · obtain ⟨hwharf, hgran⟩ := b.released_iff.1 hrel e he
      obtain ⟨t, n, k, rfl, hk⟩ | ⟨l, hl, hg⟩ := hw
      · simp [hwharf t n k rfl] at hk
      · exact hgran l hl hg
  · rw [State.goCommit_late h hc hl, if_pos ⟨hr, b.released_iff.2 hw⟩]
  · exact State.goCommit_follow h hc hl hr

end Sys2Proof.Machine

/-- Settles O26, by the equations of a commit that has nothing to release and of the stages of any commit. -/
theorem plainCommitPoints : Obligations.PlainCommitPoints := ⟨commitsOfNothing, commitsInStages⟩

end

/-! ## Writes that a store sends on their way -/

section

open Sys2Proof Sys2Proof.Machine

namespace Sys2Proof.Machine

/-! ### Bytes cut into consecutive pieces -/

/-- `ps` is the bytes `bs` from address `pa`, cut into consecutive pieces, none of them empty. -/
inductive Cut : Nat → List Byte → List (Nat × List Byte) → Prop
  | nil (pa : Nat) : Cut pa [] []
  | cons {pa : Nat} {c r : List Byte} {ps : List (Nat × List Byte)} (hc : c ≠ []) (h : Cut (pa + c.length) r ps) :
      Cut pa (c ++ r) ((pa, c) :: ps)

theorem Cut.append {pa : Nat} {bs cs : List Byte} {ps qs : List (Nat × List Byte)} (h : Cut pa bs ps)
    (h' : Cut (pa + bs.length) cs qs) : Cut pa (bs ++ cs) (ps ++ qs) := by
  induction h with
  | nil pa => simpa using h'
  | cons hc _ ih =>
    rw [List.append_assoc]
    exact .cons hc (ih (by simpa [Nat.add_assoc] using h'))

/-- Pieces cut again. -/
theorem Cut.flatMap {pa : Nat} {bs : List Byte} {ps : List (Nat × List Byte)} (h : Cut pa bs ps)
    {g : Nat × List Byte → List (Nat × List Byte)} (hg : ∀ e, Cut e.1 e.2 (g e)) : Cut pa bs (ps.flatMap g) := by
  induction h with
  | nil pa => exact .nil pa
  | cons _ _ ih => exact (hg (_, _)).append ih

@[simp] theorem cutAt_nil (z f pa : Nat) : cutAt z f pa [] = [] := by
  cases f <;> simp [cutAt]

theorem cut_cutAt {z : Nat} (hz : 0 < z) {f pa : Nat} {bs : List Byte} (hf : bs.length < f) : Cut pa bs (cutAt z f pa bs) := by
  induction f generalizing pa bs with
  | zero => omega
  | succ f ih =>
    unfold cutAt
    by_cases hb : bs = []
    · simpa [hb] using Cut.nil pa
    · have hlen : 0 < bs.length := List.length_pos_iff.2 hb
      have hk : 0 < z - pa % z := Nat.sub_pos_of_lt (Nat.mod_lt _ hz)
      have hpos : 0 < (bs.take (z - pa % z)).length := by rw [List.length_take]; omega
      have ht : bs.take (z - pa % z) ≠ [] := List.length_pos_iff.1 hpos
      have hrest : Cut (pa + (bs.take (z - pa % z)).length) (bs.drop (z - pa % z))
          (cutAt z f (pa + (z - pa % z)) (bs.drop (z - pa % z))) := by
        by_cases hle : z - pa % z ≤ bs.length
        · rw [List.length_take_of_le hle]
          exact ih (by rw [List.length_drop]; omega)
        · rw [List.drop_eq_nil_of_le (by omega), cutAt_nil]
          exact .nil _
      simpa [hb] using Cut.cons ht hrest

/-- The words of a store's granules (09_core_ordering R174, R182). -/
def storeWords (pa : Nat) (bs : List Byte) : List (Nat × List Byte) := (cutGrans pa bs).flatMap (fun e => cutWords e.1 e.2)

theorem cut_cutGrans (pa : Nat) (bs : List Byte) : Cut pa bs (cutGrans pa bs) := cut_cutAt (by omega) (by omega)
theorem cut_storeWords (pa : Nat) (bs : List Byte) : Cut pa bs (storeWords pa bs) :=
  (cut_cutGrans pa bs).flatMap (fun _ => cut_cutAt (by omega) (by omega))

/-- A piece is not empty and lies within the range. -/
theorem Cut.within {pa : Nat} {bs : List Byte} {ps : List (Nat × List Byte)} (h : Cut pa bs ps) :
    ∀ e ∈ ps, 0 < e.2.length ∧ pa ≤ e.1 ∧ e.1 + e.2.length ≤ pa + bs.length := by
  induction h with
  | nil => simp
  | cons hc _ ih =>
    have hpos := List.length_pos_iff.2 hc
    simp only [List.mem_cons, forall_eq_or_imp, List.length_append]
    refine ⟨⟨hpos, by omega, by omega⟩, fun e he => ?_⟩
    have := ih e he
    omega

/-- Each piece lies below those behind it. -/
theorem Cut.rising {pa : Nat} {bs : List Byte} {ps : List (Nat × List Byte)} (h : Cut pa bs ps) :
    ps.Pairwise (fun e f => e.1 + e.2.length ≤ f.1) := by
  induction h with
  | nil => exact .nil
  | cons _ h ih => exact .cons (fun e he => (h.within e he).2.1) ih

/-! ### Bytes laid over a byte -/

/-- The byte at `a`, `x` at first, once the pieces `ps` are laid one after the other. -/
def laid (ps : List (Nat × List Byte)) (a : Nat) (x : Byte) : Byte :=
  ps.foldl (fun x e => Machine.over e.1 e.2 (fun _ => x) a) x

@[simp] theorem laid_nil (a : Nat) (x : Byte) : laid [] a x = x := rfl
@[simp] theorem laid_cons (e : Nat × List Byte) (ps : List (Nat × List Byte)) (a : Nat) (x : Byte) :
    laid (e :: ps) a x = laid ps a (Machine.over e.1 e.2 (fun _ => x) a) := rfl

theorem over_outside {pa a : Nat} {bs : List Byte} (h : a < pa ∨ pa + bs.length ≤ a) (old : Nat → Byte) :
    Machine.over pa bs old a = old a := by
  unfold Machine.over
  exact if_neg (by omega)

theorem over_inside {pa a : Nat} {bs : List Byte} (h : pa ≤ a) (h' : a < pa + bs.length) (old : Nat → Byte) :
    Machine.over pa bs old a = bs.getD (a - pa) 0 := if_pos ⟨h, h'⟩

theorem laid_outside {ps : List (Nat × List Byte)} {a : Nat} (h : ∀ e ∈ ps, a < e.1 ∨ e.1 + e.2.length ≤ a) (x : Byte) :
    laid ps a x = x := by
  induction ps with
  | nil => rfl
  | cons e ps ih =>
    rw [laid_cons, over_outside (h e (List.mem_cons_self ..))]
    exact ih (fun e he => h e (List.mem_cons_of_mem _ he))

theorem over_append (pa : Nat) (c r : List Byte) (x : Byte) (a : Nat) :
    Machine.over (pa + c.length) r (fun _ => Machine.over pa c (fun _ => x) a) a = Machine.over pa (c ++ r) (fun _ => x) a := by
  have hlen : (c ++ r).length = c.length + r.length := List.length_append
  by_cases h1 : pa + c.length ≤ a
  · by_cases h2 : a < pa + c.length + r.length
    · rw [over_inside h1 h2, over_inside (by omega) (by omega), List.getD_append_right _ _ _ _ (by omega), Nat.sub_add_eq]
    · rw [over_outside (by omega), over_outside (by omega), over_outside (by omega)]
  · rw [over_outside (Or.inl (by omega))]
    by_cases h2 : pa ≤ a
    · rw [over_inside h2 (by omega), over_inside h2 (by omega), List.getD_append _ _ _ _ (by omega)]
    · rw [over_outside (by omega), over_outside (by omega)]

/-- The pieces of a store laid one after the other are the store. -/
theorem Cut.laid_eq {pa : Nat} {bs : List Byte} {ps : List (Nat × List Byte)} (h : Cut pa bs ps) (a : Nat) (x : Byte) :
    laid ps a x = Machine.over pa bs (fun _ => x) a := by
  induction h generalizing x with
  | nil pa => exact (over_outside (bs := []) (Nat.lt_or_ge a pa) (fun _ => x)).symm
  | cons _ _ ih => rw [laid_cons, ih, over_append]

/-- Of pieces that do not meet, those that `p` picks may be laid first. -/
theorem laid_filter {ps : List (Nat × List Byte)} (h : ps.Pairwise (fun e f => e.1 + e.2.length ≤ f.1))
    (p : Nat × List Byte → Bool) (a : Nat) (x : Byte) :
    laid (ps.filter (fun e => !p e)) a (laid (ps.filter p) a x) = laid ps a x := by
  induction ps generalizing x with
  | nil => rfl
  | cons e ps ih =>
    obtain ⟨hlow, hps⟩ := List.pairwise_cons.1 h
    by_cases ha : e.1 ≤ a ∧ a < e.1 + e.2.length
    · have hps' : ∀ f ∈ ps, a < f.1 ∨ f.1 + f.2.length ≤ a := fun f hf => by have := hlow f hf; omega
      have hout (q : Nat × List Byte → Bool) (y : Byte) : laid (ps.filter q) a y = y :=
        laid_outside (fun f hf => hps' f (List.mem_filter.1 hf).1) y
      by_cases hp : p e = true
      · simp [hp, hout, laid_outside hps']
      · simp [hp, hout, laid_outside hps']
    · have hsame (y : Byte) : Machine.over e.1 e.2 (fun _ => y) a = y := over_outside (by omega) _
      by_cases hp : p e = true
      · simp [hp, hsame, ih hps]
      · simp [hp, hsame, ih hps]

/-! ### A core releases words -/

/-- The address and the bytes of a write. -/
def Write.piece (w : Write) : Nat × List Byte := (w.pa, w.bytes)

/-- `m'` is `m` but for caches and for the pieces `ps`, which `core` has released behind what was on its way. -/
structure Released (core : Nat) (m m' : MemSt) (ps : List (Nat × List Byte)) : Prop where
  view : ∀ d, m'.view d = m.view d
  flight : m'.flight = m.flight
  leaseQ : m'.leaseQ = m.leaseQ
  nextW : m.nextW ≤ m'.nextW
  out : ∃ l, m'.out = m.out ++ l ∧ l.map Write.piece = ps ∧ (l.map Write.id).Nodup ∧
    ∀ w ∈ l, w.core = core ∧ w.home < 4 ∧ w.views = [] ∧ w.clock = m.clock (dieOf core) ∧ m.nextW ≤ w.id ∧ w.id < m'.nextW

theorem Released.refl (core : Nat) (m : MemSt) : Released core m m [] :=
  ⟨fun _ => rfl, rfl, rfl, Nat.le_refl _, [], by simp, rfl, .nil, by simp⟩

theorem Released.trans {core : Nat} {m m' m'' : MemSt} {ps qs : List (Nat × List Byte)} (h : Released core m m' ps)
    (h' : Released core m' m'' qs) : Released core m m'' (ps ++ qs) := by
  obtain ⟨l, ho, hp, hn, hl⟩ := h.out
  obtain ⟨l', ho', hp', hn', hl'⟩ := h'.out
  have hclock : m'.clock (dieOf core) = m.clock (dieOf core) := by simp [MemSt.clock, h.flight]
  refine ⟨fun d => (h'.view d).trans (h.view d), h'.flight.trans h.flight, h'.leaseQ.trans h.leaseQ,
    Nat.le_trans h.nextW h'.nextW, l ++ l', by rw [ho', ho, List.append_assoc], by rw [List.map_append, hp, hp'], ?_, ?_⟩
  · rw [List.map_append, List.nodup_append]
    refine ⟨hn, hn', ?_⟩
    simp only [List.mem_map, forall_exists_index, and_imp, forall_apply_eq_imp_iff₂]
    intro w hw v hv
    obtain ⟨_, _, _, _, _, hid⟩ := hl w hw
    obtain ⟨_, _, _, _, hid', _⟩ := hl' v hv
    omega
  · intro w hw
    have hle := h.nextW
    have hle' := h'.nextW
    rcases List.mem_append.1 hw with hw | hw
    · obtain ⟨hc, hh, hv, hk, hid, hid'⟩ := hl w hw
      exact ⟨hc, hh, hv, hk, hid, by omega⟩
    · obtain ⟨hc, hh, hv, hk, hid, hid'⟩ := hl' w hw
      exact ⟨hc, hh, hv, hk.trans hclock, by omega, hid'⟩

theorem CachesOnly.released {s t : State} (core : Nat) : CachesOnly s t → Released core s.mem t.mem [] := by
  rintro ⟨_, _, _, rfl⟩
  exact ⟨fun d => by simp only [MemSt.view], rfl, rfl, Nat.le_refl _, [], by simp, rfl, .nil, by simp⟩

theorem MemSt.release_released (m : MemSt) (core pa : Nat) {home : Nat} (hh : home < 4) (bs : List Byte) (whole : Nat) :
    Released core m (m.release core home pa bs whole) [(pa, bs)] :=
  ⟨fun d => by simp only [MemSt.release, MemSt.view], rfl, rfl, Nat.le_succ _, _, rfl, rfl, by simp,
    by simp [hh, MemSt.release]⟩

theorem Released.foldl {core : Nat} {α : Type} {g : MemSt → α → MemSt} {c : α → List (Nat × List Byte)}
    (h : ∀ m a, Released core m (g m a) (c a)) (l : List α) (m : MemSt) : Released core m (l.foldl g m) (l.flatMap c) := by
  induction l generalizing m with
  | nil => exact Released.refl core m
  | cons a l ih => exact (h m a).trans (ih (g m a))

theorem VCache.die_lt (v : VCache) : v.die < 4 := Nat.mod_lt _ (by decide)

theorem memHomeDie_lt (s : State) (pa : Nat) : memHomeDie s pa < 4 := by
  unfold memHomeDie
  split
  · split
    · exact VCache.die_lt _
    · decide
  · split
    · omega
    · repeat' split
      all_goals decide

theorem State.homeDie_lt (s : State) (vc pa : Nat) : s.homeDie vc pa < 4 := by
  unfold State.homeDie
  split
  · exact memHomeDie_lt s pa
  · split
    · exact VCache.die_lt _
    · exact memHomeDie_lt s pa

theorem State.sendWords_released (s : State) (core vc pa : Nat) (bs : List Byte) :
    Released core s.mem (s.sendWords core vc pa bs).mem (cutWords pa bs) := by
  have h := Released.foldl (c := fun e => [e]) (fun m e => MemSt.release_released m core e.1 (s.homeDie_lt vc pa) e.2
    (if bs.length = 64 then s.mem.nextW else 0)) (cutWords pa bs) s.mem
  rwa [List.flatMap_singleton'] at h

/-! ### A store that no lease holds back -/

theorem State.blockedAt_idle {s : State} (hq : s.mem.leaseQ = []) (bid g : Nat) : s.blockedAt bid g = s.leasedFrom bid g := by
  simp [State.blockedAt, State.earlier, hq]

theorem State.releaseParts_free {bid core : Nat} {spc : Space} {vc : Nat} {l : List (Nat × List Byte)} {s : State}
    (hq : s.mem.leaseQ = []) (hl : ∀ e ∈ l, s.leasedFrom bid (e.1 / 64) = false) :
    (l.foldl (fun s e => s.releasePart bid core spc vc e.1 e.2) s).barges = s.barges ∧
      Released core s.mem (l.foldl (fun s e => s.releasePart bid core spc vc e.1 e.2) s).mem
        (l.flatMap (fun e => cutWords e.1 e.2)) := by
  induction l generalizing s with
  | nil => exact ⟨rfl, Released.refl core s.mem⟩
  | cons e l ih =>
    obtain ⟨he, hrest⟩ := List.forall_mem_cons.1 hl
    have hpart : s.releasePart bid core spc vc e.1 e.2 = (s.touchStore core vc e.1 e.2.length spc).sendWords core vc e.1 e.2 := by
      simp [State.releasePart, State.blockedAt_idle hq, he]
    have hr : Released core s.mem (s.releasePart bid core spc vc e.1 e.2).mem (cutWords e.1 e.2) := by
      rw [hpart]
      exact ((State.touchStore_cachesOnly ..).released core).trans (State.sendWords_released ..)
    have hb : (s.releasePart bid core spc vc e.1 e.2).barges = s.barges := by simp [hpart]
    obtain ⟨hb', hr'⟩ := ih (s := s.releasePart bid core spc vc e.1 e.2) (hr.leaseQ.trans hq)
      (fun e he => by simpa [State.leasedFrom, hb] using hrest e he)
    exact ⟨hb'.trans hb, hr.trans hr'⟩

theorem mem_granules {a n g : Nat} : g ∈ granules a n ↔ a / 64 ≤ g ∧ g ≤ (a + n - 1) / 64 := by
  simp only [granules, List.mem_map, List.mem_range]
  exact ⟨fun ⟨i, hi, e⟩ => by omega, fun h => ⟨g - a / 64, by omega, by omega⟩⟩

/-- A store whose granules no other barge holds leased, while nothing waits behind a lease: its words are on their way (09_core_ordering
R173, R174). -/
theorem State.releaseStore_free {s : State} {bid core vc pa : Nat} {spc : Space} {bs : List Byte} (hq : s.mem.leaseQ = [])
    (hl : ∀ g ∈ granules pa bs.length, s.leasedFrom bid g = false) (hi : s.isIsolated pa = false)
    (hs : s.homeStopped vc pa = false) :
    (s.releaseStore bid core spc [⟨pa, vc, bs⟩]).barges = s.barges ∧
      Released core s.mem (s.releaseStore bid core spc [⟨pa, vc, bs⟩]).mem (storeWords pa bs) := by
  have hpiece : s.releaseStore bid core spc [⟨pa, vc, bs⟩] =
      (cutGrans pa bs).foldl (fun s e => s.releasePart bid core spc vc e.1 e.2) s := by
    simp [State.releaseStore, State.releasePiece, hi, hs]
  rw [hpiece]
  refine State.releaseParts_free hq (fun e he => hl _ (mem_granules.2 ?_))
  have := (cut_cutGrans pa bs).within e he
  omega

/-! ### The end of a lease: every view takes what was written to its granule -/

/-- Memory in its form, on whose way are released words only that do not meet, in rising order of address, none of which must come
before another; nothing waits behind a lease. -/
structure OnWay (m : MemSt) : Prop where
  wf : m.wf = true
  flight : m.flight = []
  leaseQ : m.leaseQ = []
  rising : (m.out.map Write.piece).Pairwise (fun e f => e.1 + e.2.length ≤ f.1)
  ids : (m.out.map Write.id).Nodup
  each : ∀ w ∈ m.out, w.home < 4 ∧ w.views = [] ∧ w.clock = []

theorem needed_cons (before : Write → Write → Bool) (p : Write → Bool) (w : Write) (l : List Write) :
    needed before p (w :: l) =
      if p w || (needed before p l).any (before w) then w :: needed before p l else needed before p l := rfl

/-- Where no write must come before another, those that `p` picks come alone. -/
theorem needed_eq_filter {before : Write → Write → Bool} {p : Write → Bool} {l : List Write}
    (h : l.Pairwise (fun w v => before w v = false)) : needed before p l = l.filter p := by
  induction l with
  | nil => rfl
  | cons w l ih =>
    obtain ⟨hw, hl⟩ := List.pairwise_cons.1 h
    have hacc : (l.filter p).any (before w) = false :=
      List.any_eq_false.2 (fun v hv => by simp [hw v (List.mem_filter.1 hv).1])
    rw [needed_cons, ih hl, hacc, Bool.or_false, List.filter_cons]

theorem needed_all {before : Write → Write → Bool} {p : Write → Bool} {l : List Write} (h : ∀ w ∈ l, p w = true) :
    needed before p l = l := by
  induction l with
  | nil => rfl
  | cons w l ih =>
    rw [needed_cons, ih (fun v hv => h v (List.mem_cons_of_mem _ hv))]
    simp [h w (List.mem_cons_self ..)]

theorem OnWay.apart {m : MemSt} (h : OnWay m) : m.out.Pairwise (fun w v => Write.beforeOut w v = false) := by
  refine (List.pairwise_map.1 h.rising).imp (fun {w v} hwv => ?_)
  have hge : ¬ v.pa < w.pa + w.bytes.length := by simpa [Write.piece] using hwv
  simp [Write.beforeOut, Write.meets, overlaps, hge]

/-- Released words take their places, those that `p` picks. -/
theorem OnWay.place_eq {m : MemSt} (h : OnWay m) (p : Write → Bool) :
    m.place p = { m with out := m.out.filter (fun w => !p w), flight := m.out.filter p } := by
  have hp : (fun w => p w && !m.holds w.id) = p := by
    funext w; simp [MemSt.holds, h.leaseQ]
  have hout : m.out.filter (fun w => !(m.out.filter p).any (fun v => v.id == w.id)) = m.out.filter (fun w => !p w) := by
    refine List.filter_congr (fun w hw => congrArg _ (Bool.eq_iff_iff.2 ?_))
    simp only [List.any_eq_true, List.mem_filter, beq_iff_eq]
    refine ⟨fun ⟨v, ⟨hv, hpv⟩, hid⟩ => ?_, fun hpw => ⟨w, ⟨hw, hpw⟩, rfl⟩⟩
    rwa [← List.inj_on_of_nodup_map h.ids hv hw hid]
  simp only [MemSt.place, MemSt.placeAny, hp, needed_eq_filter h.apart, hout, h.flight, List.nil_append]

/-- A write that enters every view is laid over each; of the rest of memory only the copies of code and the poison of its granules
change. -/
theorem MemSt.enter_allDies (m : MemSt) {w : Write} (hv : w.views = []) : ∃ ic po, m.enter allDies w = { m with
    icache := ic, poison := po, view0 := writeTab m.view0 w.pa w.bytes, view1 := writeTab m.view1 w.pa w.bytes,
    view2 := writeTab m.view2 w.pa w.bytes, view3 := writeTab m.view3 w.pa w.bytes,
    flight := (m.setWrite w.id (fun x => { x with views := x.views ++ allDies })).flight } := by
  have hnew : allDies.filter (fun d => !w.views.contains d) = allDies := by rw [hv]; rfl
  unfold MemSt.enter
  simp only [hnew]
  split <;> split <;> exact ⟨_, _, rfl⟩

/-- Writes of memory's whole flight enter every view, one after the other. -/
theorem enter_each {l : List Write} {m : MemSt} (hf : m.flight = l) (hids : (l.map Write.id).Nodup) (hv : ∀ w ∈ l, w.views = []) :
    let m' := l.foldl (fun m w => m.enter allDies w) m
    m'.out = m.out ∧ m'.leaseQ = m.leaseQ ∧ m'.flight = [] ∧
      ∀ d, m'.view d = l.foldl (fun v w => writeTab v w.pa w.bytes) (m.view d) := by
  induction l generalizing m with
  | nil => exact ⟨rfl, rfl, hf, fun _ => rfl⟩
  | cons w l ih =>
    obtain ⟨hwl, hids⟩ := List.nodup_cons.1 hids
    obtain ⟨hw, hv⟩ := List.forall_mem_cons.1 hv
    obtain ⟨ic, po, he⟩ := m.enter_allDies hw
    have hflight : (m.enter allDies w).flight = l := by
      have hother (x : Write) (hx : x ∈ l) : x.id ≠ w.id := fun h => hwl (h ▸ List.mem_map_of_mem hx)
      have hmap : l.map (fun x => if x.id = w.id then { x with views := x.views ++ allDies } else x) = l :=
        (List.map_congr_left (fun x hx => if_neg (hother x hx))).trans (List.map_id' l)
      have hkeep : l.filter (fun x => decide (x.views.length < 4)) = l :=
        List.filter_eq_self.2 (fun x hx => by simp [hv x hx])
      have hfour : allDies.length = 4 := rfl
      rw [he]
      simp [MemSt.setWrite, hf, hmap, hkeep, hw, hfour]
    obtain ⟨ho, hq, hl, hview⟩ := ih hflight hids hv
    have hd (d : Nat) : (m.enter allDies w).view d = writeTab (m.view d) w.pa w.bytes := by
      rw [he]
      match d with
      | 0 | 1 | 2 | _ + 3 => rfl
    refine ⟨ho.trans (by rw [he]), hq.trans (by rw [he]), hl, fun d => ?_⟩
    rw [List.foldl_cons, List.foldl_cons, hview, hd]

theorem tgetD_writeTab {v : Tab Byte} (hv : twf 0 v = true) (pa : Nat) (bs : List Byte) (a : Nat) :
    tgetD 0 (writeTab v pa bs) a = Machine.over pa bs (fun _ => tgetD 0 v a) a := by
  by_cases h : pa ≤ a ∧ a < pa + bs.length
  · obtain ⟨k, rfl⟩ := Nat.exists_eq_add_of_le h.1
    rw [over_inside h.1 h.2, writeTab_inside bs hv (by omega), Nat.add_sub_cancel_left]
  · rw [over_outside (by omega), writeTab_outside bs hv (by omega)]

/-- The words of a list, written one after the other. -/
theorem tgetD_writes (l : List Write) {v : Tab Byte} (hv : twf 0 v = true) (a : Nat) :
    tgetD 0 (l.foldl (fun v w => writeTab v w.pa w.bytes) v) a = laid (l.map Write.piece) a (tgetD 0 v a) := by
  induction l generalizing v with
  | nil => rfl
  | cons w l ih =>
    rw [List.foldl_cons, ih (twf_writeTab _ _ hv), tgetD_writeTab hv]
    rfl

/-- The dies of homes are among all. -/
theorem eraseDups_allDies {l : List Nat} (h : ∀ d ∈ l, d < 4) : (allDies ++ l).eraseDups = allDies := by
  have hl : l.removeAll allDies = [] := by
    simp only [List.removeAll, List.filter_eq_nil_iff]
    intro d hd
    have := h d hd
    interval_cases d <;> decide
  rw [List.eraseDups_append, hl]
  rfl

/-- What a core has released of a range enters every view; the rest stays on its way. -/
theorem OnWay.settle {m : MemSt} (h : OnWay m) (pa n : Nat) :
    let m' := m.settle allDies pa n
    OnWay m' ∧ m'.out = m.out.filter (fun w => !w.meets pa n) ∧
      ∀ d a, tgetD 0 (m'.view d) a = laid ((m.out.filter (fun w => w.meets pa n)).map Write.piece) a (tgetD 0 (m.view d) a) := by
  have hw : (m.settle allDies pa n).wf = true := MemSt.wf_settle _ _ _ h.wf
  have hgo : ∀ w ∈ m.out.filter (fun w => w.meets pa n), w.meets pa n = true := fun w hw => (List.mem_filter.1 hw).2
  have hmem : ∀ w ∈ m.out.filter (fun w => w.meets pa n), w ∈ m.out := fun w hw => (List.mem_filter.1 hw).1
  have hset : m.settle allDies pa n = (m.out.filter (fun w => w.meets pa n)).foldl (fun m w => m.enter allDies w)
      { m with out := m.out.filter (fun w => !w.meets pa n), flight := m.out.filter (fun w => w.meets pa n) } := by
    have hhome : ∀ d ∈ (m.out.filter (fun w => w.meets pa n)).map Write.home, d < 4 := by
      simp only [List.mem_map, forall_exists_index, and_imp, forall_apply_eq_imp_iff₂]
      exact fun w hw => (h.each w (hmem w hw)).1
    rw [MemSt.settle, h.place_eq, MemSt.bring, needed_all hgo, eraseDups_allDies hhome]
  obtain ⟨ho, hq, hf, hview⟩ := enter_each (m := { m with
      out := m.out.filter (fun w => !w.meets pa n), flight := m.out.filter (fun w => w.meets pa n) }) rfl
    (h.ids.sublist (List.filter_sublist.map _)) (fun w hw => (h.each w (hmem w hw)).2.1)
  rw [← hset] at ho hq hf hview
  refine ⟨⟨hw, hf, hq.trans h.leaseQ, ?_, ?_, ?_⟩, ho, fun d a => ?_⟩
  · rw [ho]; exact h.rising.sublist (List.filter_sublist.map _)
  · rw [ho]; exact h.ids.sublist (List.filter_sublist.map _)
  · rw [ho]; exact fun w hw => h.each w (List.mem_filter.1 hw).1
  · rw [hview d]
    exact tgetD_writes _ ((MemSt.wf_iff m).1 h.wf d) a

/-- The bytes that views have and those on their way together: what every view will hold at `a`. -/
def MemSt.due (m : MemSt) (d a : Nat) : Byte := laid (m.out.map Write.piece) a (tgetD 0 (m.view d) a)

theorem OnWay.due_settle {m : MemSt} (h : OnWay m) (pa n d a : Nat) : (m.settle allDies pa n).due d a = m.due d a := by
  obtain ⟨_, ho, hview⟩ := h.settle pa n
  have hmap (p : Nat × List Byte → Bool) : (m.out.filter (fun w => p w.piece)).map Write.piece = (m.out.map Write.piece).filter p :=
    (List.filter_map ..).symm
  rw [MemSt.due, ho, hview, MemSt.due, ← laid_filter h.rising (fun e => overlaps e.1 e.2.length pa n), ← hmap, ← hmap]
  rfl

/-- The leases of a barge end: what is on its way to their granules enters every view. -/
theorem OnWay.settleAll {m : MemSt} (h : OnWay m) (ls : List Lease) :
    OnWay (m.settleAll ls) ∧
      (∀ w, w ∈ (m.settleAll ls).out ↔ w ∈ m.out ∧ ∀ l ∈ ls, w.meets (64 * l.granule) 64 = false) ∧
      ∀ d a, (m.settleAll ls).due d a = m.due d a := by
  induction ls generalizing m with
  | nil => exact ⟨h, by simp, fun _ _ => rfl⟩
  | cons l ls ih =>
    obtain ⟨h1, ho1, _⟩ := h.settle (64 * l.granule) 64
    obtain ⟨h2, ho2, hd2⟩ := ih h1
    refine ⟨h2, fun w => ?_, fun d a => (hd2 d a).trans (h.due_settle _ _ d a)⟩
    rw [MemSt.settleAll_cons, ho2, ho1]
    simp [and_assoc]

theorem Write.meets_granule {w : Write} (h : 0 < w.bytes.length) : w.meets (64 * (w.pa / 64)) 64 = true := by
  simp only [Write.meets, overlaps, Bool.and_eq_true, decide_eq_true_iff]
  omega

/-- Where the granules of all that is on its way are leased, nothing stays on its way. -/
theorem OnWay.settleAll_whole {m : MemSt} (h : OnWay m) {pa : Nat} {bs : List Byte} (hcut : Cut pa bs (m.out.map Write.piece))
    {ls : List Lease} (hall : ∀ a, pa ≤ a → a < pa + bs.length → ∃ l ∈ ls, l.granule = a / 64) : (m.settleAll ls).out = [] := by
  obtain ⟨_, hout, _⟩ := h.settleAll ls
  refine List.eq_nil_iff_forall_not_mem.2 (fun w hw => ?_)
  obtain ⟨hw, hfree⟩ := (hout w).1 hw
  obtain ⟨hpos, hlow, hhigh⟩ := hcut.within _ (List.mem_map_of_mem hw)
  obtain ⟨l, hl, hg⟩ := hall w.pa hlow (Nat.lt_of_lt_of_le (Nat.lt_add_of_pos_right hpos) hhigh)
  exact Bool.false_ne_true ((hfree l hl).symm.trans (hg ▸ Write.meets_granule hpos))

/-- A view has what it is due once nothing is on its way. -/
theorem MemSt.due_of_out_nil {m : MemSt} (h : m.out = []) (d a : Nat) : m.due d a = tgetD 0 (m.view d) a := by
  rw [MemSt.due, h]; rfl

/-- One byte with another write's bytes laid over it. -/
theorem patch_byte (a : Nat) (x : Byte) (pa : Nat) (bs : List Byte) : patch a [x] pa bs = [Machine.over pa bs (fun _ => x) a] := by
  by_cases h : pa ≤ a ∧ a < pa + bs.length
  · have hlt : a - pa < bs.length := by omega
    simp [patch, over_inside h.1 h.2, h, hlt]
  · rw [over_outside (by omega)]
    simp [patch, h]

theorem foldl_patch (l : List Write) (a : Nat) (x : Byte) :
    l.foldl (fun cur w => patch a cur w.pa w.bytes) [x] = [laid (l.map Write.piece) a x] := by
  induction l generalizing x with
  | nil => rfl
  | cons w l ih =>
    rw [List.foldl_cons, patch_byte, ih]
    rfl

/-- What a core sees of a byte, where every write on its way is its own. -/
theorem OnWay.seen_own {m : MemSt} (h : OnWay m) {core : Nat} (hc : ∀ w ∈ m.out, w.core = core) (a : Nat) :
    m.seen core a 1 = [m.due (dieOf core) a] := by
  have hown : m.out.filter (fun w => w.core == core) = m.out := List.filter_eq_self.2 (fun w hw => by simp [hc w hw])
  simp only [MemSt.seen, h.flight, hown, List.filter_nil, List.foldl_nil, readTab]
  exact foldl_patch ..

theorem OnWay.seen_other {m : MemSt} (h : OnWay m) {core other : Nat} (hc : ∀ w ∈ m.out, w.core = core) (ho : other ≠ core)
    (a : Nat) : m.seen other a 1 = [tgetD 0 (m.view (dieOf other)) a] := by
  have hnone : m.out.filter (fun w => w.core == other) = [] :=
    List.filter_eq_nil_iff.2 (fun w hw => by simpa [hc w hw] using Ne.symm ho)
  simp [MemSt.seen, h.flight, hnone, readTab]

/-- The words of a store, released while nothing else is on its way. -/
theorem Released.onWay {core : Nat} {m m' : MemSt} {pa : Nat} {bs : List Byte} {ps : List (Nat × List Byte)} (h : Released core m m' ps)
    (hps : Cut pa bs ps) (hw : m.wf = true) (ho : m.out = []) (hf : m.flight = []) (hq : m.leaseQ = []) :
    OnWay m' ∧ (∀ w ∈ m'.out, w.core = core) ∧ m'.out.map Write.piece = ps := by
  obtain ⟨l, hout, hp, hids, hl⟩ := h.out
  rw [ho, List.nil_append] at hout
  have hclock : m.clock (dieOf core) = [] := by simp [MemSt.clock, hf]
  refine ⟨⟨?_, h.flight.trans hf, h.leaseQ.trans hq, ?_, ?_, ?_⟩, ?_, ?_⟩
  · exact (MemSt.wf_iff m').2 (fun d => by rw [h.view]; exact (MemSt.wf_iff m).1 hw d)
  · rw [hout, hp]; exact hps.rising
  · rw [hout]; exact hids
  · rw [hout]
    intro w hw
    obtain ⟨_, hh, hv, hk, _, _⟩ := hl w hw
    exact ⟨hh, hv, hk.trans hclock⟩
  · rw [hout]; exact fun w hw => (hl w hw).1
  · rw [hout, hp]

end Sys2Proof.Machine

end

/-! ## The commit of a store -/

section

open Sys2Proof Sys2Proof.Machine

namespace Sys2Proof.Machine

/-! ### Registers s1 to s6 as a record carries them -/

/-- Leaving out the zeros of a table changes no read. -/
theorem tgetD_filter_ne_zero {t : Tab Word} {lo : Nat} (h : tsorted t lo = true) (k : Nat) :
    tgetD 0 (t.filter (fun e => e.2 != 0)) k = tgetD 0 t k := by
  induction t generalizing lo with
  | nil => rfl
  | cons e t ih =>
    obtain ⟨j, v⟩ := e
    have ht : tsorted t (j + 1) = true := by simp [tsorted] at h; exact h.2
    have ih := ih ht
    by_cases hv : v = 0
    · have hbelow (hk : k ≤ j) : tgetD 0 t k = 0 := by simp [tgetD, tget_below ht (Nat.lt_succ_of_le hk)]
      rw [List.filter_cons_of_neg (by simp [hv]), ih]
      by_cases h1 : k = j
      · rw [hbelow (Nat.le_of_eq h1)]; simp [tgetD, tget, h1, hv]
      · by_cases h2 : k < j
        · rw [hbelow (Nat.le_of_lt h2)]; simp [tgetD, tget, h1, h2]
        · simp [tgetD, tget, h1, h2]
    · rw [List.filter_cons_of_pos (by simpa using hv)]
      simp only [tgetD, tget] at ih ⊢
      split
      · rfl
      · split
        · rfl
        · exact ih

/-- The registers that a record's six words give. -/
theorem tgetD_carryTab (l : List Word) (k : Nat) : tgetD 0 (carryTab l) k = if 1 ≤ k ∧ k ≤ 6 then l.getD (k - 1) 0 else 0 := by
  rw [carryTab, tgetD_filter_ne_zero (lo := 0) rfl]
  match k with
  | 0 | 1 | 2 | 3 | 4 | 5 | 6 => rfl
  | k + 7 => simp [tgetD, List.range_succ, tget]

/-- A commit keeps s1 to s6 and zeroes every other register (05_core_state R90). -/
theorem Barge.recordCommit_sreg (b : Barge) (n k : Nat) :
    tgetD 0 (b.recordCommit n).sreg k = if 1 ≤ k ∧ k ≤ 6 then tgetD 0 b.sreg k else 0 := by
  have hs : (b.recordCommit n).sreg = carryTab ((List.range 6).map (fun i => tgetD 0 b.sreg (i + 1))) := rfl
  rw [hs, tgetD_carryTab]
  match k with
  | 0 | 1 | 2 | 3 | 4 | 5 | 6 => rfl
  | k + 7 => simp

/-! ### A store, and a commit that nothing holds up -/

/-- What a barge becomes does not matter to what the others hold leased. -/
theorem State.leasedFrom_setB (s : State) (k : Nat) (b : Barge) (g : Nat) : (s.setB k b).leasedFrom k g = s.leasedFrom k g := by
  have htab (t : Tab Barge) (p : Nat × Barge → Bool) :
      (tset t k b).any (fun e => e.1 != k && p e) = t.any (fun e => e.1 != k && p e) := by
    induction t with
    | nil => simp [tset]
    | cons e t ih =>
      obtain ⟨j, w⟩ := e
      unfold tset
      split
      · simp
      · split
        · next hk => simp [hk]
        · simp [ih]
  exact htab s.barges _

theorem performAll_store {s : State} {k : Nat} {b : Barge} (h : s.barge? k = some b) (spc : Space) (ps : List SPiece) :
    performAll k s [.store spc ps] = (s.setB k { b with late := [] }).releaseStore k b.core spc ps := by
  simp [performAll, State.keptBack, State.orders, State.perform, State.updB_some h]

/-- A commit of which nothing is late and behind whose leases nothing waits: the record is written, the leases end, and the barge
goes on. -/
theorem State.goCommit_free {s : State} {k : Nat} {b : Barge} {n : Nat} (h : s.barge? k = some b)
    (hc : b.commit = some ⟨n, .goOn none, false⟩) (hl : b.late = []) (hq : (s.mem.settleAll b.leases).leaseQ = []) :
    s.goCommit k = (s.setMem (s.mem.settleAll b.leases)).setB k { b.recordCommit n with commit := none } := by
  rw [State.goCommit_whole h hc hl, State.endLeases_of h, leaveQueue_none hq, State.updB_setB]
  rfl

/-- What the commit of a region leaves that has buffered a store which no lease holds back: `t` is the state as the store's words are on
their way. -/
theorem State.commitRegion_store {s : State} {k : Nat} {b : Barge} (h : s.barge? k = some b) {spc : Space} {pa vc : Nat} {bs : List Byte}
    (he : b.eff = [.store spc [⟨pa, vc, bs⟩]]) (hlate : b.late = []) (hl : ∀ g ∈ granules pa bs.length, s.leasedFrom k g = false)
    (hi : s.isIsolated pa = false) (hs : s.homeStopped vc pa = false) (hw : s.MemWf) (hst : Machine.still s) (hq : s.mem.leaseQ = [])
    (n : Nat) :
    ∃ t : State, (OnWay t.mem ∧ (∀ w ∈ t.mem.out, w.core = b.core) ∧ t.mem.out.map Write.piece = storeWords pa bs) ∧
      (∀ d, t.mem.view d = s.mem.view d) ∧
      s.commitRegion k n (.goOn none) =
        (t.setMem (t.mem.settleAll b.leases)).setB k { b.recordCommit n with late := [], commit := none } := by
  have hcommit : s.commitRegion k n (.goOn none) =
      ((s.setB k { b.committing n (.goOn none) with late := [] }).releaseStore k b.core spc [⟨pa, vc, bs⟩]).goCommit k := by
    have hlate' : (b.committing n (.goOn none)).late = [.store spc [⟨pa, vc, bs⟩]] := by simp [Barge.committing, hlate, he]
    rw [State.commitRegion_of h, State.goLate, State.barge_setB, hlate', performAll_store (State.barge?_setB ..), State.setB_setB]
    rfl
  obtain ⟨hb, hr⟩ := State.releaseStore_free (s := s.setB k { b.committing n (.goOn none) with late := [] }) (core := b.core)
    (spc := spc) hq (fun g hg => by rw [State.leasedFrom_setB]; exact hl g hg) hi hs
  have hway := hr.onWay (cut_storeWords pa bs) hw hst.1 hst.2 hq
  refine ⟨_, hway, hr.view, ?_⟩
  rw [hcommit, State.goCommit_free (b := { b.committing n (.goOn none) with late := [] }) ?_ rfl rfl
    (hway.1.settleAll b.leases).1.leaseQ]
  · rfl
  · simp [State.barge?, hb]

end Sys2Proof.Machine

/-- Settles O25: the words of the store are on their way as the commit releases them, and those of a granule held leased enter every
view as its lease ends. -/
theorem commitOfAStore : Obligations.CommitOfAStore := by
  intro s b r h pa vc spc bs he hlate hl hi hs hw hst hq
  obtain ⟨t, ⟨hway, hcore, hpieces⟩, hview, hcommit⟩ :=
    State.commitRegion_store (s := s.issued b) (k := s.cur) h.1.1 he hlate hl hi hs hw hst hq (r.here.pc + 4)
  obtain ⟨hway', hout, hdue⟩ := hway.settleAll b.leases
  have hmine : ∀ w ∈ (t.mem.settleAll b.leases).out, w.core = b.core :=
    fun w hw => hcore w ((hout w).1 hw).1
  have htotal (d a : Nat) : t.mem.due d a = Machine.over pa bs (s.byteAt d) a := by
    rw [MemSt.due, hpieces, (cut_storeWords pa bs).laid_eq, hview]
    rfl
  have hexec : exec .ckpt s = .next ((s.issued b).commitRegion s.cur (r.here.pc + 4) (.goOn none)) := by
    rw [exec_ckpt, execCkpt, issue_of h.1, leave_commit_alone h, State.doing_none]
    · rfl
    · exact (congrArg (fun u : State => u.mem.leaseQ) hcommit).trans hway'.leaseQ
  refine ⟨_, hexec.trans (congrArg _ hcommit), fun a => ?_, fun hnone => ⟨fun d a => ?_, fun other a ho => ?_⟩, fun hall d _ a => ?_,
    _, State.barge?_setB .., rfl, rfl, rfl, rfl, rfl, rfl, rfl, rfl, fun k => b.recordCommit_sreg (r.here.pc + 4) k⟩
  · exact (hway'.seen_own hmine a).trans (congrArg (fun x => [x]) ((hdue _ a).trans (htotal _ a)))
  · rw [hnone]
    exact congrArg (tgetD 0 · a) (hview d)
  · refine (hway'.seen_other hmine ho a).trans ?_
    rw [hnone]
    exact congrArg (fun v => [tgetD 0 v a]) (hview _)
  · have hgone := hway.settleAll_whole (hpieces ▸ cut_storeWords pa bs) hall
    exact (MemSt.due_of_out_nil hgone d a).symm.trans ((hdue d a).trans (htotal d a))

end

/-! ## Rounding into a format (02_numbers R33, R34, R43) -/

section

open Sys2Proof Sys2Proof.Machine

namespace Sys2Proof.Machine

/-! ### Magnitudes as real numbers -/

/-- `x` compares the multiples of the magnitude `ρ` with the natural numbers. -/
def Measures (x : Nat → Nat → Ordering) (ρ : ℝ) : Prop := ∀ k n : Nat, x k n = compare ((k : ℝ) * ρ) n

/-- Two comparisons agree where both their orders do. -/
theorem compare_congr {α β : Type} [LinearOrder α] [LinearOrder β] {a b : α} {c d : β} (hlt : a < b ↔ c < d) (hgt : b < a ↔ d < c) :
    compare a b = compare c d := by
  rcases lt_trichotomy a b with h | h | h
  · rw [compare_lt_iff_lt.2 h, compare_lt_iff_lt.2 (hlt.1 h)]
  · have hcd : c = d := le_antisymm (not_lt.1 fun hd => h.not_gt (hgt.2 hd)) (not_lt.1 fun hd => h.not_lt (hlt.2 hd))
    rw [compare_eq_iff_eq.2 h, compare_eq_iff_eq.2 hcd]
  · rw [compare_gt_iff_gt.2 h, compare_gt_iff_gt.2 (hgt.1 h)]

theorem measures_exactly (X : Nat) : Measures (Machine.exactly X) X := by
  intro k n
  exact compare_congr (by exact_mod_cast Iff.rfl) (by exact_mod_cast Iff.rfl)

theorem measures_ratio (X : Nat) {Z : Nat} (hZ : 0 < Z) : Measures (Machine.ratio X Z) (X / Z) := by
  intro k n
  have hZ' : (0 : ℝ) < Z := by exact_mod_cast hZ
  refine compare_congr ?_ ?_
  · rw [← mul_div_assoc, div_lt_iff₀ hZ']; exact_mod_cast Iff.rfl
  · rw [← mul_div_assoc, lt_div_iff₀ hZ']; exact_mod_cast Iff.rfl

theorem measures_root (X : Nat) : Measures (Machine.root X) (√X) := by
  intro k n
  have hk : (k : ℝ) * √X = √((k * k * X : Nat) : ℝ) := by
    rw [Nat.cast_mul, Real.sqrt_mul (by positivity), Nat.cast_mul, Real.sqrt_mul_self (by positivity)]
  rw [hk]
  refine compare_congr ?_ ?_
  · rw [Real.sqrt_lt (by positivity) (by positivity), sq]; exact_mod_cast Iff.rfl
  · rw [Real.lt_sqrt (by positivity), sq]; exact_mod_cast Iff.rfl

section
variable {x : Nat → Nat → Ordering} {ρ : ℝ} (hx : Measures x ρ) (k n : Nat)
include hx

theorem Measures.lt_iff : x k n = .lt ↔ (k : ℝ) * ρ < n := by rw [hx, compare_lt_iff_lt]
theorem Measures.gt_iff : x k n = .gt ↔ (n : ℝ) < k * ρ := by rw [hx, compare_gt_iff_gt]
theorem Measures.eq_iff : x k n = .eq ↔ (k : ℝ) * ρ = n := by rw [hx, compare_eq_iff_eq]

end

/-! ### A significand, an exponent and a sticky bit -/

/-- The magnitude `ρ` is `m × 2^E`, or with `st` lies strictly between `m` and `m + 1` of these units. -/
def Stands (m E : Nat) (st : Bool) (ρ : ℝ) : Prop :=
  (m : ℝ) * 2 ^ E ≤ ρ ∧ ρ < (m + 1) * 2 ^ E ∧ (st = false ↔ ρ = m * 2 ^ E)

theorem stands_exact (m E : Nat) : Stands m E false ((m * 2 ^ E : Nat) : ℝ) := by
  have h : (0 : ℝ) < 2 ^ E := by positivity
  refine ⟨by push_cast; rfl, by push_cast; linarith, by simp⟩

theorem stands_sticky {m E : Nat} {ρ : ℝ} (hlo : (m : ℝ) * 2 ^ E < ρ) (hhi : ρ < (m + 1) * 2 ^ E) : Stands m E true ρ :=
  ⟨hlo.le, hhi, by simp [hlo.ne']⟩

section
variable {m E : Nat} {st : Bool} {ρ : ℝ} (hs : Stands m E st ρ) (n : Nat)
include hs

theorem Stands.lt_iff : ρ < n * 2 ^ E ↔ m < n := by
  have hp : (0 : ℝ) < 2 ^ E := by positivity
  refine ⟨fun h => ?_, fun h => hs.2.1.trans_le ?_⟩
  · exact_mod_cast lt_of_mul_lt_mul_right (hs.1.trans_lt h) hp.le
  · exact mul_le_mul_of_nonneg_right (by exact_mod_cast h) hp.le

theorem Stands.eq_iff : ρ = n * 2 ^ E ↔ m = n ∧ st = false := by
  refine ⟨fun h => ?_, fun ⟨hm, hst⟩ => hm ▸ hs.2.2.1 hst⟩
  have hmn : ¬ m < n := fun hlt => h.not_lt ((hs.lt_iff n).2 hlt)
  have hnm : m < n + 1 := by
    rw [← hs.lt_iff (n + 1), h]
    exact mul_lt_mul_of_pos_right (by simp) (by positivity)
  obtain rfl : m = n := by omega
  exact ⟨rfl, hs.2.2.2 h⟩

theorem Stands.gt_iff : n * 2 ^ E < ρ ↔ n < m ∨ (m = n ∧ st = true) := by
  have h : n * 2 ^ E < ρ ↔ ¬ (ρ < n * 2 ^ E ∨ ρ = n * 2 ^ E) := by rw [← le_iff_lt_or_eq, not_le]
  rw [h, hs.lt_iff, hs.eq_iff]
  cases st <;> simp <;> omega

end

/-! ### A magnitude cut at a multiple of a power of two -/

/-- `p` is `ρ` rounded to a multiple of `2^Q` and whether that is exact: one of the two multiples beside it, as `takesUpper` says. -/
def RoundsTo (rm : RMode) (neg : Bool) (x : Nat → Nat → Ordering) (ρ : ℝ) (Q : Nat) (p : Nat × Bool) : Prop :=
  ∃ k : Nat, (k : ℝ) * 2 ^ Q ≤ ρ ∧ ρ < (k + 1) * 2 ^ Q ∧ (p.2 = true ↔ ρ = k * 2 ^ Q) ∧
    p.1 = if ρ ≠ k * 2 ^ Q ∧ Machine.takesUpper rm neg ((k + 1) % 2 == 0) (k * 2 ^ Q) ((k + 1) * 2 ^ Q) x then k + 1 else k

section
variable {m E : Nat} {st : Bool} {ρ : ℝ} {x : Nat → Nat → Ordering}

/-- What is cut off, `r` above `k` times `2^(sh + 1)`, against half a unit. -/
theorem Stands.half_cmp (hs : Stands m E st ρ) (hx : Measures x ρ) {sh k r : Nat} (hm : 2 ^ (sh + 1) * k + r = m) :
    (x 2 (k * 2 ^ (E + sh + 1) + (k + 1) * 2 ^ (E + sh + 1)) = .gt ↔ 2 ^ sh < r ∨ (r = 2 ^ sh ∧ st = true)) ∧
    (x 2 (k * 2 ^ (E + sh + 1) + (k + 1) * 2 ^ (E + sh + 1)) = .eq ↔ r = 2 ^ sh ∧ st = false) := by
  have hmid : ((k * 2 ^ (E + sh + 1) + (k + 1) * 2 ^ (E + sh + 1) : Nat) : ℝ) =
      2 * (((2 ^ (sh + 1) * k + 2 ^ sh : Nat) : ℝ) * 2 ^ E) := by
    push_cast; ring
  rw [hx.gt_iff, hx.eq_iff, hmid, Nat.cast_ofNat, mul_lt_mul_iff_right₀ two_pos, hs.gt_iff, mul_right_inj' two_ne_zero, hs.eq_iff]
  subst hm
  simp

/-- Nothing is cut off where the magnitude is the multiple below it. -/
theorem Stands.eq_below_iff (hs : Stands m E st ρ) {sh k r : Nat} (hm : 2 ^ (sh + 1) * k + r = m) :
    ρ = k * 2 ^ (E + sh + 1) ↔ r = 0 ∧ st = false := by
  have h : (k : ℝ) * 2 ^ (E + sh + 1) = ((2 ^ (sh + 1) * k : Nat) : ℝ) * 2 ^ E := by push_cast; ring
  rw [h, hs.eq_iff]
  subst hm
  simp

theorem roundsUp_iff (hs : Stands m E st ρ) (hx : Measures x ρ) (rm : RMode) (neg : Bool) {sh k r : Nat}
    (hm : 2 ^ (sh + 1) * k + r = m) :
    roundsUp rm neg r (sh + 1) st (k % 2 == 1) = true ↔ ρ ≠ k * 2 ^ (E + sh + 1) ∧
      Machine.takesUpper rm neg ((k + 1) % 2 == 0) (k * 2 ^ (E + sh + 1)) ((k + 1) * 2 ^ (E + sh + 1)) x = true := by
  obtain ⟨hgt, heq⟩ := hs.half_cmp hx hm
  have hodd : (k + 1) % 2 = 0 ↔ k % 2 = 1 := by omega
  have hpos : 0 < 2 ^ sh := Nat.two_pow_pos sh
  have hcut : (r ≠ 0 ∨ st = true) ↔ ¬ (r = 0 ∧ st = false) := by cases st <;> simp
  rw [Ne, hs.eq_below_iff hm, ← hcut]
  cases rm with
  | rne =>
    simp only [roundsUp, Machine.takesUpper, if_neg (Nat.succ_ne_zero sh), Nat.add_one_sub_one, if_true, Bool.or_eq_true,
      Bool.and_eq_true, beq_iff_eq, hgt, heq, hodd]
    split
    · next h => subst h; cases st <;> simp
    · next h => simp only [decide_eq_true_iff]; omega
  | rtz => simp [roundsUp, Machine.takesUpper, Machine.away]
  | rup => cases neg <;> simp [roundsUp, Machine.takesUpper, Machine.away]
  | rdn => cases neg <;> simp [roundsUp, Machine.takesUpper, Machine.away]

/-- `roundAt` rounds (02_numbers R33). A sticky bit needs a place below the one rounded to. -/
theorem roundAt_roundsTo (hs : Stands m E st ρ) (hx : Measures x ρ) (rm : RMode) (neg : Bool) {Q : Nat} (hst : st = true → E < Q) :
    RoundsTo rm neg x ρ Q (roundAt rm neg m (E - 800) st (Q - 800)) := by
  by_cases hQ : Q ≤ E
  · obtain rfl : st = false := by cases st with | false => rfl | true => exact absurd (hst rfl) (by omega)
    have hρ : ρ = ((m * 2 ^ (E - Q) : Nat) : ℝ) * 2 ^ Q := by
      rw [hs.2.2.1 rfl, Nat.cast_mul, Nat.cast_pow, Nat.cast_ofNat, mul_assoc, ← pow_add, Nat.sub_add_cancel hQ]
    have hround : roundAt rm neg m (E - 800) false (Q - 800) = (m * 2 ^ (E - Q), true) := by
      have hq : (Q : Int) - 800 ≤ E - 800 := by omega
      simp [roundAt, hq]
    refine ⟨m * 2 ^ (E - Q), hρ.ge, ?_, by simp [hround, hρ], by simp [hround, hρ]⟩
    rw [hρ]
    exact mul_lt_mul_of_pos_right (by linarith) (by positivity)
  · obtain ⟨sh, rfl⟩ : ∃ sh, Q = E + sh + 1 := ⟨Q - E - 1, by omega⟩
    have hround : roundAt rm neg m (E - 800) st ((E + sh + 1 : Nat) - 800) =
        (m / 2 ^ (sh + 1) + (roundsUp rm neg (m % 2 ^ (sh + 1)) (sh + 1) st (m / 2 ^ (sh + 1) % 2 == 1)).toNat,
          m % 2 ^ (sh + 1) == 0 && !st) := by
      have he : (((E + sh + 1 : Nat) : Int) - 800 - (E - 800)).toNat = sh + 1 := by omega
      have hq : ¬ ((E + sh + 1 : Nat) : Int) - 800 ≤ E - 800 := by omega
      simp only [roundAt, hq, he, if_false]
    have hm : 2 ^ (sh + 1) * (m / 2 ^ (sh + 1)) + m % 2 ^ (sh + 1) = m := Nat.div_add_mod m _
    have hr : m % 2 ^ (sh + 1) < 2 ^ (sh + 1) := Nat.mod_lt _ (Nat.two_pow_pos _)
    have hup := roundsUp_iff hs hx rm neg hm
    have hbelow := hs.eq_below_iff hm
    have hmul (n : Nat) : (n : ℝ) * 2 ^ (E + sh + 1) = ((2 ^ (sh + 1) * n : Nat) : ℝ) * 2 ^ E := by push_cast; ring
    rw [hround]
    generalize m / 2 ^ (sh + 1) = k at *
    refine ⟨k, ?_, ?_, ?_, ?_⟩
    · rw [hmul, ← not_lt, hs.lt_iff, not_lt]
      exact Nat.le.intro hm
    · have h := hmul (k + 1)
      rw [Nat.cast_add, Nat.cast_one] at h
      rw [h, hs.lt_iff, Nat.mul_add, Nat.mul_one]
      exact hm.symm.trans_lt (Nat.add_lt_add_left hr _)
    · simp [hbelow]
    · simp only [← hup]
      split
      · next h => simp [h]
      · next h => simp [h]

end

/-! ### The magnitudes of the codes of a format -/

/-- The numbers of a format of class F hang together (02_numbers R20, R22, R24): what the rounding and the values of its codes need. -/
structure Fmt.Regular (f : Fmt) : Prop where
  mb_pos : 0 < f.mb
  bias_pos : 0 < f.bias
  /-- no magnitude has a place below `2^-149` -/
  room : f.bias + f.mb ≤ 150
  mb_le : f.mb ≤ 23
  eb_le : f.eb ≤ 8
  exp_le : 2 ^ f.eb ≤ f.bias + 129
  /-- FP32 and BF16 have infinities -/
  inf_of_wide : f.eb = 8 → f.hasInf = true
  nan : f.hasNan = true
  /-- the code that an overflow delivers follows the largest finite one -/
  beyond : (if f.hasInf then f.infc else f.cnan) = f.maxc + 1
  top : f.maxc + 1 < 2 ^ (f.eb + f.mb)
  normal : 2 ^ f.mb ≤ f.maxc
  /-- the largest finite magnitude is not the least of its exponent -/
  inner : f.maxc % 2 ^ f.mb ≠ 0

theorem Fmt.regular_of_mem {f : Fmt} (hf : f ∈ [fmtF32, fmtBF16, fmtE4M3, fmtE5M2]) : f.Regular := by
  simp only [List.mem_cons, List.not_mem_nil, or_false] at hf
  rcases hf with rfl | rfl | rfl | rfl <;> constructor <;> decide

theorem Fmt.mag_div (f : Fmt) (c : Nat) : f.mag c / 2 ^ f.mb = c / 2 ^ f.mb % 2 ^ f.eb := by
  rw [Fmt.mag, add_comm, pow_add, Nat.mod_mul_right_div_self]

theorem Fmt.mag_mod (f : Fmt) (c : Nat) : f.mag c % 2 ^ f.mb = c % 2 ^ f.mb :=
  Nat.mod_mod_of_dvd _ (pow_dvd_pow 2 (Nat.le_add_left ..))

/-- The sign takes no part in a magnitude. -/
theorem Fmt.magOf_mag (f : Fmt) (k c : Nat) : Machine.magOf k f (f.mag c) = Machine.magOf k f c := by
  simp only [Machine.magOf, Fmt.mag_div, Fmt.mag_mod, Nat.mod_mod]

/-- The exponent of the least magnitude, in units of `2^-800`. -/
def Fmt.base (f : Fmt) : Nat := 801 - f.bias - f.mb

/-- The magnitude of a code, in units of `2^-800`, and of the codes that would follow if the exponent had no bound. -/
def Fmt.ladder (f : Fmt) (c : Nat) : Nat :=
  (if c / 2 ^ f.mb = 0 then c % 2 ^ f.mb else 2 ^ f.mb + c % 2 ^ f.mb) * 2 ^ (f.base + (c / 2 ^ f.mb - 1))

theorem Fmt.magOf_eq_ladder {f : Fmt} (hf : f.Regular) {c : Nat} (hc : c < 2 ^ (f.eb + f.mb)) : Machine.magOf 800 f c = f.ladder c := by
  have hroom := hf.room
  have he : c / 2 ^ f.mb % 2 ^ f.eb = c / 2 ^ f.mb :=
    Nat.mod_eq_of_lt (Nat.div_lt_of_lt_mul (by rwa [← pow_add, add_comm]))
  simp only [Machine.magOf, Fmt.ladder, Fmt.base, he]
  split
  · next h => simp [h]
  · rw [show 800 + c / 2 ^ f.mb - f.bias - f.mb = 801 - f.bias - f.mb + (c / 2 ^ f.mb - 1) by omega]

/-- The code of `k` units of `2^j` times the least magnitude. -/
theorem Fmt.ladder_code (f : Fmt) {j k : Nat} (hk : k ≤ 2 ^ (f.mb + 1)) (hj : j = 0 ∨ 2 ^ f.mb ≤ k) :
    f.ladder (j * 2 ^ f.mb + k) = k * 2 ^ (f.base + j) := by
  have hpos : 0 < 2 ^ f.mb := Nat.two_pow_pos _
  rw [pow_succ] at hk
  rw [Fmt.ladder, mul_comm j, Nat.mul_add_div hpos, Nat.mul_add_mod]
  rcases Nat.lt_or_ge k (2 ^ f.mb) with hlow | hhigh
  · obtain rfl : j = 0 := hj.resolve_right (by omega)
    simp [Nat.div_eq_of_lt hlow, Nat.mod_eq_of_lt hlow]
  · rcases Nat.lt_or_eq_of_le hk with hlt | rfl
    · have hdiv : k / 2 ^ f.mb = 1 := Nat.div_eq_of_lt_le (by omega) (by omega)
      have hmod : 2 ^ f.mb + k % 2 ^ f.mb = k := by
        have := Nat.div_add_mod k (2 ^ f.mb)
        rwa [hdiv, mul_one] at this
      simp [hdiv, hmod]
    · simp [Nat.mul_div_cancel_left _ hpos, Nat.mul_mod_right]
      ring

/-- Every code is one of `ladder_code`, with the next above it at one unit more. -/
theorem Fmt.code_split (f : Fmt) (c : Nat) :
    ∃ j k, c = j * 2 ^ f.mb + k ∧ k < 2 ^ (f.mb + 1) ∧ (j = 0 ∨ 2 ^ f.mb ≤ k) ∧ (c % 2 ^ f.mb ≠ 0 → k % 2 ^ f.mb ≠ 0) := by
  have hpos : 0 < 2 ^ f.mb := Nat.two_pow_pos _
  have hmod := Nat.mod_lt c hpos
  have hc := Nat.div_add_mod c (2 ^ f.mb)
  have h2 : 2 ^ (f.mb + 1) = 2 ^ f.mb + 2 ^ f.mb := by ring
  rcases Nat.eq_zero_or_eq_succ_pred (c / 2 ^ f.mb) with h | h
  · refine ⟨0, c, by simp, ?_, .inl rfl, id⟩
    rw [h] at hc
    omega
  · generalize (c / 2 ^ f.mb).pred = j at h
    rw [h, Nat.mul_succ] at hc
    refine ⟨j, 2 ^ f.mb + c % 2 ^ f.mb, ?_, by omega, .inr (by omega), by simp⟩
    rw [mul_comm]; omega

theorem Fmt.ladder_strictMono (f : Fmt) : StrictMono f.ladder := by
  refine strictMono_nat_of_lt_succ (fun c => ?_)
  obtain ⟨j, k, rfl, hk, hj, _⟩ := f.code_split c
  rw [add_assoc, f.ladder_code hk.le hj, f.ladder_code hk (hj.imp_right (by omega))]
  exact Nat.mul_lt_mul_of_pos_right (Nat.lt_succ_self k) (Nat.two_pow_pos _)

/-- Inside one exponent the magnitudes rise by equal steps. -/
theorem Fmt.ladder_step (f : Fmt) {c : Nat} (hlow : 2 ^ f.mb ≤ c) (hc : c % 2 ^ f.mb ≠ 0) :
    f.ladder c + (f.ladder c - f.ladder (c - 1)) = f.ladder (c + 1) := by
  obtain ⟨j, k, rfl, hk, hj, hne⟩ := f.code_split c
  have hk0 := hne hc
  have hkpos : 0 < k := Nat.pos_of_ne_zero (by rintro rfl; simp at hk0)
  have hj' : j = 0 ∨ 2 ^ f.mb ≤ k - 1 := hj.imp_right (fun h => by
    have : k ≠ 2 ^ f.mb := by rintro rfl; simp at hk0
    omega)
  rw [add_assoc, Nat.add_sub_assoc hkpos, f.ladder_code hk.le hj, f.ladder_code hk (hj.imp_right (by omega)),
    f.ladder_code (by omega) hj', ← Nat.sub_mul, ← Nat.add_mul]
  congr 1
  omega

theorem Fmt.ladder_normal (f : Fmt) : f.ladder (2 ^ f.mb) = 2 ^ (f.base + f.mb) := by
  have h := f.ladder_code (j := 0) (k := 2 ^ f.mb) (by rw [pow_succ]; omega) (.inl rfl)
  simpa [add_comm, pow_add, mul_comm] using h

theorem Fmt.ladder_one {f : Fmt} : f.ladder 1 = 2 ^ f.base := by
  have h := f.ladder_code (j := 0) (k := 1) Nat.one_le_two_pow (.inl rfl)
  simpa using h

/-! ### Rounding into a format -/

/-- `c` is one of the two codes beside the magnitude `ρ`, as `takesUpper` says, and `exact` says whether `ρ` is the lower one's. -/
def Fmt.Beside (f : Fmt) (rm : RMode) (neg : Bool) (x : Nat → Nat → Ordering) (ρ : ℝ) (c : Nat) (exact : Bool) : Prop :=
  ∃ lo, (f.ladder lo : ℝ) ≤ ρ ∧ ρ < f.ladder (lo + 1) ∧ (exact = true ↔ ρ = f.ladder lo) ∧
    c = if ρ ≠ f.ladder lo ∧ Machine.takesUpper rm neg ((lo + 1) % 2 == 0) (f.ladder lo) (f.ladder (lo + 1)) x then lo + 1 else lo

section
variable {f : Fmt} {rm : RMode} {neg : Bool} {x : Nat → Nat → Ordering} {ρ : ℝ}

/-- A magnitude rounded to the place that its exponent gives is rounded to one of the codes beside it. -/
theorem RoundsTo.beside (hf : f.Regular) {j : Nat} {p : Nat × Bool} (hp : RoundsTo rm neg x ρ (f.base + j) p)
    (hlow : j = 0 ∨ 2 ^ (f.base + j + f.mb) ≤ ρ) (hhigh : ρ < 2 ^ (f.base + j + f.mb + 1)) :
    f.Beside rm neg x ρ (j * 2 ^ f.mb + p.1) p.2 := by
  obtain ⟨k, hk, hk1, hex, hc⟩ := hp
  have hpos : (0 : ℝ) < 2 ^ (f.base + j) := by positivity
  have hklt : k < 2 ^ (f.mb + 1) := by
    rw [add_assoc _ f.mb, pow_add, mul_comm] at hhigh
    exact_mod_cast lt_of_mul_lt_mul_right (hk.trans_lt hhigh) hpos.le
  have hj : j = 0 ∨ 2 ^ f.mb ≤ k := hlow.imp_right (fun h => by
    rw [pow_add, mul_comm] at h
    exact Nat.lt_succ_iff.1 (by exact_mod_cast lt_of_mul_lt_mul_right (h.trans_lt hk1) hpos.le))
  have hlo := f.ladder_code hklt.le hj
  have hhi := f.ladder_code (k := k + 1) hklt (hj.imp_right (by omega))
  have heven : (j * 2 ^ f.mb + k + 1) % 2 = (k + 1) % 2 := by
    obtain ⟨b, hb⟩ := Nat.exists_eq_succ_of_ne_zero hf.mb_pos.ne'
    rw [hb, pow_succ, ← mul_assoc]; omega
  refine ⟨j * 2 ^ f.mb + k, ?_, ?_, ?_, ?_⟩
  · rw [hlo]; exact_mod_cast hk
  · rw [add_assoc, hhi]; exact_mod_cast hk1
  · rw [hex, hlo]; push_cast; rfl
  · rw [heven, hc, add_assoc, hlo, hhi]
    push_cast
    split <;> rfl

/-- A magnitude rounds beyond the largest finite code where it is past the middle behind that code, or past that code itself, or at the
code that would follow, as the rounding mode has it. -/
theorem Fmt.Beside.beyond_iff (hx : Measures x ρ) {c : Nat} {exact : Bool} (hb : f.Beside rm neg x ρ c exact) (n : Nat) :
    n < c ↔
      (if rm = .rne then x 2 (f.ladder n + f.ladder (n + 1)) == .gt || (x 2 (f.ladder n + f.ladder (n + 1)) == .eq && n % 2 == 1)
        else if Machine.away rm neg then x 1 (f.ladder n) == .gt else x 1 (f.ladder (n + 1)) != .lt) = true := by
  obtain ⟨lo, hlo, hhi, _, hc⟩ := hb
  have hstep : (f.ladder n : ℝ) < f.ladder (n + 1) := by exact_mod_cast f.ladder_strictMono (Nat.lt_succ_self n)
  have hle {a b : Nat} (h : a ≤ b) : (f.ladder a : ℝ) ≤ f.ladder b := by exact_mod_cast f.ladder_strictMono.monotone h
  have hclo : lo ≤ c ∧ c ≤ lo + 1 := by rw [hc]; split <;> omega
  simp only [Bool.ite_eq_true_distrib, Bool.or_eq_true, Bool.and_eq_true, beq_iff_eq,
    bne_iff_ne, ne_eq, hx.gt_iff, hx.eq_iff, hx.lt_iff, Nat.cast_one, one_mul, Nat.cast_ofNat, Nat.cast_add]
  rcases lt_trichotomy lo n with h | rfl | h
  · have hρ : ρ < f.ladder n := hhi.trans_le (hle h)
    refine iff_of_false (by omega) ?_
    split
    · rintro (h | ⟨h, _⟩) <;> linarith
    · split <;> intro h <;> linarith
  · have hmid : lo < c ↔ ρ ≠ f.ladder lo ∧ Machine.takesUpper rm neg ((lo + 1) % 2 == 0) (f.ladder lo) (f.ladder (lo + 1)) x = true := by
      rw [hc]; split <;> simp [*]
    have hodd : (lo + 1) % 2 = 0 ↔ lo % 2 = 1 := by omega
    rw [hmid, Machine.takesUpper]
    split
    · simp only [Bool.or_eq_true, Bool.and_eq_true, beq_iff_eq, hx.gt_iff, hx.eq_iff, Nat.cast_ofNat, Nat.cast_add, hodd]
      refine ⟨And.right, fun h => ⟨?_, h⟩⟩
      rintro rfl
      rcases h with h | ⟨h, _⟩ <;> linarith
    · split
      · next h => simp only [h, and_true]; exact ⟨fun hne => hlo.lt_of_ne' hne, ne_of_gt⟩
      · next h => simp [h, hhi]
  · have hρ : f.ladder (n + 1) ≤ ρ := (hle h).trans hlo
    refine iff_of_true (by omega) ?_
    split
    · left; linarith
    · split <;> linarith

/-- A magnitude below `2 n` multiples of `2^Q` rounds up to these where it is at most half a `2^Q` below them, or less than one `2^Q`, as
the rounding mode has it. -/
theorem RoundsTo.eq_top_iff (hx : Measures x ρ) {Q : Nat} {p : Nat × Bool} (hp : RoundsTo rm neg x ρ Q p) {n : Nat} (hn : 0 < n)
    (hlt : ρ < ((2 * n : Nat) : ℝ) * 2 ^ Q) :
    p.1 = 2 * n ↔
      (if rm = .rne then x 4 (4 * (2 * n * 2 ^ Q) - 2 ^ (Q + 1)) != .lt
        else Machine.away rm neg && x 2 (2 * (2 * n * 2 ^ Q) - 2 ^ (Q + 1)) == .gt) = true := by
  obtain ⟨k, hk, hk1, _, hc⟩ := hp
  obtain ⟨l, rfl⟩ : ∃ l, n = l + 1 := ⟨n - 1, by omega⟩
  have hpos : (0 : ℝ) < 2 ^ Q := by positivity
  have h4 : 4 * (2 * (l + 1) * 2 ^ Q) - 2 ^ (Q + 1) = 2 * ((2 * l + 1) * 2 ^ Q + (2 * l + 1 + 1) * 2 ^ Q) :=
    Nat.sub_eq_of_eq_add (by ring)
  have h2 : 2 * (2 * (l + 1) * 2 ^ Q) - 2 ^ (Q + 1) = 2 * ((2 * l + 1) * 2 ^ Q) :=
    Nat.sub_eq_of_eq_add (by ring)
  have hkl : k < 2 * (l + 1) := by exact_mod_cast lt_of_mul_lt_mul_right (hk.trans_lt hlt) hpos.le
  rw [h4, h2]
  simp only [Bool.ite_eq_true_distrib, Bool.and_eq_true, beq_iff_eq, bne_iff_ne, ne_eq, hx.gt_iff, hx.lt_iff]
  push_cast
  rcases (by omega : k < 2 * l + 1 ∨ k = 2 * l + 1) with h | rfl
  · have hρ : ρ < (2 * l + 1) * 2 ^ Q := hk1.trans_le (mul_le_mul_of_nonneg_right (by exact_mod_cast h) hpos.le)
    refine iff_of_false (by rw [hc]; split <;> omega) ?_
    split
    · intro h; linarith
    · rintro ⟨_, h⟩; linarith
  · have htop : p.1 = 2 * (l + 1) ↔ ρ ≠ (2 * l + 1) * 2 ^ Q ∧
        Machine.takesUpper rm neg true ((2 * l + 1) * 2 ^ Q) ((2 * l + 1 + 1) * 2 ^ Q) x = true := by
      rw [hc, show (2 * l + 1 + 1) % 2 = 0 by omega]
      push_cast
      split <;> simp [*] <;> omega
    push_cast at hk hk1
    rw [htop, Machine.takesUpper]
    split
    · simp only [Bool.and_true, Bool.or_eq_true, beq_iff_eq, hx.gt_iff, hx.eq_iff]
      push_cast
      rw [eq_comm, ← le_iff_lt_or_eq, not_lt]
      refine ⟨fun ⟨_, h⟩ => by linarith, fun h => ⟨by rintro rfl; linarith, by linarith⟩⟩
    · rw [and_comm, mul_lt_mul_iff_right₀ two_pos]
      exact and_congr_right (fun _ => ⟨fun hne => hk.lt_of_ne' hne, ne_of_gt⟩)

end

/-- What an overflow delivers (02_numbers R34), as `Rounded` has it. -/
theorem overflow_saturates (r : Rnd) (neg : Bool) :
    (r.sat || !overflowInf r.mode neg) = !decide (r.sat = false ∧ (r.mode = .rne ∨ Machine.away r.mode neg = true)) := by
  obtain ⟨mode, sat⟩ := r
  cases mode <;> cases sat <;> cases neg <;> rfl

/-- `roundMag` with its exponents as natural numbers: `j` is the distance of the place rounded to from that of the least magnitude. -/
theorem Fmt.roundMag_eq {f : Fmt} (hf : f.Regular) (r : Rnd) (neg : Bool) {m E : Nat} (st : Bool) (hm : m ≠ 0) (hE : f.mb ≤ E) :
    let T := E + m.log2
    let j := T - f.mb - f.base
    let p := roundAt r.mode neg m (E - 800) st ((f.base + j : Nat) - 800)
    let pu := roundAt r.mode neg m (E - 800) st ((T - f.mb : Nat) - 800)
    f.roundMag r neg m (E - 800) st =
      if f.maxc < j * 2 ^ f.mb + p.1 then
        ⟨(if r.sat = false ∧ (r.mode = .rne ∨ Machine.away r.mode neg = true) then f.maxc + 1 else f.maxc) + f.signBit neg, 5⟩
      else
        ⟨j * 2 ^ f.mb + p.1 + f.signBit neg,
          if p.2 then 0
          else if decide (T < f.base + f.mb) && !(decide (T + 1 = f.base + f.mb) && pu.1 == 2 ^ (f.mb + 1)) then 3 else 1⟩ := by
  intro T j p pu
  have hroom := hf.room
  have hbase : f.base = 801 - f.bias - f.mb := rfl
  have hT : T = E + m.log2 := rfl
  have htop : (E : Int) - 800 + bitLen m - 1 = T - 800 := by rw [bitLen, if_neg hm, hT]; push_cast; ring
  have hemin : f.emin = f.base - 800 := by rw [Fmt.emin]; omega
  have hq : max (((T - f.mb : Nat) : Int) - 800) (f.base - 800) = (f.base + j : Nat) - 800 := by omega
  have hqu : (T : Int) - 800 - f.mb = (T - f.mb : Nat) - 800 := by omega
  have hj : (((f.base + j : Nat) : Int) - 800 - (f.base - 800)).toNat = j := by omega
  have hlow : decide ((T : Int) - 800 < 1 - f.bias) = decide (T < f.base + f.mb) := decide_eq_decide.2 (by omega)
  have hnext : decide ((T : Int) - 800 = -f.bias) = decide (T + 1 = f.base + f.mb) := decide_eq_decide.2 (by omega)
  simp only [Fmt.roundMag, htop, hemin, hq, hqu, hj, hlow, hnext, hf.nan, hf.beyond, overflow_saturates, if_true, Bool.not_eq_true',
    decide_eq_false_iff_not, ite_not]
  rfl

section
variable {f : Fmt} {rm : RMode} {neg : Bool} {x : Nat → Nat → Ordering} {ρ : ℝ}

/-- A magnitude is tiny (02_numbers R43, notes/assumptions/9.md) where it is below the least normal one and does not round up to it with
unbounded exponent: `pu` is that rounding, `T` the exponent of the magnitude. -/
theorem tiny_eq (hx : Measures x ρ) (hf : f.Regular) {T : Nat} {pu : Nat × Bool} (hT : f.mb ≤ T) (hlo : 2 ^ T ≤ ρ) (hhi : ρ < 2 ^ (T + 1))
    (hp : RoundsTo rm neg x ρ (T - f.mb) pu) :
    (decide (T < f.base + f.mb) && !(decide (T + 1 = f.base + f.mb) && pu.1 == 2 ^ (f.mb + 1))) =
      (x 1 (2 ^ (f.base + f.mb)) == .lt &&
        !(if rm = .rne then x 4 (4 * 2 ^ (f.base + f.mb) - 2 ^ f.base) != .lt
          else Machine.away rm neg && x 2 (2 * 2 ^ (f.base + f.mb) - 2 ^ f.base) == .gt)) := by
  have hpow {a b : Nat} (h : a ≤ b) : (2 : ℝ) ^ a ≤ 2 ^ b := pow_le_pow_right₀ one_le_two h
  have hbelow : x 1 (2 ^ (f.base + f.mb)) = .lt ↔ T < f.base + f.mb := by
    rw [hx.lt_iff, Nat.cast_one, one_mul, Nat.cast_pow, Nat.cast_ofNat]
    exact ⟨fun h => by_contra (fun hn => (h.trans_le (hpow (not_lt.1 hn))).not_ge hlo), fun h => hhi.trans_le (hpow h)⟩
  rw [show (x 1 (2 ^ (f.base + f.mb)) == .lt) = decide (T < f.base + f.mb) by rw [Bool.eq_iff_iff]; simp [hbelow]]
  by_cases hnormal : T < f.base + f.mb
  · by_cases hnext : T + 1 = f.base + f.mb
    · obtain ⟨Q, rfl⟩ : ∃ Q, T = Q + f.mb := ⟨T - f.mb, by omega⟩
      have hbase : f.base = Q + 1 := by omega
      have htop : (2 : ℕ) ^ (Q + 1 + f.mb) = 2 * 2 ^ f.mb * 2 ^ Q := by ring
      have hiff := hp.eq_top_iff hx (n := 2 ^ f.mb) (Nat.two_pow_pos _) (hhi.trans_eq (by push_cast; rw [Nat.add_sub_cancel]; ring))
      rw [Nat.add_sub_cancel] at hiff
      rw [hbase, htop, ← Bool.eq_iff_iff.2 ((beq_iff_eq (a := pu.1) (b := 2 * 2 ^ f.mb)).trans hiff), pow_succ, mul_comm 2]
      simp [Nat.add_right_comm]
    · have hfar : ¬ (if rm = .rne then x 4 (4 * 2 ^ (f.base + f.mb) - 2 ^ f.base) != .lt
          else Machine.away rm neg && x 2 (2 * 2 ^ (f.base + f.mb) - 2 ^ f.base) == .gt) = true := by
        obtain ⟨n, hn⟩ : ∃ n, f.base + f.mb = n + 1 := ⟨f.base + f.mb - 1, by omega⟩
        have hmb := hf.mb_pos
        have hunit : 2 ^ f.base ≤ 2 ^ n := Nat.pow_le_pow_right two_pos (by omega)
        have hρ : ρ < 2 ^ n := hhi.trans_le (hpow (by omega))
        have hsub {a : Nat} (ha : 1 ≤ a) : ((a * (2 * 2 ^ n) - 2 ^ f.base : Nat) : ℝ) ≥ a * 2 ^ n := by
          have : a * 2 ^ n ≤ a * (2 * 2 ^ n) - 2 ^ f.base := by
            have : 2 ^ n ≤ a * 2 ^ n := Nat.le_mul_of_pos_left _ ha
            rw [Nat.mul_left_comm]; omega
          exact_mod_cast this
        rw [hn, pow_succ']
        simp only [Bool.ite_eq_true_distrib, Bool.and_eq_true, beq_iff_eq, bne_iff_ne, ne_eq, hx.gt_iff, hx.lt_iff]
        split
        · rw [not_not]
          have := hsub (a := 4) (by omega)
          push_cast at this ⊢
          linarith
        · rintro ⟨_, h⟩
          have := hsub (a := 2) (by omega)
          push_cast at this h
          linarith
      rw [Bool.not_eq_true] at hfar
      simp [hnext, hfar]
  · simp [hnormal]

/-- The power of two below a magnitude. -/
theorem Stands.binade {m E : Nat} {st : Bool} (hs : Stands m E st ρ) (hm : m ≠ 0) : 2 ^ (E + m.log2) ≤ ρ ∧ ρ < 2 ^ (E + m.log2 + 1) := by
  have hlo : (2 : ℝ) ^ (E + m.log2) = ((2 ^ m.log2 : Nat) : ℝ) * 2 ^ E := by push_cast; ring
  have hhi : (2 : ℝ) ^ (E + m.log2 + 1) = ((2 ^ (m.log2 + 1) : Nat) : ℝ) * 2 ^ E := by push_cast; ring
  rw [hlo, hhi, ← not_lt, hs.lt_iff, hs.lt_iff, not_lt]
  exact ⟨Nat.log2_self_le hm, Nat.lt_log2_self⟩

/-- What `Rounded` asks holds of the code beside a magnitude, with the flags of its being beyond, exact and tiny. -/
theorem Fmt.Beside.rounded {f : Fmt} (hf : f.Regular) {r : Rnd} (hx : Measures x ρ) {c : Nat} {exact : Bool}
    (hb : f.Beside r.mode neg x ρ c exact) :
    Machine.Rounded f r neg x
      (if f.maxc < c then
        ⟨(if r.sat = false ∧ (r.mode = .rne ∨ Machine.away r.mode neg = true) then f.maxc + 1 else f.maxc) + f.signBit neg, 5⟩
      else
        ⟨c + f.signBit neg, if exact then 0 else if
          (x 1 (2 ^ (f.base + f.mb)) == .lt &&
            !(if r.mode = .rne then x 4 (4 * 2 ^ (f.base + f.mb) - 2 ^ f.base) != .lt
              else Machine.away r.mode neg && x 2 (2 * 2 ^ (f.base + f.mb) - 2 ^ f.base) == .gt)) then 3 else 1⟩) := by
  have htop := hf.top
  have hv (c : Nat) (hc : c ≤ f.maxc) : Machine.magOf 800 f c = f.ladder c := Fmt.magOf_eq_ladder hf (by omega)
  have hstep := f.ladder_step hf.normal hf.inner
  have hover := hb.beyond_iff hx f.maxc
  have hone : 1 ≤ f.maxc := Nat.one_le_two_pow.trans hf.normal
  obtain ⟨lo, hlo, hhi, hexact, hc⟩ := hb
  have hclo : lo ≤ c ∧ c ≤ lo + 1 := by rw [hc]; split <;> omega
  have hlt (n : Nat) : x 1 (f.ladder n) = .lt ↔ ρ < f.ladder n := by rw [hx.lt_iff, Nat.cast_one, one_mul]
  have heq (n : Nat) : x 1 (f.ladder n) = .eq ↔ ρ = f.ladder n := by rw [hx.eq_iff, Nat.cast_one, one_mul]
  have hexact' : x 1 (f.ladder c) = .eq ↔ exact = true := by
    rw [heq, hexact, hc]
    split
    · next h => simp [h.1, hhi.ne]
    · rfl
  have hunit : Machine.magOf 800 f 1 = 2 ^ f.base := (hv 1 hone).trans Fmt.ladder_one
  have hnormal : Machine.magOf 800 f (2 ^ f.mb) = 2 ^ (f.base + f.mb) := (hv _ hf.normal).trans f.ladder_normal
  have hhalf : 2 * f.ladder f.maxc + (f.ladder f.maxc - f.ladder (f.maxc - 1)) = f.ladder f.maxc + f.ladder (f.maxc + 1) := by
    rw [two_mul, add_assoc, hstep]
  simp only [Machine.Rounded, hunit, hnormal, hv _ le_rfl, hv (f.maxc - 1) (Nat.sub_le ..), hhalf, hstep]
  refine ⟨fun h => ?_, fun h => ?_⟩
  · rw [if_pos (hover.2 h)]; rfl
  · have hcmax : c ≤ f.maxc := not_lt.1 (fun hn => Bool.false_ne_true (h.symm.trans (hover.1 hn)))
    refine ⟨c, hcmax, ?_, fun hge => ?_, fun hless => ?_⟩
    · rw [if_neg hcmax.not_gt, hv c hcmax]
      simp only [hexact']
      rfl
    · rw [Ne, hlt] at hge
      have : f.maxc < lo + 1 := f.ladder_strictMono.lt_iff_lt.1 (by exact_mod_cast (not_lt.1 hge).trans_lt hhi)
      omega
    · rw [hlt] at hless
      have hmax : lo < f.maxc := f.ladder_strictMono.lt_iff_lt.1 (by exact_mod_cast hlo.trans_lt hless)
      refine ⟨lo, hmax, ?_, ?_, ?_⟩
      · rw [hv lo hmax.le, Ne, hlt]; exact hlo.not_gt
      · rw [hv _ hmax, hlt]; exact hhi
      · simp only [hv lo hmax.le, hv _ hmax, Ne, heq]; exact hc

/-- `round` rounds (02_numbers R33, R34, R43): the code, the overflow and the flags. A sticky bit needs two places below the last of
the significand. -/
theorem Fmt.roundMag_rounded {f : Fmt} (hf : f.Regular) (r : Rnd) {m E : Nat} {st : Bool} (hx : Measures x ρ) (hs : Stands m E st ρ)
    (hm : m ≠ 0) (hE : f.mb ≤ E) (hst : st = true → 2 ^ (f.mb + 1) ≤ m) : Machine.Rounded f r neg x (f.roundMag r neg m (E - 800) st) := by
  obtain ⟨hlo, hhi⟩ := hs.binade hm
  have hlog : st = true → f.mb + 1 ≤ m.log2 := fun h => (Nat.le_log2 hm).2 (hst h)
  have hpu : RoundsTo r.mode neg x ρ (E + m.log2 - f.mb) _ := roundAt_roundsTo hs hx r.mode neg (fun h => by have := hlog h; omega)
  have hp : RoundsTo r.mode neg x ρ (f.base + (E + m.log2 - f.mb - f.base)) _ :=
    roundAt_roundsTo hs hx r.mode neg (fun h => by have := hlog h; omega)
  have hb : f.Beside _ _ _ _ _ _ := hp.beside hf ?_ ?_
  · rw [Fmt.roundMag_eq hf r neg st hm hE, tiny_eq hx hf (T := E + m.log2) (by omega) hlo hhi hpu]
    exact hb.rounded hf hx
  · rcases Nat.eq_zero_or_pos (E + m.log2 - f.mb - f.base) with h | h
    · exact .inl h
    · rw [show f.base + (E + m.log2 - f.mb - f.base) + f.mb = E + m.log2 by omega]
      exact .inr hlo
  · exact hhi.trans_le (pow_le_pow_right₀ one_le_two (by omega))

end

end Sys2Proof.Machine

end

/-! ## Codes and their values; sums, products and the fused words (02_numbers R20 to R24, 07_core_vector R130, R131, R137) -/

section

open Sys2Proof Sys2Proof.Machine

namespace Sys2Proof.Machine

/-! ### What a code stands for -/

/-- The magnitude of a finite code is `m` times `2^E` units of `2^-800`, whatever the unit it is told in. -/
structure Fmt.IsMag (f : Fmt) (c m E : Nat) : Prop where
  magOf : ∀ k, 150 ≤ k → Machine.magOf k f c = m * 2 ^ (E + k - 800)
  sig : m < 2 ^ (f.mb + 1)
  low : 650 ≤ E
  high : E ≤ 1056

theorem Fmt.IsMag.mag {f : Fmt} {c m E : Nat} (h : f.IsMag c m E) : Machine.magOf 800 f c = m * 2 ^ E := by
  rw [h.magOf 800 (by omega), Nat.add_sub_cancel]

/-- What a code that is no NaN reads as. -/
inductive Fmt.Reads (f : Fmt) (c : Nat) : Prop
  | inf (hi : Machine.infCode f c = true) (hz : Machine.zeroCode f c = false) (hv : f.val c = .inf (Machine.signOf f c))
  | fin (hi : Machine.infCode f c = false) (m E : Nat) (hz : Machine.zeroCode f c = decide (m = 0))
    (hv : f.val c = .fin (Machine.signOf f c) m (E - 800)) (hm : f.IsMag c m E)

section
variable {f : Fmt} (hf : f.Regular)
include hf

theorem Fmt.isNan_eq : f.isNan = Machine.nanCode f := by
  funext c
  have hover := hf.beyond
  rw [Bool.eq_iff_iff]
  cases hi : f.hasInf with
  | false => rw [Fmt.isNan, Machine.nanCode, hf.nan, hi]; rfl
  | true =>
    rw [hi, if_pos rfl] at hover
    simp [Fmt.isNan, Machine.nanCode, hf.nan, hi, hover, Fmt.mag]

theorem Fmt.isSNan_eq : f.isSNan = Machine.signals f := by
  funext c
  rw [Fmt.isSNan, Fmt.isNan_eq hf, Machine.signals]

theorem Fmt.isInf_eq (c : Nat) : (f.hasInf && (f.mag c == f.infc)) = Machine.infCode f c := by
  have hover := hf.beyond
  cases hi : f.hasInf with
  | false => simp [Machine.infCode, hi]
  | true =>
    rw [hi, if_pos rfl] at hover
    simp [Machine.infCode, hi, hover, Fmt.mag]

theorem Fmt.infc_of_infCode {c : Nat} (h : Machine.infCode f c = true) : f.infc = f.maxc + 1 := by
  have hover := hf.beyond
  simp only [Machine.infCode, Bool.and_eq_true] at h
  rwa [h.1, if_pos rfl] at hover

theorem Fmt.val_nan {c : Nat} (h : Machine.nanCode f c = true) : f.val c = .nan := by
  rw [Fmt.val, Fmt.isNan_eq hf, h, if_pos rfl]

theorem Fmt.val_eq {c : Nat} (h : Machine.nanCode f c = false) :
    f.val c = if Machine.infCode f c then .inf (Machine.signOf f c)
      else if c / 2 ^ f.mb % 2 ^ f.eb = 0 then .fin (Machine.signOf f c) (c % 2 ^ f.mb) f.emin
      else .fin (Machine.signOf f c) (c % 2 ^ f.mb + 2 ^ f.mb) (f.emin + (c / 2 ^ f.mb % 2 ^ f.eb : Nat) - 1) := by
  rw [Fmt.val, Fmt.isNan_eq hf, h, if_neg Bool.false_ne_true, Fmt.isInf_eq hf, Fmt.mag_div, Fmt.mag_mod]
  rfl

omit hf in
theorem zeroCode_eq (c : Nat) : Machine.zeroCode f c = decide (c / 2 ^ f.mb % 2 ^ f.eb = 0 ∧ c % 2 ^ f.mb = 0) := by
  have hdiv := Nat.div_add_mod (f.mag c) (2 ^ f.mb)
  rw [Fmt.mag_div, Fmt.mag_mod] at hdiv
  rw [Bool.eq_iff_iff, Machine.zeroCode, show c % 2 ^ (f.eb + f.mb) = f.mag c from rfl, ← hdiv]
  simp

omit hf in
theorem zeroCode_of_infCode {c : Nat} (h : Machine.infCode f c = true) : Machine.zeroCode f c = false := by
  simp only [Machine.infCode, Bool.and_eq_true, beq_iff_eq] at h
  simp [Machine.zeroCode, h.2]

theorem Fmt.emin_eq : f.emin = f.base - 800 := by
  have hroom := hf.room
  have hbase : f.base = 801 - f.bias - f.mb := rfl
  rw [Fmt.emin]
  omega

theorem Fmt.isMag_subnormal {c : Nat} (he : c / 2 ^ f.mb % 2 ^ f.eb = 0) : f.IsMag c (c % 2 ^ f.mb) f.base := by
  have hroom := hf.room
  have hbase : f.base = 801 - f.bias - f.mb := rfl
  have hlt : c % 2 ^ f.mb < 2 ^ f.mb := Nat.mod_lt _ (Nat.two_pow_pos _)
  refine ⟨fun k hk => ?_, by rw [pow_succ]; omega, by omega, by omega⟩
  simp only [Machine.magOf, he, if_true, show k + 1 - f.bias - f.mb = f.base + k - 800 by omega]

theorem Fmt.isMag_normal {c : Nat} (he : c / 2 ^ f.mb % 2 ^ f.eb ≠ 0) :
    f.IsMag c (c % 2 ^ f.mb + 2 ^ f.mb) (f.base + (c / 2 ^ f.mb % 2 ^ f.eb - 1)) := by
  have hroom := hf.room
  have hbase : f.base = 801 - f.bias - f.mb := rfl
  have hbias := hf.bias_pos
  have hlt : c % 2 ^ f.mb < 2 ^ f.mb := Nat.mod_lt _ (Nat.two_pow_pos _)
  have hexp : c / 2 ^ f.mb % 2 ^ f.eb < 2 ^ f.eb := Nat.mod_lt _ (Nat.two_pow_pos _)
  have heb : 2 ^ f.eb ≤ 2 ^ 8 := Nat.pow_le_pow_right two_pos hf.eb_le
  refine ⟨fun k hk => ?_, by rw [pow_succ]; omega, by omega, by omega⟩
  simp only [Machine.magOf, he, if_false, add_comm (2 ^ f.mb),
    show k + c / 2 ^ f.mb % 2 ^ f.eb - f.bias - f.mb = f.base + (c / 2 ^ f.mb % 2 ^ f.eb - 1) + k - 800 by omega]

theorem Fmt.reads {c : Nat} (h : Machine.nanCode f c = false) : f.Reads c := by
  have hval := Fmt.val_eq hf h
  cases hi : Machine.infCode f c with
  | true =>
    rw [hi, if_pos rfl] at hval
    exact .inf hi (zeroCode_of_infCode hi) hval
  | false =>
    rw [hi, if_neg Bool.false_ne_true, Fmt.emin_eq hf] at hval
    by_cases he : c / 2 ^ f.mb % 2 ^ f.eb = 0
    · rw [if_pos he] at hval
      exact .fin hi _ _ (by simp [zeroCode_eq, he]) hval (Fmt.isMag_subnormal hf he)
    · rw [if_neg he] at hval
      refine .fin hi _ _ (by simp [zeroCode_eq, he]) (hval.trans ?_) (Fmt.isMag_normal hf he)
      congr 1
      omega

end

theorem infCode_of_nanCode {f : Fmt} {c : Nat} (h : Machine.nanCode f c = true) : Machine.infCode f c = false := by
  simp only [Machine.nanCode, decide_eq_true_iff] at h
  cases hi : f.hasInf with
  | false => simp [Machine.infCode, hi]
  | true => simp only [hi, Bool.toNat_true] at h; simp [Machine.infCode]; omega

theorem zeroCode_of_nanCode {f : Fmt} {c : Nat} (h : Machine.nanCode f c = true) : Machine.zeroCode f c = false := by
  simp only [Machine.nanCode, decide_eq_true_iff] at h
  simp [Machine.zeroCode]; omega

/-! ### NaN operands -/

section
variable {f : Fmt} (hf : f.Regular) {l : List Nat} {invalid : Bool} {y : Res} {result : Prop}
include hf

theorem nanOf_eq : nanOf f l = (l.find? (Machine.nanCode f)).map f.quiet := by rw [nanOf, Fmt.isNan_eq hf]

theorem nanOf_eq_none : nanOf f l = none ↔ ∀ c ∈ l, Machine.nanCode f c = false := by simp [nanOf_eq hf]

/-- The clause of the NaNs (02_numbers R23) of an operation that is not invalid beside a NaN. -/
theorem nanOr_intro (hsome : ∀ c, nanOf f l = some c → y = ⟨c, snanFlag f l⟩) (hinv : ∀ c ∈ l, Machine.nanCode f c = true → invalid = false)
    (hnone : (∀ c ∈ l, Machine.nanCode f c = false) → if invalid then y = ⟨f.cnan, 16⟩ else result) :
    Machine.NanOr f l invalid y result := by
  rw [Machine.NanOr]
  cases hfind : l.find? (Machine.nanCode f) with
  | none => exact hnone (by simpa using hfind)
  | some c =>
    have hc : invalid = false := hinv c (List.mem_of_find?_eq_some hfind) (List.find?_some hfind)
    rw [hsome (f.quiet c) (by rw [nanOf_eq hf, hfind]; rfl), snanFlag, Fmt.isSNan_eq hf, hc]
    simp [Fmt.quiet, flNV]

end

/-! ### Sums, products and the fused words -/

theorem signed_mul (n : Bool) (m k : Nat) : Machine.signed n (m * k) = Machine.signed n m * k := by
  cases n <;> simp [Machine.signed]

theorem ite_negVal_fin (s n : Bool) (m : Nat) (e : Int) : (if s then negVal (.fin n m e) else .fin n m e) = .fin (n ^^ s) m e := by
  cases s <;> simp [negVal]

theorem ite_negVal_inf (s n : Bool) : (if s then negVal (.inf n) else .inf n) = .inf (n ^^ s) := by
  cases s <;> simp [negVal]

theorem Fmt.addVal_inf_inf (f : Fmt) (r : Rnd) (n t : Bool) :
    f.addVal r (.inf n) (.inf t) = if n == t then ⟨f.infc + f.signBit n, 0⟩ else ⟨f.cnan, flNV⟩ := rfl

theorem Fmt.addVal_inf_fin (f : Fmt) (r : Rnd) (n t : Bool) (m : Nat) (e : Int) :
    f.addVal r (.inf n) (.fin t m e) = ⟨f.infc + f.signBit n, 0⟩ := rfl

theorem Fmt.addVal_fin_inf (f : Fmt) (r : Rnd) (n t : Bool) (m : Nat) (e : Int) :
    f.addVal r (.fin n m e) (.inf t) = ⟨f.infc + f.signBit t, 0⟩ := rfl

section
variable {f : Fmt} (hf : f.Regular)
include hf

/-- `round` of a nonzero value that has no sticky bit. -/
theorem Fmt.round_exact (r : Rnd) (neg : Bool) {m E : Nat} (hm : m ≠ 0) (hE : f.mb ≤ E) :
    Machine.Rounded f r neg (Machine.exactly (m * 2 ^ E)) (f.round r neg m (E - 800)) := by
  rw [Fmt.round, if_neg (by simp [hm])]
  exact Fmt.roundMag_rounded hf r (measures_exactly _) (stands_exact m E) hm hE (by simp)

/-- A sum in units of `2^(E - 800)`, delivered. -/
theorem deliverSum_sumIs (n1 n2 : Bool) (s : Int) {E : Nat} (hE : f.mb ≤ E) :
    Machine.SumIs f n1 n2 (s * 2 ^ E) (f.deliverSum rneN n1 n2 (s, E - 800)) := by
  have hpow : (0 : Int) < 2 ^ E := by positivity
  constructor
  · intro h
    obtain rfl : s = 0 := (mul_eq_zero.1 h).resolve_right hpow.ne'
    cases n1 <;> cases n2 <;> rfl
  · intro h
    have hs : s ≠ 0 := left_ne_zero_of_mul h
    have hneg : decide (s * 2 ^ E < 0) = decide (s < 0) := decide_eq_decide.2 (by simp [mul_neg_iff, hpow, hpow.not_gt])
    rw [hneg, Int.natAbs_mul, Int.natAbs_pow, Fmt.deliverSum, if_neg hs]
    exact Fmt.round_exact hf rneN _ (Int.natAbs_ne_zero.2 hs) hE

theorem addVal_fin_sumIs (n1 n2 : Bool) (m1 m2 : Nat) {E1 E2 : Nat} (h1 : f.mb ≤ E1) (h2 : f.mb ≤ E2) :
    Machine.SumIs f n1 n2 (Machine.signed n1 (m1 * 2 ^ E1) + Machine.signed n2 (m2 * 2 ^ E2))
      (f.addVal rneN (.fin n1 m1 (E1 - 800)) (.fin n2 m2 (E2 - 800))) := by
  have hmin : min ((E1 : Int) - 800) (E2 - 800) = (min E1 E2 : Nat) - 800 := by omega
  have hshift (E : Nat) : ((E : Int) - 800 - ((min E1 E2 : Nat) - 800)).toNat = E - min E1 E2 := by omega
  have hsum := deliverSum_sumIs hf n1 n2 (Machine.signed n1 (m1 * 2 ^ (E1 - min E1 E2)) + Machine.signed n2 (m2 * 2 ^ (E2 - min E1 E2)))
    (le_min h1 h2)
  have hpow {E m : Nat} (n : Bool) (h : min E1 E2 ≤ E) :
      Machine.signed n (m * 2 ^ (E - min E1 E2)) * 2 ^ min E1 E2 = Machine.signed n (m * 2 ^ E) := by
    rw [← Nat.sub_add_cancel h, pow_add, Nat.add_sub_cancel, ← mul_assoc, signed_mul n (m * _)]
    norm_cast
  rw [add_mul, hpow n1 (min_le_left ..), hpow n2 (min_le_right ..)] at hsum
  have hs : sumFin n1 m1 (E1 - 800) n2 m2 (E2 - 800) =
      (Machine.signed n1 (m1 * 2 ^ (E1 - min E1 E2)) + Machine.signed n2 (m2 * 2 ^ (E2 - min E1 E2)), ((min E1 E2 : Nat) : Int) - 800) := by
    simp only [sumFin, hmin, hshift, Machine.signed]
    norm_cast
  rw [Fmt.addVal, hs]
  exact hsum

/-- `VADD` and `VSUB` (07_core_vector R131). -/
theorem fpAdd_correct (a b : Nat) (sub : Bool) :
    Machine.NanOr f [a, b] (Machine.infCode f a && Machine.infCode f b && Machine.signOf f a != (Machine.signOf f b ^^ sub))
      (fpAdd f a b sub)
      (if Machine.infCode f a then fpAdd f a b sub = ⟨f.maxc + 1 + f.signBit (Machine.signOf f a), 0⟩
        else if Machine.infCode f b then fpAdd f a b sub = ⟨f.maxc + 1 + f.signBit (Machine.signOf f b ^^ sub), 0⟩
        else Machine.SumIs f (Machine.signOf f a) (Machine.signOf f b ^^ sub)
          (Machine.signed (Machine.signOf f a) (Machine.magOf 800 f a) +
            Machine.signed (Machine.signOf f b ^^ sub) (Machine.magOf 800 f b)) (fpAdd f a b sub)) := by
  refine nanOr_intro hf (fun c h => by rw [fpAdd, h]) (fun c hc hn => ?_) (fun hnan => ?_)
  · have := infCode_of_nanCode hn
    rcases List.mem_pair.1 hc with rfl | rfl <;> simp [this]
  · have hy : fpAdd f a b sub = f.addVal rneN (f.val a) (if sub then negVal (f.val b) else f.val b) := by
      rw [fpAdd, (nanOf_eq_none hf).2 hnan]
    rw [hy]
    have hmb := hf.room
    cases Fmt.reads hf (hnan a (by simp)) with
    | inf hia _ hva =>
      cases Fmt.reads hf (hnan b (by simp)) with
      | inf hib _ hvb =>
        rw [hva, hvb, ite_negVal_inf, hia, hib, Fmt.addVal_inf_inf, Fmt.infc_of_infCode hf hia]
        cases Machine.signOf f a <;> cases (Machine.signOf f b ^^ sub) <;> rfl
      | fin hib m E _ hvb _ =>
        rw [hva, hvb, ite_negVal_fin, hia, hib, Fmt.addVal_inf_fin, Fmt.infc_of_infCode hf hia]
        exact rfl
    | fin hia m E _ hva hma =>
      cases Fmt.reads hf (hnan b (by simp)) with
      | inf hib _ hvb =>
        rw [hva, hvb, ite_negVal_inf, hia, hib, Fmt.addVal_fin_inf, Fmt.infc_of_infCode hf hib]
        exact rfl
      | fin hib m' E' _ hvb hmb' =>
        rw [hva, hvb, ite_negVal_fin, hia, hib, hma.mag, hmb'.mag]
        exact addVal_fin_sumIs hf _ _ _ _ (by have := hma.low; omega) (by have := hmb'.low; omega)

end

/-- 0 × ∞ (02_numbers R23). -/
def zeroByInf (f : Fmt) (a b : Nat) : Bool :=
  (Machine.infCode f a && Machine.zeroCode f b) || (Machine.zeroCode f a && Machine.infCode f b)

/-- The product of two magnitudes, in units of `2^-800`. -/
def productMag (f : Fmt) (a b : Nat) : Nat := Machine.magOf 400 f a * Machine.magOf 400 f b

/-- What the product of two codes that are no NaNs reads as. -/
inductive ReadsProduct (f : Fmt) (a b : Nat) : Prop
  | invalid (h : zeroByInf f a b = true) (hv : mulVal (f.val a) (f.val b) = .nan)
  | inf (h : zeroByInf f a b = false) (hi : (Machine.infCode f a || Machine.infCode f b) = true) (hinf : f.infc = f.maxc + 1)
    (hv : mulVal (f.val a) (f.val b) = .inf (Machine.signOf f a ^^ Machine.signOf f b))
  | fin (h : zeroByInf f a b = false) (hi : (Machine.infCode f a || Machine.infCode f b) = false) (m E : Nat) (hE : f.mb ≤ E)
    (hp : productMag f a b = m * 2 ^ E)
    (hv : mulVal (f.val a) (f.val b) = .fin (Machine.signOf f a ^^ Machine.signOf f b) m (E - 800))

theorem mulVal_inf_inf (n t : Bool) : mulVal (.inf n) (.inf t) = .inf (n ^^ t) := rfl
theorem mulVal_inf_fin (n t : Bool) (m : Nat) (e : Int) : mulVal (.inf n) (.fin t m e) = if m = 0 then .nan else .inf (n ^^ t) := rfl
theorem mulVal_fin_inf (n t : Bool) (m : Nat) (e : Int) : mulVal (.fin n m e) (.inf t) = if m = 0 then .nan else .inf (n ^^ t) := rfl
theorem mulVal_fin_fin (n t : Bool) (m k : Nat) (e d : Int) : mulVal (.fin n m e) (.fin t k d) = .fin (n ^^ t) (m * k) (e + d) := rfl

section
variable {f : Fmt} (hf : f.Regular)
include hf

theorem readsProduct {a b : Nat} (ha : Machine.nanCode f a = false) (hb : Machine.nanCode f b = false) : ReadsProduct f a b := by
  have hroom := hf.room
  cases Fmt.reads hf ha with
  | inf hia hza hva =>
    have hinf := Fmt.infc_of_infCode hf hia
    cases Fmt.reads hf hb with
    | inf hib hzb hvb => exact .inf (by simp [zeroByInf, hza, hzb]) (by simp [hia]) hinf (by rw [hva, hvb, mulVal_inf_inf])
    | fin hib m E hzb hvb _ =>
      by_cases hm : m = 0
      · exact .invalid (by simp [zeroByInf, hia, hzb, hm]) (by rw [hva, hvb, mulVal_inf_fin, if_pos hm])
      · exact .inf (by simp [zeroByInf, hza, hzb, hm]) (by simp [hia]) hinf (by rw [hva, hvb, mulVal_inf_fin, if_neg hm])
  | fin hia m E hza hva hma =>
    cases Fmt.reads hf hb with
    | inf hib hzb hvb =>
      have hinf := Fmt.infc_of_infCode hf hib
      by_cases hm : m = 0
      · exact .invalid (by simp [zeroByInf, hza, hib, hm]) (by rw [hva, hvb, mulVal_fin_inf, if_pos hm])
      · exact .inf (by simp [zeroByInf, hza, hzb, hm]) (by simp [hib]) hinf (by rw [hva, hvb, mulVal_fin_inf, if_neg hm])
    | fin hib k D hzb hvb hmb =>
      have hE := hma.low
      have hD := hmb.low
      refine .fin (by simp [zeroByInf, hia, hib]) (by simp [hia, hib]) (m * k) (E + D - 800) (by omega) ?_ ?_
      · rw [productMag, hma.magOf 400 (by omega), hmb.magOf 400 (by omega),
          show E + D - 800 = E + 400 - 800 + (D + 400 - 800) by omega, pow_add, mul_mul_mul_comm]
      · rw [hva, hvb, mulVal_fin_fin, show (E : Int) - 800 + (D - 800) = ((E + D - 800 : Nat) : Int) - 800 by omega]

/-- `VMUL` (07_core_vector R131). -/
theorem fpMul_correct (a b : Nat) :
    Machine.NanOr f [a, b] (zeroByInf f a b) (fpMul f a b)
      (if Machine.infCode f a || Machine.infCode f b then
          fpMul f a b = ⟨f.maxc + 1 + f.signBit (Machine.signOf f a ^^ Machine.signOf f b), 0⟩
        else if productMag f a b = 0 then fpMul f a b = ⟨f.signBit (Machine.signOf f a ^^ Machine.signOf f b), 0⟩
        else Machine.Rounded f rneN (Machine.signOf f a ^^ Machine.signOf f b) (Machine.exactly (productMag f a b)) (fpMul f a b)) := by
  refine nanOr_intro hf (fun c h => by rw [fpMul, h]) (fun c hc hn => ?_) (fun hnan => ?_)
  · have := infCode_of_nanCode hn
    have := zeroCode_of_nanCode hn
    rcases List.mem_pair.1 hc with rfl | rfl <;> simp [zeroByInf, *]
  · have hy : fpMul f a b = f.deliver rneN (mulVal (f.val a) (f.val b)) := by rw [fpMul, (nanOf_eq_none hf).2 hnan]
    rw [hy]
    cases readsProduct hf (hnan a (by simp)) (hnan b (by simp)) with
    | invalid h hv => rw [h, hv]; rfl
    | inf h hi hinf hv =>
      have hover := hf.beyond
      rw [h, hi, hv, Fmt.deliver, hover]
      exact rfl
    | fin h hi m E hE hp hv =>
      rw [h, hi, hv, hp, Fmt.deliver]
      by_cases hm : m = 0
      · subst hm
        simp [Fmt.round]
      · have hne : m * 2 ^ E ≠ 0 := Nat.mul_ne_zero hm (Nat.two_pow_pos E).ne'
        simp only [Bool.false_eq_true, if_false, if_neg hne]
        exact Fmt.round_exact hf rneN _ hm hE

/-- An infinite product of two codes that are no NaNs (07_core_vector R137). -/
def infByAny (f : Fmt) (a b : Nat) : Bool :=
  (Machine.infCode f a && !Machine.nanCode f b) || (!Machine.nanCode f a && Machine.infCode f b)

omit hf in
/-- No product of a NaN is invalid or infinite. -/
theorem zeroByInf_of_nanCode {a b : Nat} (h : Machine.nanCode f a = true ∨ Machine.nanCode f b = true) :
    zeroByInf f a b = false ∧ infByAny f a b = false := by
  rcases h with h | h <;> simp [zeroByInf, infByAny, h, infCode_of_nanCode h, zeroCode_of_nanCode h]

/-- The third operand's NaN does not matter beside one of the first two. -/
theorem nanOf_pair {a b : Nat} (h : Machine.nanCode f a = true ∨ Machine.nanCode f b = true) (l : List Nat) :
    nanOf f [a, b] = nanOf f (a :: b :: l) ∧ ∃ c, nanOf f [a, b] = some c := by
  cases ha : Machine.nanCode f a with
  | true => simp [nanOf_eq hf, ha]
  | false => simp [nanOf_eq hf, ha, (by simpa [ha] using h : Machine.nanCode f b = true)]

/-- The fused words (07_core_vector R137). -/
theorem fpFma_correct (np nc : Bool) (a b c : Nat) :
    let n := (Machine.signOf f a ^^ Machine.signOf f b) ^^ np
    let t := Machine.signOf f c ^^ nc
    Machine.NanOr f [a, b, c] (zeroByInf f a b || (infByAny f a b && Machine.infCode f c && n != t)) (fpFma f np nc a b c)
      (if infByAny f a b then fpFma f np nc a b c = ⟨f.maxc + 1 + f.signBit n, 0⟩
        else if Machine.infCode f c then fpFma f np nc a b c = ⟨f.maxc + 1 + f.signBit t, 0⟩
        else Machine.SumIs f n t (Machine.signed n (productMag f a b) + Machine.signed t (Machine.magOf 800 f c))
          (fpFma f np nc a b c)) := by
  intro n t
  by_cases hab : Machine.nanCode f a = true ∨ Machine.nanCode f b = true
  · obtain ⟨hl, x, hx⟩ := nanOf_pair hf hab [c]
    obtain ⟨hz, hi⟩ := zeroByInf_of_nanCode hab
    refine nanOr_intro hf (fun y hy => ?_) (fun _ _ _ => by rw [hz, hi]; rfl) (fun hnan => ?_)
    · rw [← hl] at hy; rw [fpFma, hy]
    · rcases hab with h | h <;> simp [hnan] at h
  · obtain ⟨ha, hb⟩ : Machine.nanCode f a = false ∧ Machine.nanCode f b = false := by simpa using hab
    have hpair : nanOf f [a, b] = none := (nanOf_eq_none hf).2 (by simp [ha, hb])
    have hbig : infByAny f a b = (Machine.infCode f a || Machine.infCode f b) := by simp [infByAny, ha, hb]
    have hprod := readsProduct hf ha hb
    cases hc : Machine.nanCode f c with
    | true =>
      have hnanC : nanOf f [c] = some (f.quiet c) := by simp [nanOf_eq hf, hc]
      have hy : fpFma f np nc a b c = ⟨f.quiet c, if zeroByInf f a b then flNV else snanFlag f [c]⟩ := by
        rw [fpFma, hpair, hnanC]
        cases hprod with
        | invalid h hv => rw [hv, h]; rfl
        | inf h _ _ hv => rw [hv, h]; rfl
        | fin h _ m E _ _ hv => rw [hv, h]; rfl
      rw [hy]
      cases zeroByInf f a b <;> simp [Machine.NanOr, ha, hb, hc, infCode_of_nanCode hc, Machine.signals, Fmt.quiet, snanFlag,
        Fmt.isSNan, Fmt.isNan_eq hf, flNV]
    | false =>
      have hnanC : nanOf f [c] = none := (nanOf_eq_none hf).2 (by simp [hc])
      have hnone : [a, b, c].find? (Machine.nanCode f) = none := by simp [ha, hb, hc]
      have hy : fpFma f np nc a b c = if mulVal (f.val a) (f.val b) == .nan then ⟨f.cnan, flNV⟩
          else f.addVal rneN (if np then negVal (mulVal (f.val a) (f.val b)) else mulVal (f.val a) (f.val b))
            (if nc then negVal (f.val c) else f.val c) := by
        rw [fpFma, hpair, hnanC]
      rw [hy, Machine.NanOr, hnone, hbig]
      cases hprod with
      | invalid h hv => rw [h, hv]; rfl
      | inf h hi hinf hv =>
        rw [h, hi, hv, ite_negVal_inf]
        cases Fmt.reads hf hc with
        | inf hic _ hvc =>
          rw [hvc, hic, ite_negVal_inf, Fmt.addVal_inf_inf, hinf, show (Machine.signOf f a ^^ Machine.signOf f b ^^ np) = n from rfl,
            show (Machine.signOf f c ^^ nc) = t from rfl]
          clear_value n t
          cases n <;> cases t <;> rfl
        | fin hic m E _ hvc _ =>
          rw [hvc, hic, ite_negVal_fin, Fmt.addVal_inf_fin, hinf]
          exact rfl
      | fin h hi m E hE hp hv =>
        rw [h, hi, hv, ite_negVal_fin]
        cases Fmt.reads hf hc with
        | inf hic _ hvc =>
          rw [hvc, hic, ite_negVal_inf, Fmt.addVal_fin_inf, Fmt.infc_of_infCode hf hic]
          exact rfl
        | fin hic k D _ hvc hmc =>
          rw [hvc, hic, ite_negVal_fin, hp, hmc.mag]
          exact addVal_fin_sumIs hf _ _ _ _ hE (by have := hmc.low; have := hf.room; omega)

end

theorem floatingArithmetic : Machine.FloatingArithmetic := by
  intro f hmem a b c ha hb hc
  have hf := Fmt.regular_of_mem hmem
  exact ⟨fun sub => fpAdd_correct hf a b sub, fpMul_correct hf a b, fun np nc => fpFma_correct hf np nc a b c⟩

end Sys2Proof.Machine

end

/-! ## Quotients and square roots (07_core_vector R131, R132) -/

section

open Sys2Proof Sys2Proof.Machine

namespace Sys2Proof.Machine

/-! ### Quotients and square roots -/

/-- A quotient cut to an integer, with a sticky bit for what is left. -/
theorem stands_div (n E : Nat) {d : Nat} (hd : 0 < d) : Stands (n / d) E (n % d != 0) ((n : ℝ) / d * 2 ^ E) := by
  have hd' : (0 : ℝ) < d := by exact_mod_cast hd
  have hpow : (0 : ℝ) < 2 ^ E := by positivity
  have hn : ((d * (n / d) + n % d : Nat) : ℝ) = n := by rw [Nat.div_add_mod]
  have hmod : ((n % d : Nat) : ℝ) < d := by exact_mod_cast Nat.mod_lt n hd
  push_cast at hn
  refine ⟨?_, ?_, ?_⟩
  · exact mul_le_mul_of_nonneg_right ((le_div_iff₀ hd').2 (by linarith [(n % d : Nat).cast_nonneg (α := ℝ)])) hpow.le
  · exact mul_lt_mul_of_pos_right ((div_lt_iff₀ hd').2 (by linarith)) hpow
  · rw [mul_left_inj' hpow.ne', div_eq_iff hd'.ne', bne_eq_false_iff_eq]
    constructor
    · intro h; rw [h] at hn; push_cast at hn; linarith
    · intro h
      have : ((n % d : Nat) : ℝ) = 0 := by linarith
      exact_mod_cast this

/-- A square root cut to an integer, with a sticky bit for what is left. -/
theorem stands_sqrt {s n : Nat} (E : Nat) (hlo : s * s ≤ n) (hhi : n < (s + 1) * (s + 1)) : Stands s E (s * s != n) (√n * 2 ^ E) := by
  have hpow : (0 : ℝ) < 2 ^ E := by positivity
  refine ⟨?_, ?_, ?_⟩
  · exact mul_le_mul_of_nonneg_right ((Real.le_sqrt_of_sq_le (by rw [sq]; exact_mod_cast hlo))) hpow.le
  · exact mul_lt_mul_of_pos_right ((Real.sqrt_lt (by positivity) (by positivity)).2 (by rw [sq]; exact_mod_cast hhi)) hpow
  · rw [mul_left_inj' hpow.ne', bne_eq_false_iff_eq, Real.sqrt_eq_iff_mul_self_eq (by positivity) (by positivity), eq_comm]
    norm_cast

/-- `isqrt` is the integer part of the square root, where `n` bits are enough for what is still missing. -/
theorem isqrt_spec (m n acc : Nat) (hlo : acc * acc ≤ m) (hhi : m < (acc + 2 ^ n) * (acc + 2 ^ n)) :
    isqrt m n acc * isqrt m n acc ≤ m ∧ m < (isqrt m n acc + 1) * (isqrt m n acc + 1) := by
  induction n generalizing acc with
  | zero => exact ⟨hlo, hhi⟩
  | succ n ih =>
    rw [isqrt]
    split
    · next h => exact ih _ h (by rwa [add_assoc, ← two_mul, ← pow_succ'])
    · next h => exact ih _ hlo (not_le.1 h)

section
variable {f : Fmt} (hf : f.Regular)
include hf

/-- `round` of a value with a sticky bit. -/
theorem Fmt.round_stands (r : Rnd) (neg : Bool) {x : Nat → Nat → Ordering} {ρ : ℝ} {m E : Nat} {st : Bool} (hx : Measures x ρ)
    (hs : Stands m E st ρ) (hE : f.mb ≤ E) (hm : 2 ^ 24 ≤ m) : Machine.Rounded f r neg x (f.round r neg m (E - 800) st) := by
  have hbits : 2 ^ (f.mb + 1) ≤ m := (Nat.pow_le_pow_right two_pos (by have := hf.mb_le; omega)).trans hm
  have hm0 : m ≠ 0 := by omega
  rw [Fmt.round, if_neg (by simp [hm0])]
  exact Fmt.roundMag_rounded hf r hx hs hm0 hE (fun _ => hbits)

theorem Fmt.IsMag.sig_lt {c m E : Nat} (h : f.IsMag c m E) : m < 2 ^ 24 :=
  h.sig.trans_le (Nat.pow_le_pow_right two_pos (by have := hf.mb_le; omega))

/-- `round` of a quotient cut to an integer. -/
theorem round_ratio {X Z n d E : Nat} (neg : Bool) (hd : d ≠ 0) (hZ : Z ≠ 0) (h : X * d = n * 2 ^ E * Z) (hE : f.mb ≤ E)
    (hn : 2 ^ 24 * d ≤ n) : Machine.Rounded f rneN neg (Machine.ratio X Z) (f.round rneN neg (n / d) (E - 800) (n % d != 0)) := by
  have hρ : (X : ℝ) / Z = (n : ℝ) / d * 2 ^ E := by
    rw [div_mul_eq_mul_div, div_eq_div_iff (by exact_mod_cast hZ) (by exact_mod_cast hd)]
    exact_mod_cast h
  exact Fmt.round_stands hf rneN neg (measures_ratio X (Nat.pos_of_ne_zero hZ)) (hρ ▸ stands_div n E (Nat.pos_of_ne_zero hd)) hE
    ((Nat.le_div_iff_mul_le (Nat.pos_of_ne_zero hd)).2 hn)

theorem round_div {a b m1 m2 E1 E2 : Nat} (ha : f.IsMag a m1 E1) (hb : f.IsMag b m2 E2) (h1 : m1 ≠ 0) (h2 : m2 ≠ 0) (neg : Bool) :
    Machine.Rounded f rneN neg (Machine.ratio (Machine.magOf 800 f a * 2 ^ 800) (Machine.magOf 800 f b))
      (f.round rneN neg (m1 * 2 ^ 80 / m2) ((E1 - 800 : Int) - 80 - (E2 - 800)) (m1 * 2 ^ 80 % m2 != 0)) := by
  have hE1 := ha.low
  have hE2 := hb.high
  have hmb := hf.mb_le
  have hsig := Fmt.IsMag.sig_lt hf hb
  obtain ⟨E, hE⟩ : ∃ E, E1 + 800 = 80 + E + E2 := ⟨E1 + 720 - E2, by omega⟩
  rw [ha.mag, hb.mag, show (E1 - 800 : Int) - 80 - (E2 - 800) = E - 800 by omega]
  refine round_ratio hf neg h2 (Nat.mul_ne_zero h2 (Nat.two_pow_pos _).ne') ?_ (by omega) (by omega)
  rw [mul_assoc m1, ← pow_add, hE, pow_add, pow_add]
  ring

/-- `round` of a square root cut to an integer. -/
theorem round_root {X n s E : Nat} (h : X = n * (2 ^ E) ^ 2) (hlo : s * s ≤ n) (hhi : n < (s + 1) * (s + 1)) (hE : f.mb ≤ E)
    (hs : 2 ^ 24 ≤ s) : Machine.Rounded f rneN false (Machine.root X) (f.round rneN false s (E - 800) (s * s != n)) := by
  have hρ : √(X : ℝ) = √n * 2 ^ E := by
    rw [h, Nat.cast_mul, Real.sqrt_mul (by positivity), Nat.cast_pow, Real.sqrt_sq (by positivity), Nat.cast_pow, Nat.cast_ofNat]
  exact Fmt.round_stands hf rneN false (measures_root X) (hρ ▸ stands_sqrt E hlo hhi) hE hs

theorem round_sqrt {a m E : Nat} (ha : f.IsMag a m E) (hm : m ≠ 0) {odd : Bool} (hodd : odd = ((E - 800 : Int) % 2 != 0)) :
    let s := isqrt (m * 2 ^ (128 + odd.toNat)) 90 0
    Machine.Rounded f rneN false (Machine.root (Machine.magOf 800 f a * 2 ^ 800))
      (f.round rneN false s ((E - 800 - odd.toNat : Int) / 2 - 64) (s * s != m * 2 ^ (128 + odd.toNat))) := by
  intro s
  have hE := ha.low
  have hmb := hf.mb_le
  have hsig := Fmt.IsMag.sig_lt hf ha
  have hodd' : odd.toNat = E % 2 := by
    rw [hodd]
    rcases Nat.mod_two_eq_zero_or_one E with h | h
    · rw [h, show (E - 800 : Int) % 2 = 0 by omega]; rfl
    · rw [h, show (E - 800 : Int) % 2 = 1 by omega]; rfl
  obtain ⟨D, hD⟩ : ∃ D, E + 800 = 128 + odd.toNat + 2 * D := ⟨E / 2 + 336, by omega⟩
  have hbig : m * 2 ^ (128 + odd.toNat) < (0 + 2 ^ 90) * (0 + 2 ^ 90) := by
    calc m * 2 ^ (128 + odd.toNat) < 2 ^ 24 * 2 ^ (128 + odd.toNat) := Nat.mul_lt_mul_of_pos_right hsig (Nat.two_pow_pos _)
      _ ≤ 2 ^ 24 * 2 ^ 129 := Nat.mul_le_mul_left _ (Nat.pow_le_pow_right two_pos (by omega))
      _ ≤ (0 + 2 ^ 90) * (0 + 2 ^ 90) := by norm_num
  obtain ⟨hlo, hhi⟩ := isqrt_spec (m * 2 ^ (128 + odd.toNat)) 90 0 (Nat.zero_le _) hbig
  have hs : 2 ^ 24 ≤ s := by
    have h128 : 2 ^ 128 ≤ m * 2 ^ (128 + odd.toNat) :=
      (Nat.pow_le_pow_right two_pos (Nat.le_add_right ..)).trans (Nat.le_mul_of_pos_left _ (Nat.pos_of_ne_zero hm))
    by_contra hlt
    have : (s + 1) * (s + 1) ≤ 2 ^ 24 * 2 ^ 24 := Nat.mul_le_mul (by omega) (by omega)
    have := h128.trans_lt (hhi.trans_le this)
    norm_num at this
  rw [show (E - 800 - odd.toNat : Int) / 2 - 64 = D - 800 by omega]
  refine round_root hf ?_ hlo hhi (by omega) hs
  rw [ha.mag, mul_assoc, ← pow_add, hD, pow_add, ← mul_assoc, pow_mul']

/-- `VDIV` (07_core_vector R131). -/
theorem fpDiv_correct (a b : Nat) :
    let n := Machine.signOf f a ^^ Machine.signOf f b
    Machine.NanOr f [a, b] ((Machine.infCode f a && Machine.infCode f b) || (Machine.zeroCode f a && Machine.zeroCode f b)) (fpDiv f a b)
      (if Machine.infCode f a then fpDiv f a b = ⟨f.maxc + 1 + f.signBit n, 0⟩
        else if Machine.infCode f b ∨ Machine.zeroCode f a then fpDiv f a b = ⟨f.signBit n, 0⟩
        else if Machine.zeroCode f b then fpDiv f a b = ⟨f.maxc + 1 + f.signBit n, 8⟩
        else Machine.Rounded f rneN n (Machine.ratio (Machine.magOf 800 f a * 2 ^ 800) (Machine.magOf 800 f b)) (fpDiv f a b)) := by
  intro n
  refine nanOr_intro hf (fun c h => by rw [fpDiv, h]) (fun c hc hn => ?_) (fun hnan => ?_)
  · have := infCode_of_nanCode hn
    have := zeroCode_of_nanCode hn
    rcases List.mem_pair.1 hc with rfl | rfl <;> simp [*]
  · have hnone := (nanOf_eq_none hf).2 hnan
    cases Fmt.reads hf (hnan a (by simp)) with
    | inf hia hza hva =>
      cases Fmt.reads hf (hnan b (by simp)) with
      | inf hib hzb hvb => simp [fpDiv, hnone, hva, hvb, hia, hib, flNV]
      | fin hib m2 E2 hzb hvb _ =>
        simp [fpDiv, hnone, hva, hvb, hia, hib, hza, Fmt.infc_of_infCode hf hia, n]
    | fin hia m1 E1 hza hva hma =>
      cases Fmt.reads hf (hnan b (by simp)) with
      | inf hib hzb hvb => simp [fpDiv, hnone, hva, hvb, hia, hib, hzb, n]
      | fin hib m2 E2 hzb hvb hmb =>
        by_cases h1 : m1 = 0
        · by_cases h2 : m2 = 0 <;> simp [fpDiv, hnone, hva, hvb, hia, hib, hza, hzb, h1, h2, flNV, n]
        · by_cases h2 : m2 = 0
          · simp [fpDiv, hnone, hva, hvb, hia, hib, hza, hzb, h1, h2, flDZ, hf.beyond, n]
          · have hy : fpDiv f a b = f.round rneN n (m1 * 2 ^ 80 / m2) ((E1 - 800 : Int) - 80 - (E2 - 800)) (m1 * 2 ^ 80 % m2 != 0) := by
              simp only [fpDiv, hnone, hva, hvb, h1, h2, if_false, n, Bool.bne_eq_xor]
            simp only [hia, hib, hza, hzb, h1, h2, decide_false, Bool.and_false, Bool.or_false, Bool.false_eq_true, or_false, if_false, hy]
            exact round_div hf hma hmb h1 h2 n

/-- `VSQRT` (07_core_vector R132). -/
theorem fpSqrt_correct (a : Nat) :
    Machine.NanOr f [a] (Machine.signOf f a && !Machine.zeroCode f a && !Machine.nanCode f a) (fpSqrt f a)
      (if Machine.zeroCode f a ∨ Machine.infCode f a then fpSqrt f a = ⟨a, 0⟩
        else Machine.Rounded f rneN false (Machine.root (Machine.magOf 800 f a * 2 ^ 800)) (fpSqrt f a)) := by
  refine nanOr_intro hf (fun c h => by rw [fpSqrt, h]) (fun c hc hn => ?_) (fun hnan => ?_)
  · obtain rfl := List.mem_singleton.1 hc
    simp [hn]
  · have hnone := (nanOf_eq_none hf).2 hnan
    have hna := hnan a (by simp)
    cases Fmt.reads hf hna with
    | inf hia hza hva => cases hs : Machine.signOf f a <;> simp [fpSqrt, hnone, hva, hia, hza, hna, hs, flNV]
    | fin hia m E hza hva hma =>
      by_cases hm : m = 0
      · simp [fpSqrt, hnone, hva, hia, hza, hm]
      · cases hs : Machine.signOf f a with
        | true => simp [fpSqrt, hnone, hva, hza, hm, hs, hna, flNV]
        | false =>
          have hy : fpSqrt f a = f.round rneN false (isqrt (m * 2 ^ (128 + ((E - 800 : Int) % 2 != 0).toNat)) 90 0)
              ((E - 800 - ((E - 800 : Int) % 2 != 0).toNat : Int) / 2 - 64)
              (isqrt (m * 2 ^ (128 + ((E - 800 : Int) % 2 != 0).toNat)) 90 0 * isqrt (m * 2 ^ (128 + ((E - 800 : Int) % 2 != 0).toNat)) 90 0
                != m * 2 ^ (128 + ((E - 800 : Int) % 2 != 0).toNat)) := by
            simp only [fpSqrt, hnone, hva, hm, hs, if_false, Bool.false_eq_true]
          simp only [hia, hza, hm, decide_false, Bool.false_and, Bool.false_eq_true, or_false, if_false, hy]
          exact round_sqrt hf hma hm rfl

end

theorem quotientsAndRoots : Machine.QuotientsAndRoots := by
  intro f hmem a b ha hb
  have hf := Fmt.regular_of_mem hmem
  exact ⟨fpDiv_correct hf a b, fpSqrt_correct hf a⟩

end Sys2Proof.Machine

end

/-! ## The order of values (07_core_vector R131, R138) -/

section

open Sys2Proof Sys2Proof.Machine

namespace Sys2Proof.Machine

/-! ### The order of values -/

/-- The sign and the magnitude code make the code. -/
theorem Fmt.eq_of_sign_mag {f : Fmt} {a b : Nat} (ha : a < 2 ^ f.width) (hb : b < 2 ^ f.width) (hs : f.sign a = f.sign b)
    (hm : f.mag a = f.mag b) : a = b := by
  have hdiv {c : Nat} (hc : c < 2 ^ f.width) : c / 2 ^ (f.eb + f.mb) < 2 := Nat.div_lt_of_lt_mul (by rwa [← pow_succ])
  have hd : a / 2 ^ (f.eb + f.mb) = b / 2 ^ (f.eb + f.mb) := by
    have h := hs
    simp only [Fmt.sign, Nat.testBit_eq_decide_div_mod_eq, decide_eq_decide] at h
    have hx := hdiv ha
    have hy := hdiv hb
    generalize a / 2 ^ (f.eb + f.mb) = x at *
    generalize b / 2 ^ (f.eb + f.mb) = y at *
    omega
  rw [← Nat.div_add_mod a (2 ^ (f.eb + f.mb)), ← Nat.div_add_mod b (2 ^ (f.eb + f.mb)), hd, show a % _ = _ from hm]; rfl

section
variable {f : Fmt} (hf : f.Regular)
include hf

theorem Fmt.magOf_eq_ladder_mag (c : Nat) : Machine.magOf 800 f c = f.ladder (f.mag c) := by
  rw [← Fmt.magOf_eq_ladder hf (show f.mag c < _ from Nat.mod_lt _ (Nat.two_pow_pos _)), Fmt.magOf_mag]

theorem Fmt.ladder_lt {c n : Nat} (hc : c < 2 ^ (f.eb + f.mb)) (hn : 950 ≤ n) : f.ladder c < 2 ^ n := by
  have hmb := hf.mb_le
  have heb := hf.exp_le
  have hexp : c / 2 ^ f.mb < 2 ^ f.eb := Nat.div_lt_of_lt_mul (by rwa [← pow_add, add_comm])
  have hroom := hf.room
  have hbase : f.base = 801 - f.bias - f.mb := rfl
  have hsig : (if c / 2 ^ f.mb = 0 then c % 2 ^ f.mb else 2 ^ f.mb + c % 2 ^ f.mb) < 2 ^ (f.mb + 1) := by
    have := Nat.mod_lt c (Nat.two_pow_pos f.mb)
    rw [pow_succ]; split <;> omega
  have hlt : f.ladder c < 2 ^ (f.mb + 1 + (f.base + (c / 2 ^ f.mb - 1))) := by
    rw [pow_add _ (f.mb + 1)]
    exact Nat.mul_lt_mul_of_pos_right hsig (Nat.two_pow_pos _)
  exact hlt.trans_le (Nat.pow_le_pow_right two_pos (by omega))

end

/-- A code's magnitude with the infinities beyond every finite one. -/
def Fmt.extent (f : Fmt) (c : Nat) : Nat := if Machine.infCode f c then 2 ^ 2000 else Machine.magOf 800 f c

section
variable {f : Fmt} (hf : f.Regular) {a b : Nat}
include hf

/-- Among the codes that are no NaNs the magnitude rises with the magnitude code. -/
theorem Fmt.extent_lt_iff (ha : Machine.nanCode f a = false) (hb : Machine.nanCode f b = false) :
    f.extent a < f.extent b ↔ f.mag a < f.mag b := by
  have hlt (c : Nat) : f.mag c < 2 ^ (f.eb + f.mb) := Nat.mod_lt _ (Nat.two_pow_pos _)
  have hinf {c : Nat} (h : Machine.infCode f c = true) : f.mag c = f.maxc + 1 ∧ f.hasInf = true := by
    simpa [Machine.infCode, Fmt.mag, and_comm] using h
  have hfin {c : Nat} (h : Machine.infCode f c = false) (hn : Machine.nanCode f c = false) : f.mag c ≤ f.maxc := by
    cases hi : f.hasInf <;> simp [Machine.infCode, Machine.nanCode, hi] at h hn <;> simp [Fmt.mag] <;> omega
  have hbelow (c : Nat) : f.ladder (f.mag c) < 2 ^ 2000 := Fmt.ladder_lt hf (hlt c) (by omega)
  rw [Fmt.extent, Fmt.extent, Fmt.magOf_eq_ladder_mag hf, Fmt.magOf_eq_ladder_mag hf]
  generalize 2 ^ 2000 = top at hbelow ⊢
  cases hia : Machine.infCode f a <;> cases hib : Machine.infCode f b
  · simp [f.ladder_strictMono.lt_iff_lt]
  · have := hfin hia ha
    have := (hinf hib).1
    simp [hbelow a]; omega
  · have := hfin hib hb
    have := (hinf hia).1
    have := hbelow b
    simp only [if_true, Bool.false_eq_true, if_false]; omega
  · simp [(hinf hia).1, (hinf hib).1]

theorem Fmt.signed_extent_lt_iff (ha : Machine.nanCode f a = false) (hb : Machine.nanCode f b = false) (s t : Bool) :
    Machine.signed s (f.extent a) < Machine.signed t (f.extent b) ↔ Machine.signed s (f.mag a) < Machine.signed t (f.mag b) := by
  have hzero : Machine.nanCode f 0 = false := by simp [Machine.nanCode]
  have h0 : f.extent 0 = 0 := by simp [Fmt.extent, Machine.infCode, Machine.magOf]
  have hpos {c : Nat} (hc : Machine.nanCode f c = false) : 0 < f.extent c ↔ 0 < f.mag c := by
    have := Fmt.extent_lt_iff hf hzero hc
    simpa [h0, Fmt.mag] using this
  have hlt := Fmt.extent_lt_iff hf ha hb
  have hgt := Fmt.extent_lt_iff hf hb ha
  have hpa := hpos ha
  have hpb := hpos hb
  generalize f.extent a = x at *
  generalize f.extent b = y at *
  cases s <;> cases t <;> simp [Machine.signed] <;> omega

/-- The order of two codes' values, told by their magnitude codes. -/
theorem Fmt.fpCmp_correct (ha : Machine.nanCode f a = false) (hb : Machine.nanCode f b = false) :
    fpCmp f a b = if Machine.signed (f.sign a) (f.extent a) < Machine.signed (f.sign b) (f.extent b) then -1
      else if Machine.signed (f.sign a) (f.extent a) = Machine.signed (f.sign b) (f.extent b) then 0 else 1 := by
  have hlt := Fmt.signed_extent_lt_iff hf ha hb (f.sign a) (f.sign b)
  have hgt := Fmt.signed_extent_lt_iff hf hb ha (f.sign b) (f.sign a)
  have heq : Machine.signed (f.sign a) (f.extent a) = Machine.signed (f.sign b) (f.extent b) ↔
      Machine.signed (f.sign a) (f.mag a) = Machine.signed (f.sign b) (f.mag b) := by omega
  simp only [hlt, heq]
  rfl

/-- The order of the keys is that of the values, −0 below +0. -/
theorem Fmt.key_le_iff (ha : Machine.nanCode f a = false) (hb : Machine.nanCode f b = false) :
    f.key a ≤ f.key b ↔ Machine.signed (f.sign a) (f.extent a) < Machine.signed (f.sign b) (f.extent b) ∨
      (Machine.signed (f.sign a) (f.extent a) = Machine.signed (f.sign b) (f.extent b) ∧ (f.sign a = true ∨ f.sign b = false)) := by
  have hlt := Fmt.signed_extent_lt_iff hf ha hb (f.sign a) (f.sign b)
  have hgt := Fmt.signed_extent_lt_iff hf hb ha (f.sign b) (f.sign a)
  have hkey (c : Nat) : f.key c = Machine.signed (f.sign c) (f.mag c) - (f.sign c).toNat := by
    cases h : f.sign c <;> simp [Fmt.key, Machine.signed, h]
  have hneg (c : Nat) : f.sign c = true → Machine.signed (f.sign c) (f.mag c) ≤ 0 := fun h => by simp [Machine.signed, h]
  have hpos (c : Nat) : f.sign c = false → 0 ≤ Machine.signed (f.sign c) (f.mag c) := fun h => by simp [Machine.signed, h]
  have hna := hneg a
  have hnb := hneg b
  have hpa := hpos a
  have hpb := hpos b
  rw [hkey, hkey]
  generalize f.sign a = s at *
  generalize f.sign b = t at *
  cases s <;> cases t <;> simp at * <;> omega

/-- Two codes with one sign and one value are one code. -/
theorem Fmt.eq_of_extent_eq (haw : a < 2 ^ f.width) (hbw : b < 2 ^ f.width) (ha : Machine.nanCode f a = false)
    (hb : Machine.nanCode f b = false) (hs : f.sign a = f.sign b)
    (hv : Machine.signed (f.sign a) (f.extent a) = Machine.signed (f.sign b) (f.extent b)) : a = b := by
  have hlt := Fmt.extent_lt_iff hf ha hb
  have hgt := Fmt.extent_lt_iff hf hb ha
  refine Fmt.eq_of_sign_mag haw hbw hs ?_
  rw [hs] at hv
  cases hsb : f.sign b <;> simp [Machine.signed, hsb] at hv <;> omega

/-- `VMIN` and `VMAX` (07_core_vector R131). -/
theorem Fmt.fpMinMax_correct (haw : a < 2 ^ f.width) (hbw : b < 2 ^ f.width) (mx : Bool) :
    Machine.NanOr f [a, b] false (fpMinMax f mx a b)
      (fpMinMax f mx a b = ⟨if mx then
          (if Machine.signed (f.sign b) (f.extent b) < Machine.signed (f.sign a) (f.extent a) ∨
            (Machine.signed (f.sign a) (f.extent a) = Machine.signed (f.sign b) (f.extent b) ∧ f.sign a = false) then a else b)
        else (if Machine.signed (f.sign a) (f.extent a) < Machine.signed (f.sign b) (f.extent b) ∨
            (Machine.signed (f.sign a) (f.extent a) = Machine.signed (f.sign b) (f.extent b) ∧ f.sign a = true) then a else b), 0⟩) := by
  refine nanOr_intro hf (fun c h => by rw [fpMinMax, h]) (fun _ _ _ => rfl) (fun hnan => ?_)
  have ha := hnan a (by simp)
  have hb := hnan b (by simp)
  have heq := Fmt.eq_of_extent_eq hf haw hbw ha hb
  rw [fpMinMax, (nanOf_eq_none hf).2 hnan]
  simp only [Fmt.key_le_iff hf ha hb, Fmt.key_le_iff hf hb ha, Bool.false_eq_true, if_false]
  generalize Machine.signed (f.sign a) (f.extent a) = v at *
  generalize Machine.signed (f.sign b) (f.extent b) = w at *
  by_cases hab : a = b
  · simp [hab]
  · -- of two codes with one value the signs differ
    have hsign : v = w → f.sign b = !f.sign a := fun h => Bool.eq_not.2 (fun hs => hab (heq hs.symm h))
    cases mx
    · have hiff : (v < w ∨ v = w ∧ (f.sign a = true ∨ f.sign b = false)) ↔ (v < w ∨ v = w ∧ f.sign a = true) :=
        or_congr_right (and_congr_right (fun h => by simp [hsign h]))
      simp only [hiff, Bool.false_eq_true, if_false]
    · have hiff : (w < v ∨ w = v ∧ (f.sign b = true ∨ f.sign a = false)) ↔ (w < v ∨ v = w ∧ f.sign a = false) := by
        rw [eq_comm (a := w)]
        exact or_congr_right (and_congr_right (fun h => by simp [hsign h]))
      simp only [hiff, if_true]

end

theorem orderOfValues : Machine.OrderOfValues := by
  intro f hmem a b ha hb
  have hf := Fmt.regular_of_mem hmem
  refine ⟨Fmt.fpCmp_correct hf, fun c _ => ⟨by rw [Fmt.isNan_eq hf], by rw [Fmt.isSNan_eq hf]⟩, ?_, ?_⟩
  · exact Fmt.fpMinMax_correct hf ha hb false
  · exact Fmt.fpMinMax_correct hf ha hb true

end Sys2Proof.Machine

end

/-! ## The exact accumulator (02_numbers R36, R37, R39) -/

section

open Sys2Proof Sys2Proof.Machine

namespace Sys2Proof.Machine

/-! ### The exact accumulator -/

/-- The integer that a cell of the accumulator holds. -/
def cellInt (c : Nat) : Int := if 2 ^ 511 ≤ c then (c : Int) - 2 ^ 512 else c

theorem sintOf_cell {c : Nat} (hc : c < 2 ^ 512) : sintOf 512 c = cellInt c := by
  simp only [sintOf, cellInt, Nat.mod_eq_of_lt hc, Nat.add_one_sub_one]

theorem cellInt_eq_zero {c : Nat} (hc : c < 2 ^ 512) : cellInt c = 0 ↔ c = 0 := by
  rw [cellInt]
  split <;> omega

/-- The infinities of the accumulator (02_numbers R36). -/
def cellInf (n : Bool) : Nat := if n then 2 ^ 511 + 1 else 2 ^ 511 - 1

theorem cellInf_ne_nan (n : Bool) : cellInf n ≠ xaNan := by
  unfold cellInf xaNan
  split <;> omega

theorem cellInf_inj {n t : Bool} : cellInf n = cellInf t ↔ n = t := by
  refine ⟨fun h => ?_, fun h => h ▸ rfl⟩
  unfold cellInf at h
  cases n <;> cases t <;> simp only [if_true, Bool.false_eq_true, if_false] at h ⊢ <;> omega

theorem xaPinf_eq : xaPinf = cellInf false := rfl
theorem xaNinf_eq : xaNinf = cellInf true := rfl

theorem eq_xaPinf_or_xaNinf {c : Nat} : (c = xaPinf ∨ c = xaNinf) ↔ ∃ n, c = cellInf n := by
  rw [xaPinf_eq, xaNinf_eq, Bool.exists_bool]

/-- `xa_read` (02_numbers R39). -/
theorem xaRead_correct {f : Fmt} (hf : f.Regular) (hwide : f.eb = 8) {c : Nat} (hc : c < 2 ^ 512) (r : Rnd) :
    (c = xaNan → xaRead c f r = ⟨f.cnan, 0⟩) ∧
    (∀ n, c = cellInf n → xaRead c f r = if r.sat then ⟨f.maxc + f.signBit n, 1⟩ else ⟨f.maxc + 1 + f.signBit n, 0⟩) ∧
    (c = 0 → xaRead c f r = ⟨0, 0⟩) ∧
    (c ≠ 0 → c ≠ xaNan → (∀ n, c ≠ cellInf n) →
      Machine.Rounded f r (decide (cellInt c < 0)) (Machine.exactly ((cellInt c).natAbs * 2 ^ 544)) (xaRead c f r)) := by
  have hinfc : f.infc = f.maxc + 1 := by
    have := hf.beyond
    rwa [hf.inf_of_wide hwide, if_pos rfl] at this
  refine ⟨fun h => ?_, fun n h => ?_, fun h => ?_, fun h0 hnan hinf => ?_⟩
  · rw [xaRead, if_pos h]
  · rw [xaRead, if_neg (h ▸ cellInf_ne_nan n), if_pos (eq_xaPinf_or_xaNinf.2 ⟨n, h⟩), hinfc,
      show decide (c = xaNinf) = n by simp [h, xaNinf_eq, cellInf_inj]]
    rfl
  · have hnan : c ≠ xaNan := by unfold xaNan; omega
    have hinf : ¬ ∃ n, c = cellInf n := by rintro ⟨n, hn⟩; unfold cellInf at hn; split at hn <;> omega
    rw [xaRead, if_neg hnan, if_neg (eq_xaPinf_or_xaNinf.not.2 hinf), sintOf_cell hc, if_pos ((cellInt_eq_zero hc).2 h)]
  · have hne : cellInt c ≠ 0 := mt (cellInt_eq_zero hc).1 h0
    have hround := Fmt.round_exact hf r (decide (cellInt c < 0)) (E := 544) (Int.natAbs_ne_zero.2 hne) (by have := hf.mb_le; omega)
    rw [show ((544 : Nat) : Int) - 800 = -256 by rfl] at hround
    rwa [xaRead, if_neg hnan, if_neg (eq_xaPinf_or_xaNinf.not.2 (not_exists.2 hinf)), sintOf_cell hc, if_neg hne]

/-- `xa_add` (02_numbers R37). -/
theorem xaAdd_correct {f : Fmt} (hf : f.Regular) {c : Nat} (hc : c < 2 ^ 512) (x : Nat) :
    if c = xaNan ∨ Machine.nanCode f x = true then xaAdd c (f.val x) = xaNan
    else if Machine.infCode f x then xaAdd c (f.val x) = if c = cellInf (!Machine.signOf f x) then xaNan else cellInf (Machine.signOf f x)
    else if c = cellInf true ∨ c = cellInf false then xaAdd c (f.val x) = c
    else
      let t := cellInt c + Machine.signed (Machine.signOf f x) (Machine.magOf 256 f x)
      xaAdd c (f.val x) = if 2 ^ 448 ≤ t then cellInf false else if t ≤ -2 ^ 448 then cellInf true else (t % 2 ^ 512).toNat := by
  cases hn : Machine.nanCode f x with
  | true => rw [Fmt.val_nan hf hn]; simp [xaAdd]
  | false =>
    cases Fmt.reads hf hn with
    | inf hi _ hv =>
      rw [hi, hv]
      by_cases hc0 : c = xaNan
      · simp [xaAdd, hc0]
      · cases hs : Machine.signOf f x <;> simp [xaAdd, hc0, xaPinf_eq, xaNinf_eq]
    | fin hi m E _ hv hm =>
      rw [hi, hv]
      by_cases hc0 : c = xaNan
      · simp [xaAdd, hc0]
      · by_cases hinf : c = cellInf true ∨ c = cellInf false
        · have hinf' : c = xaPinf ∨ c = xaNinf := hinf.symm
          simp [xaAdd, hc0, hinf, hinf']
        · have hinf' : ¬ (c = xaPinf ∨ c = xaNinf) := fun h => hinf h.symm
          have hlow := hm.low
          have hv : (m : Int) * 2 ^ ((E : Int) - 800 + 256).toNat = (Machine.magOf 256 f x : Nat) := by
            rw [hm.magOf 256 (by omega), show ((E : Int) - 800 + 256).toNat = E + 256 - 800 by omega]
            push_cast; rfl
          simp only [xaAdd, hc0, hinf, hinf', false_or, Bool.false_eq_true, if_false, hv, sintOf_cell hc]
          rfl

theorem accumulator : Machine.Accumulator := by
  intro f hmem c hc
  have hf := Fmt.regular_of_mem hmem
  exact ⟨fun hwide r => xaRead_correct hf hwide hc r, fun x _ => xaAdd_correct hf hc x⟩

end Sys2Proof.Machine

end

/-! ## Powers and logarithms of two (07_core_vector R132) -/

section

open Sys2Proof Sys2Proof.Machine

namespace Sys2Proof.Machine

/-! ### Powers and logarithms of two -/

/-- A larger power, term and start give a larger sum. -/
theorem expSeries_mono {y y' : Nat} (hy : y ≤ y') (n k : Nat) {t t' acc acc' : Nat} (ht : t ≤ t') (hacc : acc ≤ acc') :
    expSeries y n k t acc ≤ expSeries y' n k t' acc' := by
  induction n generalizing k t t' acc acc' with
  | zero => exact hacc
  | succ n ih =>
    have hterm : t * y / 2 ^ 160 / k ≤ t' * y' / 2 ^ 160 / k := Nat.div_le_div_right (Nat.div_le_div_right (Nat.mul_le_mul ht hy))
    exact ih _ hterm (Nat.add_le_add hacc hterm)

theorem le_expSeries (y n k t acc : Nat) : acc ≤ expSeries y n k t acc := by
  induction n generalizing k t acc with
  | zero => exact Nat.le_refl _
  | succ n ih => exact (Nat.le_add_right ..).trans (ih ..)

/-- The series stays below 2^1, which is what it has at the end of the range or less. -/
theorem exp2P_bounds {x : Nat} (hx : x < 2 ^ 160) : 2 ^ 160 ≤ exp2P x ∧ exp2P x < 2 ^ 161 := by
  have hend : expSeries ln2P 48 1 (2 ^ 160) (2 ^ 160) < 2 ^ 161 := by decide +kernel
  have hy : x * ln2P / 2 ^ 160 ≤ ln2P := Nat.div_le_of_le_mul (Nat.mul_le_mul_right _ hx.le)
  exact ⟨le_expSeries .., (expSeries_mono hy 48 1 le_rfl le_rfl).trans_lt hend⟩

theorem atanhSeries_mono {zz zz' : Nat} (hz : zz ≤ zz') (n k : Nat) {t t' acc acc' : Nat} (ht : t ≤ t') (hacc : acc ≤ acc') :
    atanhSeries zz n k t acc ≤ atanhSeries zz' n k t' acc' := by
  induction n generalizing k t t' acc acc' with
  | zero => exact hacc
  | succ n ih =>
    exact ih _ (Nat.div_le_div_right (Nat.mul_le_mul ht hz)) (Nat.add_le_add hacc (Nat.div_le_div_right ht))

theorem le_atanhSeries (zz n k t acc : Nat) : acc ≤ atanhSeries zz n k t acc := by
  induction n generalizing k t acc with
  | zero => exact Nat.le_refl _
  | succ n ih => exact (Nat.le_add_right ..).trans (ih ..)

/-- The series of `log2P`, twice it in units of the logarithm of two. -/
def atanhLog (z : Nat) : Nat := 2 * atanhSeries (z * z / 2 ^ 160) 56 1 z 0 * 2 ^ 160 / ln2P

theorem atanhLog_mono {z z' : Nat} (h : z ≤ z') : atanhLog z ≤ atanhLog z' := by
  have hz : z * z / 2 ^ 160 ≤ z' * z' / 2 ^ 160 := Nat.div_le_div_right (Nat.mul_le_mul h h)
  exact Nat.div_le_div_right (Nat.mul_le_mul_right _ (Nat.mul_le_mul_left _ (atanhSeries_mono hz 56 1 h (Nat.le_refl 0))))

theorem le_atanhLog (z : Nat) : z ≤ atanhLog z := by
  have hfirst : z ≤ atanhSeries (z * z / 2 ^ 160) 56 1 z 0 := by
    rw [atanhSeries, Nat.zero_add, Nat.div_one]
    exact le_atanhSeries ..
  have hln : ln2P ≤ 2 ^ 160 := by decide +kernel
  have hpos : 0 < ln2P := by decide +kernel
  rw [atanhLog, Nat.le_div_iff_mul_le hpos]
  exact Nat.mul_le_mul (hfirst.trans (Nat.le_mul_of_pos_left _ two_pos)) hln

/-- The argument of the series at the largest significand of 24 bits, which is just below two. -/
def atanhTop : Nat := (2 ^ 23 - 1) * 2 ^ 160 / (3 * 2 ^ 23 - 1)

theorem atanhLog_top : atanhLog atanhTop + 2 ^ 30 ≤ 2 ^ 160 := by decide +kernel

theorem le_atanhTop {a b : Nat} (hb : 0 < b) (h : a * (3 * 2 ^ 23 - 1) ≤ (2 ^ 23 - 1) * b) : a * 2 ^ 160 / b ≤ atanhTop := by
  refine (Nat.le_div_iff_mul_le (by norm_num)).2 (Nat.le_of_mul_le_mul_right ?_ hb)
  calc a * 2 ^ 160 / b * (3 * 2 ^ 23 - 1) * b = a * 2 ^ 160 / b * b * (3 * 2 ^ 23 - 1) := Nat.mul_right_comm ..
    _ ≤ a * 2 ^ 160 * (3 * 2 ^ 23 - 1) := Nat.mul_le_mul_right _ (Nat.div_mul_le_self ..)
    _ = a * (3 * 2 ^ 23 - 1) * 2 ^ 160 := Nat.mul_right_comm ..
    _ ≤ (2 ^ 23 - 1) * b * 2 ^ 160 := Nat.mul_le_mul_right _ h
    _ = (2 ^ 23 - 1) * 2 ^ 160 * b := Nat.mul_right_comm ..

/-- The logarithm of a significand of at most 24 bits that is no power of two. -/
theorem log2P_bounds {m : Nat} (hm : m < 2 ^ 24) (hlo : 2 ^ m.log2 < m) : 2 ^ 24 ≤ log2P m ∧ log2P m + 2 ^ 30 ≤ 2 ^ 160 := by
  have hm0 : m ≠ 0 := by rintro rfl; simp at hlo
  have hhi : m < 2 * 2 ^ m.log2 := by rw [← pow_succ']; exact Nat.lt_log2_self
  have hone : 2 ^ m.log2 ≤ 2 ^ 23 := Nat.pow_le_pow_right two_pos (by have := (Nat.log2_lt hm0).2 hm; omega)
  have hlog : log2P m = atanhLog ((m - 2 ^ m.log2) * 2 ^ 160 / (m + 2 ^ m.log2)) := by
    rw [log2P, bitLen, if_neg hm0, Nat.add_sub_cancel, atanhLog]
  rw [hlog]
  generalize 2 ^ m.log2 = one at *
  have hpos : 0 < m + one := by omega
  constructor
  · exact (Nat.le_div_iff_mul_le hpos).2 (by omega) |>.trans (le_atanhLog _)
  · exact (Nat.add_le_add_right (atanhLog_mono (le_atanhTop hpos (by omega))) _).trans atanhLog_top

/-- What is known of a result by the value's neighbours `lo` and `hi` alone: inexact, and the rounding of a value strictly between them. -/
def RoundedBetween (f : Fmt) (neg : Bool) (lo hi : Nat) (y : Res) : Prop :=
  y.fl % 2 = 1 ∧ ∃ z, lo < z ∧ z < hi ∧ Machine.Rounded f rneN neg (Machine.exactly z) y

theorem signed_eq_mul (n : Bool) (x : Nat) : Machine.signed n x = (if n then -1 else 1) * (x : Int) := by
  cases n <;> simp [Machine.signed]

-- Exponents are variables in the next lemmas, so that no use of one computes 2^800.

theorem mul_two_pow_lt {k n : Nat} (h : 12 + k ≤ n) : 201 * 2 ^ k < 2 ^ n := calc
  201 * 2 ^ k < 2 ^ 12 * 2 ^ k := Nat.mul_lt_mul_of_pos_right (by decide) (Nat.two_pow_pos k)
  _ = 2 ^ (12 + k) := (pow_add ..).symm
  _ ≤ 2 ^ n := Nat.pow_le_pow_right two_pos h

/-- The power of two below a number. -/
theorem mul_two_pow_binade {m : Nat} (hm : m ≠ 0) (E : Nat) : 2 ^ (E + m.log2) ≤ m * 2 ^ E ∧ m * 2 ^ E < 2 ^ (E + m.log2 + 1) := by
  rw [add_assoc, pow_add, pow_add, mul_comm m]
  exact ⟨Nat.mul_le_mul_left _ (Nat.log2_self_le hm), Nat.mul_lt_mul_of_pos_left Nat.lt_log2_self (Nat.two_pow_pos _)⟩

theorem lt_two_pow_of_le {n a b : Nat} (h : n < 2 ^ a) (hab : a ≤ b) : n < 2 ^ b := h.trans_le (Nat.pow_le_pow_right two_pos hab)

theorem two_pow_add {a b c : Nat} (h : c = a + b) : (2 : Int) ^ c = 2 ^ a * 2 ^ b := by rw [h, pow_add]

theorem mul_two_pow_add {n a b c : Nat} (h : c = a + b) : n * 2 ^ c = n * 2 ^ a * 2 ^ b := by rw [h, pow_add, mul_assoc]

theorem log2_exp2P {n : Nat} (hn : n < 2 ^ 160) : (exp2P n).log2 = 160 := by
  obtain ⟨hlo, hhi⟩ := exp2P_bounds hn
  exact (Nat.log2_eq_iff (by omega)).2 ⟨hlo, hhi⟩

/-- A sticky bit makes the result inexact. -/
theorem roundAt_sticky (rm : RMode) (neg : Bool) (m : Nat) (e q : Int) : (roundAt rm neg m e true q).2 = false := by
  rw [roundAt]
  split <;> simp

theorem Fmt.round_sticky_inexact (f : Fmt) (r : Rnd) (neg : Bool) (m : Nat) (e : Int) : (f.round r neg m e true).fl % 2 = 1 := by
  simp only [Fmt.round, Bool.not_true, Bool.and_false, Bool.false_eq_true, if_false, Fmt.roundMag, roundAt_sticky]
  split
  · simp [flOF, flNX]
  · split <;> simp [flUF, flNX]

section
variable {f : Fmt} (hf : f.Regular)
include hf

/-- A value known between two neighbours only, rounded: inexact, and the rounding of some value strictly between `lo` and `hi`. -/
theorem round_between (neg : Bool) {m E lo hi : Nat} (hE : f.mb ≤ E) (hm : 2 ^ 24 ≤ m) (hlo : lo ≤ m) (hhi : m + 1 ≤ hi) :
    RoundedBetween f neg (lo * 2 ^ E) (hi * 2 ^ E) (f.round rneN neg m (E - 800) true) := by
  have hmb := hf.mb_pos
  have hpow : 1 < 2 ^ E := Nat.one_lt_two_pow (by omega)
  have hnext : m * 2 ^ E + 1 < (m + 1) * 2 ^ E := by rw [Nat.add_mul, Nat.one_mul]; omega
  refine ⟨Fmt.round_sticky_inexact .., m * 2 ^ E + 1, Nat.lt_succ_of_le (Nat.mul_le_mul_right _ hlo),
    hnext.trans_le (Nat.mul_le_mul_right _ hhi), ?_⟩
  refine Fmt.round_stands hf rneN neg (measures_exactly _) (stands_sticky ?_ ?_) hE hm
  · exact_mod_cast Nat.lt_succ_self _
  · exact_mod_cast hnext

/-- A magnitude of twice the largest finite one or more overflows. -/
theorem rounded_beyond {x : Nat → Nat → Ordering} {ρ : ℝ} {y : Res} (hx : Measures x ρ) (hρ : ((2 * f.ladder f.maxc : Nat) : ℝ) ≤ ρ)
    (h : Machine.Rounded f rneN false x y) : y = ⟨f.maxc + 1, 5⟩ := by
  have hmag : Machine.magOf 800 f f.maxc = f.ladder f.maxc := Fmt.magOf_eq_ladder hf (by have := hf.top; omega)
  have hpos : 0 < f.ladder f.maxc := (Nat.zero_le _).trans_lt (f.ladder_strictMono (Nat.one_le_two_pow.trans hf.normal))
  refine h.1 ?_
  dsimp only
  rw [hmag, if_pos (show rneN.mode = .rne from rfl), Bool.or_eq_true, beq_iff_eq, hx.gt_iff]
  left
  have hhalf : 2 * f.ladder f.maxc + (f.ladder f.maxc - Machine.magOf 800 f (f.maxc - 1)) < 2 * (2 * f.ladder f.maxc) := by omega
  have hcast : ((2 * f.ladder f.maxc + (f.ladder f.maxc - Machine.magOf 800 f (f.maxc - 1)) : Nat) : ℝ) <
      2 * (2 * f.ladder f.maxc : Nat) := by exact_mod_cast hhalf
  rw [Nat.cast_ofNat]
  linarith

theorem round_overflow {m E : Nat} (st : Bool) (hm : m ≠ 0) (hst : st = true → 2 ^ 24 ≤ m) (hE : 1000 ≤ E + m.log2) (hmb : f.mb ≤ E) :
    f.round rneN false m (E - 800) st = ⟨f.maxc + 1, 5⟩ := by
  have hround : ∃ X, m * 2 ^ E ≤ X ∧ Machine.Rounded f rneN false (Machine.exactly X) (f.round rneN false m (E - 800) st) := by
    cases st with
    | false => exact ⟨_, le_rfl, Fmt.round_exact hf rneN false hm hmb⟩
    | true =>
      obtain ⟨_, z, hz, _, h⟩ := round_between hf false hmb (hst rfl) le_rfl le_rfl
      exact ⟨z, hz.le, h⟩
  obtain ⟨X, hX, h⟩ := hround
  have hlog := (mul_two_pow_binade hm E).1
  have hmax : f.ladder f.maxc < 2 ^ (E + m.log2 - 1) := Fmt.ladder_lt hf (by have := hf.top; omega) (by omega)
  have htwo : 2 * 2 ^ (E + m.log2 - 1) = 2 ^ (E + m.log2) := by rw [← pow_succ', Nat.sub_add_cancel (by omega)]
  exact rounded_beyond hf (measures_exactly X) (by exact_mod_cast (by omega : 2 * f.ladder f.maxc ≤ X)) h

/-- A magnitude far below the least one becomes zero. -/
theorem Fmt.round_vanishing {m : Nat} {e : Int} (st : Bool) (hm : m ≠ 0) (he : e + bitLen m < f.emin) :
    f.round rneN false m e st = ⟨0, 3⟩ := by
  have hlen : 0 < bitLen m := by simp [bitLen, hm]
  have hmb := hf.mb_pos
  have hemin : f.emin = 1 - f.bias - f.mb := rfl
  obtain ⟨sh, hsh⟩ : ∃ sh : Nat, f.emin - e = (sh + 1 : Nat) := ⟨(f.emin - e - 1).toNat, by omega⟩
  have hmsh : m < 2 ^ sh := by
    have : m < 2 ^ bitLen m := by rw [bitLen, if_neg hm]; exact Nat.lt_log2_self
    exact this.trans_le (Nat.pow_le_pow_right two_pos (by omega))
  have hmsh' : m < 2 ^ (sh + 1) := by rw [pow_succ]; omega
  have hq : max (e + bitLen m - 1 - f.mb) f.emin = f.emin := by omega
  have hround : roundAt .rne false m e st f.emin = (0, false) := by
    have hge : ¬ f.emin ≤ e := by omega
    simp only [roundAt, hge, if_false, hsh, Int.toNat_natCast, Nat.div_eq_of_lt hmsh', Nat.mod_eq_of_lt hmsh', roundsUp,
      Nat.add_one_sub_one, hmsh.ne, hmsh.not_gt]
    simp [hm]
  have htop : e + bitLen m - 1 < 1 - f.bias := by omega
  have hnext : e + bitLen m - 1 ≠ -f.bias := by omega
  simp only [Fmt.round, Fmt.roundMag, hq, rneN, hround, htop, hnext]
  simp [hm, Fmt.signBit, flUF, flNX]

end

/-- What 2^x is to be for a value `x` in units of `2^-800` (07_core_vector R132). -/
def IsPower (f : Fmt) (x : Int) (y : Res) : Prop :=
  if 200 < x / 2 ^ 800 then y = ⟨f.maxc + 1, 5⟩
  else if x / 2 ^ 800 < -200 then y = ⟨0, 3⟩
  else if x % 2 ^ 800 = 0 then Machine.Rounded f rneN false (Machine.exactly (2 ^ (x / 2 ^ 800 + 800).toNat)) y
  else RoundedBetween f false (2 ^ (x / 2 ^ 800 + 800).toNat) (2 * 2 ^ (x / 2 ^ 800 + 800).toNat) y

/-- The power of a value whose integer part `k` and fraction `r` are known; `p` is `k` in units of `2^-800`. -/
theorem isPower_of_parts {f : Fmt} {x k r : Int} {y : Res} (p : Nat) (hx : x = k * 2 ^ 800 + r) (hr0 : 0 ≤ r) (hr1 : r < 2 ^ 800)
    (hp : -200 ≤ k → (p : Int) = k + 800) (hbig : 200 < k → y = ⟨f.maxc + 1, 5⟩) (hsmall : k < -200 → y = ⟨0, 3⟩)
    (hexact : -200 ≤ k → r = 0 → Machine.Rounded f rneN false (Machine.exactly (2 ^ p)) y)
    (hnear : -200 ≤ k → r ≠ 0 → RoundedBetween f false (2 ^ p) (2 * 2 ^ p) y) : IsPower f x y := by
  obtain ⟨hk, hm⟩ : x / 2 ^ 800 = k ∧ x % 2 ^ 800 = r :=
    (Int.ediv_emod_unique (by positivity)).2 ⟨by rw [hx, mul_comm, add_comm], hr0, hr1⟩
  have hp' (h : -200 ≤ k) : (k + 800).toNat = p := by have := hp h; omega
  rw [IsPower, hk, hm]
  split
  · next h => exact hbig h
  · split
    · next h => exact hsmall h
    · next h =>
      rw [hp' (by omega)]
      split
      · next h0 => exact hexact (by omega) h0
      · next h0 => exact hnear (by omega) h0

/-- The power of a value beyond every format's range of powers. -/
theorem isPower_of_large {f : Fmt} {n : Bool} {X : Nat} {y : Res} (hX : 201 * 2 ^ 800 < X) (hbig : n = false → y = ⟨f.maxc + 1, 5⟩)
    (hsmall : n = true → y = ⟨0, 3⟩) : IsPower f (Machine.signed n X) y := by
  have hpos : (0 : Int) < 2 ^ 800 := by positivity
  have hX' : (201 * 2 ^ 800 : Int) < X := by exact_mod_cast hX
  rw [IsPower, Machine.signed]
  cases n with
  | false =>
    have hle : 201 ≤ (X : Int) / 2 ^ 800 := (Int.le_ediv_iff_mul_le hpos).2 hX'.le
    simp only [Bool.false_eq_true, if_false, if_pos (lt_of_lt_of_le (show (200 : Int) < 201 by decide) hle)]
    exact hbig rfl
  | true =>
    have hlt : -(X : Int) / 2 ^ 800 < -200 := Int.ediv_lt_of_lt_mul hpos (by generalize (2 : Int) ^ 800 = u at *; omega)
    simp only [if_true, if_neg (hlt.trans (show (-200 : Int) < 200 by decide)).not_gt, if_pos hlt]
    exact hsmall rfl

section
variable {f : Fmt} (hf : f.Regular)
include hf

theorem round_one {p : Nat} {e : Int} (he : e = p - 800) (hp : f.mb ≤ p) :
    Machine.Rounded f rneN false (Machine.exactly (2 ^ p)) (f.round rneN false 1 e) := by
  have h := Fmt.round_exact hf rneN false one_ne_zero hp
  rwa [one_mul, ← he] at h

/-- A power of a value of 4096 or more, of which only the exponent is computed. -/
theorem round_far_up : f.round rneN false 1 4096 true = ⟨f.maxc + 1, 5⟩ := by
  have htop := hf.top
  have hroom := hf.room
  have hexp := hf.exp_le
  have hmb := hf.mb_pos
  have hemin : f.emin = 1 - f.bias - f.mb := rfl
  have hq : max ((4096 : Int) - f.mb) f.emin = 4096 - f.mb := by omega
  obtain ⟨j, hj⟩ : ∃ j : Nat, (4096 : Int) - f.mb - f.emin = (2 ^ f.eb + j : Nat) := ⟨4095 + f.bias - 2 ^ f.eb, by omega⟩
  have hround : (roundAt .rne false 1 4096 true (4096 - f.mb)).1 = 2 ^ f.mb := by simp [roundAt]
  have hover : f.maxc < (4096 - f.mb - f.emin).toNat * 2 ^ f.mb + 2 ^ f.mb := by
    rw [hj, Int.toNat_natCast]
    have : 2 ^ f.eb * 2 ^ f.mb ≤ (2 ^ f.eb + j) * 2 ^ f.mb := Nat.mul_le_mul_right _ (Nat.le_add_right ..)
    rw [← pow_add] at this
    omega
  have hlen : (4096 : Int) + (bitLen 1 : Nat) - 1 = 4096 := rfl
  have hbeyond := hf.beyond
  simp only [Fmt.round, Fmt.roundMag, hlen, hq, rneN, hround, if_pos hover, hf.nan, if_true, hbeyond]
  rfl

/-- One and a little more. -/
theorem round_above_one {E : Nat} (hE : f.mb ≤ E) :
    RoundedBetween f false (2 ^ (64 + E)) (2 * 2 ^ (64 + E)) (f.round rneN false (2 ^ 64) (E - 800) true) := by
  rw [pow_add, ← mul_assoc]
  exact round_between hf false hE (by decide) le_rfl (by decide)

/-- One less a little. -/
theorem round_below_one {E : Nat} (hE : f.mb ≤ E) :
    RoundedBetween f false (2 ^ (63 + E)) (2 * 2 ^ (63 + E)) (f.round rneN false (2 ^ 64 - 1) (E - 800) true) := by
  rw [pow_add, ← mul_assoc]
  exact round_between hf false hE (by decide) (by decide) (by decide)

/-- The power that `fpExp2` computes of an integer part `k` and a fraction of `n` units of `2^-160`. -/
def powerOfParts (f : Fmt) (k : Int) (n : Nat) : Res :=
  if n = 0 then f.round rneN false 1 k else f.round rneN false (exp2P n) (k - 160) true

theorem powerOfParts_large {k : Int} {n : Nat} (hn : n < 2 ^ 160) (hk : 200 < k) : powerOfParts f k n = ⟨f.maxc + 1, 5⟩ := by
  have hmb := hf.mb_le
  obtain ⟨p, rfl⟩ : ∃ p : Nat, k = p - 640 := ⟨(k + 640).toNat, by omega⟩
  rw [powerOfParts]
  split
  · rw [show (p : Int) - 640 = (p + 160 : Nat) - 800 by omega]
    exact round_overflow hf false one_ne_zero (by simp) (by rw [show Nat.log2 1 = 0 by decide]; omega) (by omega)
  · have hlog := log2_exp2P hn
    have hlow := (exp2P_bounds hn).1
    rw [show (p : Int) - 640 - 160 = p - 800 by omega]
    exact round_overflow hf true (by omega) (fun _ => by omega) (by omega) (by omega)

theorem powerOfParts_small {k : Int} {n : Nat} (hn : n < 2 ^ 160) (hk : k < -200) : powerOfParts f k n = ⟨0, 3⟩ := by
  have hroom := hf.room
  have hemin : f.emin = 1 - f.bias - f.mb := rfl
  rw [powerOfParts]
  split
  · refine Fmt.round_vanishing hf false one_ne_zero ?_
    rw [show bitLen 1 = 1 by decide]
    omega
  · have hne : exp2P n ≠ 0 := by have := (exp2P_bounds hn).1; omega
    refine Fmt.round_vanishing hf true hne ?_
    rw [bitLen, if_neg hne, log2_exp2P hn]
    omega

theorem powerOfParts_exact {k : Int} (hk : -200 ≤ k) :
    Machine.Rounded f rneN false (Machine.exactly (2 ^ (k + 800).toNat)) (powerOfParts f k 0) :=
  round_one hf (by omega) (by have := hf.mb_le; omega)

theorem powerOfParts_near {k : Int} {n : Nat} (hn : n < 2 ^ 160) (hn0 : n ≠ 0) (hk : -200 ≤ k) :
    RoundedBetween f false (2 ^ (k + 800).toNat) (2 * 2 ^ (k + 800).toNat) (powerOfParts f k n) := by
  have hmb := hf.mb_le
  obtain ⟨hlo, hhi⟩ := exp2P_bounds hn
  obtain ⟨p, rfl⟩ : ∃ p : Nat, k = p - 640 := ⟨(k + 640).toNat, by omega⟩
  rw [powerOfParts, if_neg hn0, show ((p : Int) - 640 + 800).toNat = 160 + p by omega, show (p : Int) - 640 - 160 = p - 800 by omega,
    pow_add]
  rw [← mul_assoc]
  exact round_between hf false (by omega) (by omega) hlo (by omega)

/-- A power by the series, of a value in units of `2^-160`. -/
theorem isPower_series (v : Int) : IsPower f (v * 2 ^ 640) (powerOfParts f (v / 2 ^ 160) (v % 2 ^ 160).toNat) := by
  obtain ⟨n, hn⟩ := Int.eq_ofNat_of_zero_le (Int.emod_nonneg v (b := 2 ^ 160) (by decide))
  have hlt : v % 2 ^ 160 < 2 ^ 160 := Int.emod_lt_of_pos _ (by decide)
  have hv : v / 2 ^ 160 * 2 ^ 160 + v % 2 ^ 160 = v := by rw [mul_comm]; exact Int.mul_ediv_add_emod ..
  rw [hn] at hlt hv ⊢
  have hn' : n < 2 ^ 160 := by exact_mod_cast hlt
  generalize v / 2 ^ 160 = k at *
  have hpow : (0 : Int) < 2 ^ 640 := by positivity
  have hsplit : (2 : Int) ^ 800 = 2 ^ 160 * 2 ^ 640 := two_pow_add rfl
  rw [Int.toNat_natCast]
  refine isPower_of_parts (k := k) (r := n * 2 ^ 640) (k + 800).toNat ?_ (mul_nonneg (Int.natCast_nonneg n) hpow.le) ?_
    (fun h => Int.toNat_of_nonneg (by linarith)) (powerOfParts_large hf hn') (powerOfParts_small hf hn')
    (fun hk hr => ?_) (fun hk hr => ?_)
  · rw [← hv, hsplit, add_mul, mul_assoc]
  · rw [hsplit]; exact mul_lt_mul_of_pos_right hlt hpow
  · obtain rfl : n = 0 := by exact_mod_cast (mul_eq_zero.1 hr).resolve_right hpow.ne'
    exact powerOfParts_exact hf hk
  · exact powerOfParts_near hf hn' (by rintro rfl; exact hr (zero_mul _)) hk

/-- A power of a magnitude that is nearly one, whichever side. -/
theorem isPower_of_tiny {n : Bool} {X : Nat} (h0 : 0 < X) (h1 : X < 2 ^ 800) : IsPower f (Machine.signed n X)
    (if n then f.round rneN false (2 ^ 64 - 1) (-64) true else f.round rneN false (2 ^ 64) (-64) true) := by
  have hmb : f.mb ≤ 736 := hf.mb_le.trans (by decide)
  have h0' : (0 : Int) < X := by exact_mod_cast h0
  have h1' : (X : Int) < 2 ^ 800 := by exact_mod_cast h1
  have hpow : (0 : Int) < 2 ^ 800 := by positivity
  have habove := round_above_one hf hmb
  have hbelow := round_below_one hf hmb
  rw [show ((736 : Nat) : Int) - 800 = -64 from rfl] at habove hbelow
  generalize hu : (2 : Int) ^ 800 = u at h1' hpow
  cases n with
  | false =>
    rw [if_neg Bool.false_ne_true]
    refine isPower_of_parts (k := 0) (r := X) (64 + 736) ?_ h0'.le (hu ▸ h1') (fun _ => rfl) (fun h => absurd h (by decide))
      (fun h => absurd h (by decide)) (fun _ h => absurd h h0'.ne') (fun _ _ => habove)
    rw [zero_mul, zero_add]; rfl
  | true =>
    rw [if_pos rfl]
    refine isPower_of_parts (k := -1) (r := u - X) (63 + 736) ?_ (by omega) (by omega) (fun _ => rfl) (fun h => absurd h (by decide))
      (fun h => absurd h (by decide)) (fun _ h => ?_) (fun _ _ => hbelow)
    · rw [hu, Machine.signed, if_pos rfl]; omega
    · omega

/-- `VEXP2` of a finite value. -/
theorem fpExp2_fin {a m E : Nat} {n : Bool} (hnan : nanOf f [a] = none) (hv : f.val a = .fin n m (E - 800)) (hm : f.IsMag a m E) :
    IsPower f (Machine.signed n (m * 2 ^ E)) (fpExp2 f a) := by
  have hsig := Fmt.IsMag.sig_lt hf hm
  have hmb := hf.mb_le
  rw [fpExp2, hnan, hv]
  dsimp only
  by_cases hm0 : m = 0
  · subst hm0
    rw [if_pos rfl, zero_mul, show Machine.signed n 0 = 0 by cases n <;> rfl]
    rw [IsPower, Int.zero_ediv, Int.zero_emod, if_neg (by decide), if_neg (by decide), if_pos rfl,
      show ((0 : Int) + 800).toNat = 800 from rfl]
    exact round_one hf rfl (by omega)
  · have htop : (E : Int) - 800 + bitLen m - 1 = (E + m.log2 : Nat) - 800 := by rw [bitLen, if_neg hm0]; push_cast; ring
    obtain ⟨hlo, hhi⟩ := mul_two_pow_binade hm0 E
    rw [if_neg hm0, htop]
    by_cases hbig : 12 ≤ ((E + m.log2 : Nat) : Int) - 800
    · rw [if_pos hbig]
      refine isPower_of_large ?_ (fun h => ?_) (fun h => ?_)
      · exact (mul_two_pow_lt (by omega)).trans_le hlo
      · rw [h]; exact round_far_up hf
      · rw [h]
        refine Fmt.round_vanishing hf true one_ne_zero ?_
        have := hf.room
        rw [if_pos rfl, show bitLen 1 = 1 by decide, Fmt.emin]
        omega
    · rw [if_neg hbig]
      by_cases hsmall : ((E + m.log2 : Nat) : Int) - 800 < -60
      · rw [if_pos hsmall]
        exact isPower_of_tiny hf (Nat.mul_pos (Nat.pos_of_ne_zero hm0) (Nat.two_pow_pos _))
          (lt_two_pow_of_le hhi (by omega))
      · rw [if_neg hsmall]
        have hlog : m.log2 < 24 := (Nat.log2_lt hm0).2 hsig
        obtain ⟨D, rfl⟩ : ∃ D, E = D + 640 := ⟨E - 640, by omega⟩
        have hexp : (((D + 640 : Nat) : Int) - 800 + 160).toNat = D := by omega
        have hx : Machine.signed n (m * 2 ^ (D + 640)) = (if n then -1 else 1) * ((m * 2 ^ D : Nat) : Int) * 2 ^ 640 := by
          rw [pow_add, ← mul_assoc, signed_mul, signed_eq_mul, Nat.cast_pow, Nat.cast_ofNat]
        rw [hexp, hx]
        exact isPower_series hf _

/-- `VEXP2` (07_core_vector R132). -/
theorem fpExp2_correct (a : Nat) :
    Machine.NanOr f [a] false (fpExp2 f a)
      (if Machine.infCode f a then fpExp2 f a = ⟨if Machine.signOf f a then 0 else a, 0⟩
        else IsPower f (Machine.signed (Machine.signOf f a) (Machine.magOf 800 f a)) (fpExp2 f a)) := by
  refine nanOr_intro hf (fun c h => by rw [fpExp2, h]) (fun _ _ _ => rfl) (fun hnan => ?_)
  have hnone := (nanOf_eq_none hf).2 hnan
  rw [if_neg Bool.false_ne_true]
  cases Fmt.reads hf (hnan a (by simp)) with
  | inf hi _ hv => cases hs : Machine.signOf f a <;> simp [fpExp2, hnone, hv, hi, hs]
  | fin hi m E _ hv hm =>
    rw [hi, if_neg Bool.false_ne_true, hm.mag]
    exact fpExp2_fin hf hnone hv hm

/-- The logarithm of a magnitude that is a power of two is that power's exponent, an exact integer. -/
theorem log_exact (i : Int) :
    Machine.SumIs f false false (i * 2 ^ 800) (f.round rneN (decide (i < 0)) i.natAbs 0) := by
  have h := deliverSum_sumIs hf false false i (E := 800) (hf.mb_le.trans (by decide))
  have hy : f.round rneN (decide (i < 0)) i.natAbs 0 = f.deliverSum rneN false false (i, 0) := by
    rw [Fmt.deliverSum]
    split
    · next hi =>
      obtain rfl : i = 0 := hi
      rfl
    · rfl
  rwa [hy]

/-- The logarithm that `fpLog2` delivers of a value `v` in units of `2^-160`, cut to an integer. -/
def logOfUnits (f : Fmt) (v : Int) : Res :=
  if v < 0 then f.round rneN true (v.natAbs - 1) (-160) true else f.round rneN false v.natAbs (-160) true

/-- The logarithm of a magnitude that is no power of two, of exponent `i` and significand's logarithm `l`: between two integers. -/
theorem log_near (i : Int) {l : Nat} (h0 : 2 ^ 24 ≤ l) (h1 : l + 2 ^ 30 ≤ 2 ^ 160) :
    if 0 ≤ i then RoundedBetween f false (i.toNat * 2 ^ 800) ((i.toNat + 1) * 2 ^ 800) (logOfUnits f (i * 2 ^ 160 + l))
    else RoundedBetween f true ((-i).toNat * 2 ^ 800 - 2 ^ 800) ((-i).toNat * 2 ^ 800) (logOfUnits f (i * 2 ^ 160 + l)) := by
  have hsplit (n : Nat) : n * 2 ^ 800 = n * 2 ^ 160 * 2 ^ 640 := mul_two_pow_add rfl
  have hmb : f.mb ≤ 640 := hf.mb_le.trans (by decide)
  split
  · next hi =>
    obtain ⟨n, rfl⟩ := Int.eq_ofNat_of_zero_le hi
    have hy : logOfUnits f ((n : Int) * 2 ^ 160 + l) = f.round rneN false (n * 2 ^ 160 + l) ((640 : Nat) - 800) true := by
      rw [show (n : Int) * 2 ^ 160 + l = (n * 2 ^ 160 + l : Nat) by push_cast; rfl, logOfUnits, if_neg (Int.natCast_nonneg _).not_gt,
        Int.natAbs_natCast]
      rfl
    rw [hy, Int.toNat_natCast, hsplit, hsplit]
    exact round_between hf false hmb (by omega) (by omega) (by omega)
  · next hi =>
    obtain ⟨n, rfl⟩ : ∃ n : Nat, i = -(n + 1 : Nat) := ⟨(-i - 1).toNat, by omega⟩
    have hy : logOfUnits f (-(n + 1 : Nat) * 2 ^ 160 + l) =
        f.round rneN true (n * 2 ^ 160 + (2 ^ 160 - l - 1)) ((640 : Nat) - 800) true := by
      rw [show -((n + 1 : Nat) : Int) * 2 ^ 160 + l = -(n * 2 ^ 160 + (2 ^ 160 - l) : Nat) by omega, logOfUnits, if_pos (by omega),
        Int.natAbs_neg, Int.natAbs_natCast, Nat.add_sub_assoc (by omega)]
      rfl
    rw [hy, Int.neg_neg, Int.toNat_natCast, Nat.succ_mul, Nat.add_sub_cancel, ← Nat.succ_mul, hsplit, hsplit]
    exact round_between hf true hmb (by omega) (by omega) (by omega)

/-- What log2 is to be of a value `x` in units of `2^-800` (07_core_vector R132). -/
def IsLogarithm (f : Fmt) (x : Int) (y : Res) : Prop :=
  ∀ k : Nat, (2 ^ k : Int) ≤ x → x < 2 ^ (k + 1) →
    let i := (k : Int) - 800
    if x = 2 ^ k then Machine.SumIs f false false (i * 2 ^ 800) y
    else if 0 ≤ i then RoundedBetween f false (i.toNat * 2 ^ 800) ((i.toNat + 1) * 2 ^ 800) y
    else RoundedBetween f true ((-i).toNat * 2 ^ 800 - 2 ^ 800) ((-i).toNat * 2 ^ 800) y

/-- `VLOG2` of a finite value above zero. -/
theorem fpLog2_fin {a m E : Nat} (hnan : nanOf f [a] = none) (hv : f.val a = .fin false m (E - 800)) (hm : f.IsMag a m E) (hm0 : m ≠ 0) :
    IsLogarithm f (m * 2 ^ E : Nat) (fpLog2 f a) := by
  intro k hlo hhi i
  have hlo' : 2 ^ k ≤ m * 2 ^ E := by exact_mod_cast hlo
  have hhi' : m * 2 ^ E < 2 ^ (k + 1) := by exact_mod_cast hhi
  have hX : m * 2 ^ E ≠ 0 := Nat.mul_ne_zero hm0 (Nat.two_pow_pos E).ne'
  have hk : k = E + m.log2 := by
    rw [← (Nat.log2_eq_iff hX).2 ⟨hlo', hhi'⟩, (Nat.log2_eq_iff hX).2 (mul_two_pow_binade hm0 E)]
  have hi : (E : Int) - 800 + bitLen m - 1 = i := by
    rw [bitLen, if_neg hm0]; push_cast; simp only [i, hk]; push_cast; ring
  have hlen : bitLen m - 1 = m.log2 := by rw [bitLen, if_neg hm0, Nat.add_sub_cancel]
  have hexact : ((m * 2 ^ E : Nat) : Int) = 2 ^ k ↔ m = 2 ^ m.log2 := by
    rw [hk, add_comm E, pow_add, ← Nat.mul_left_inj (Nat.two_pow_pos E).ne']
    norm_cast
  rw [fpLog2, hnan, hv]
  simp only [if_neg hm0, Bool.false_eq_true, if_false, hi, hlen, hexact]
  split
  · exact log_exact hf i
  · next hne =>
    have hlogs := log2P_bounds (Fmt.IsMag.sig_lt hf hm) ((Nat.log2_self_le hm0).lt_of_ne' hne)
    exact log_near hf i hlogs.1 hlogs.2

/-- `VLOG2` (07_core_vector R132). -/
theorem fpLog2_correct (a : Nat) :
    Machine.NanOr f [a] (Machine.signOf f a && !Machine.zeroCode f a && !Machine.nanCode f a) (fpLog2 f a)
      (if Machine.zeroCode f a then fpLog2 f a = ⟨f.maxc + 1 + 2 ^ (f.eb + f.mb), 8⟩
        else if Machine.infCode f a then fpLog2 f a = ⟨a, 0⟩
        else IsLogarithm f (Machine.signed (Machine.signOf f a) (Machine.magOf 800 f a)) (fpLog2 f a)) := by
  refine nanOr_intro hf (fun c h => by rw [fpLog2, h]) (fun c hc hn => ?_) (fun hnan => ?_)
  · obtain rfl := List.mem_singleton.1 hc
    simp [hn]
  · have hnone := (nanOf_eq_none hf).2 hnan
    have hna := hnan a (by simp)
    cases Fmt.reads hf hna with
    | inf hi hz hv => cases hs : Machine.signOf f a <;> simp [fpLog2, hnone, hv, hi, hz, hna, hs, flNV]
    | fin hi m E hz hv hm =>
      by_cases hm0 : m = 0
      · simp [fpLog2, hnone, hv, hz, hm0, hf.beyond, Fmt.signBit, flDZ]
      · cases hs : Machine.signOf f a with
        | true => simp [fpLog2, hnone, hv, hz, hm0, hna, hs, flNV]
        | false =>
          rw [hs] at hv
          simp only [hi, hz, hm0, decide_false, Bool.false_and, Bool.false_eq_true, if_false, hm.mag]
          exact fpLog2_fin hf hnone hv hm hm0

end

theorem powersAndLogarithms : Machine.PowersAndLogarithms := by
  intro f hmem a ha
  have hf := Fmt.regular_of_mem hmem
  exact ⟨fpExp2_correct hf a, fpLog2_correct hf a⟩

end Sys2Proof.Machine

end

/-! ## Conversions (02_numbers R27, R30 to R34, R373) -/

section

open Sys2Proof Sys2Proof.Machine

namespace Sys2Proof.Machine

/-! ### Conversions -/

theorem eq_mul_iff_mod_eq_zero {n k u : Nat} (hlo : k * u ≤ n) (hhi : n < (k + 1) * u) : n = k * u ↔ n % u = 0 := by
  have hdiv : n / u = k := Nat.div_eq_of_lt_le hlo hhi
  have hn := Nat.div_add_mod n u
  rw [hdiv, mul_comm] at hn
  omega

/-- An exact magnitude rounded to a multiple of `2^Q`, told by division. -/
theorem roundAt_exact (rm : RMode) (neg : Bool) (m E Q : Nat) :
    (roundAt rm neg m (E - 800) false (Q - 800)).1 =
      (if m * 2 ^ E % 2 ^ Q ≠ 0 ∧ Machine.takesUpper rm neg (m * 2 ^ E / 2 ^ Q % 2 == 1) (m * 2 ^ E / 2 ^ Q * 2 ^ Q)
        ((m * 2 ^ E / 2 ^ Q + 1) * 2 ^ Q) (Machine.exactly (m * 2 ^ E)) = true then m * 2 ^ E / 2 ^ Q + 1 else m * 2 ^ E / 2 ^ Q) ∧
    ((roundAt rm neg m (E - 800) false (Q - 800)).2 = true ↔ m * 2 ^ E % 2 ^ Q = 0) := by
  obtain ⟨k, hk, hk1, hex, hc⟩ :=
    roundAt_roundsTo (stands_exact m E) (measures_exactly _) rm neg (Q := Q) (fun h => absurd h Bool.false_ne_true)
  have hk : k * 2 ^ Q ≤ m * 2 ^ E := by exact_mod_cast hk
  have hk1 : m * 2 ^ E < (k + 1) * 2 ^ Q := by exact_mod_cast hk1
  have hdiv : m * 2 ^ E / 2 ^ Q = k := Nat.div_eq_of_lt_le hk hk1
  have hmod : ((m * 2 ^ E : Nat) : ℝ) = k * 2 ^ Q ↔ m * 2 ^ E % 2 ^ Q = 0 := by
    rw [← eq_mul_iff_mod_eq_zero hk hk1]
    exact_mod_cast Iff.rfl
  have hodd : ((k + 1) % 2 == 0) = (k % 2 == 1) := by rw [Bool.eq_iff_iff]; simp; omega
  rw [hdiv]
  simp only [ne_eq, hmod, hodd] at hc hex
  exact ⟨hc, hex⟩

/-- A rounding to an integer of `w` bits. -/
theorem roundInt_correct (w : Nat) (r : Rnd) (neg : Bool) (m E : Nat) :
    Machine.RoundedInt w r neg (m * 2 ^ E)
      (if (roundInt r.mode neg m (E - 800)).1 < -(2 ^ (w - 1) : Int) ∨ (2 ^ (w - 1) : Int) ≤ (roundInt r.mode neg m (E - 800)).1 then
        ⟨if r.sat && !neg then 2 ^ (w - 1) - 1 else 2 ^ (w - 1), flNV⟩
      else ⟨ofSint w (roundInt r.mode neg m (E - 800)).1, if (roundInt r.mode neg m (E - 800)).2 then 0 else flNX⟩) := by
  obtain ⟨hval, hexact⟩ := roundAt_exact r.mode neg m E 800
  simp only [Machine.RoundedInt, ← hval, ← hexact]
  simp only [roundInt, Bool.and_eq_true, Bool.not_eq_true']
  rfl

/-! ### RL8 -/

/-- The magnitude that the model decodes is that of 02_numbers R27, code by code. -/
theorem rlMag_correct : ∀ c < 128, 0 < c →
    Machine.rlMagOf 7 2 c = (rlMag 7 2 c).1 * 2 ^ ((rlMag 7 2 c).2 + 800).toNat ∧ -100 ≤ (rlMag 7 2 c).2 := by
  decide +kernel

theorem magLe_iff {m1 m2 : Nat} {e1 e2 : Int} (h1 : -800 ≤ e1) (h2 : -800 ≤ e2) :
    magLe m1 e1 m2 e2 = true ↔ m1 * 2 ^ (e1 + 800).toNat ≤ m2 * 2 ^ (e2 + 800).toNat := by
  have hpow {e : Int} (h : -800 ≤ e) (hmin : min e1 e2 ≤ e) :
      2 ^ (e + 800).toNat = 2 ^ (e - min e1 e2).toNat * 2 ^ (min e1 e2 + 800).toNat := by
    rw [← pow_add]
    congr 1
    omega
  rw [hpow h1 (min_le_left ..), hpow h2 (min_le_right ..), ← mul_assoc, ← mul_assoc, Nat.mul_le_mul_right_iff (Nat.two_pow_pos _), magLe,
    decide_eq_true_iff]

/-- Is a code one of at least the magnitude looked for? -/
def rlAtLeast (n ne m : Nat) (e : Int) (c : Nat) : Bool := c < 2 ^ n && magLe m e (rlMag n ne c).1 (rlMag n ne c).2

theorem rlFind_succ (n ne m : Nat) (e : Int) (k lo : Nat) : rlFind n ne m e (k + 1) lo =
    if rlAtLeast n ne m e (lo + 2 ^ k) then rlFind n ne m e k (lo + 2 ^ k) else rlFind n ne m e k lo := rfl

/-- What the search by halving ends with: the next code is none of those looked for. -/
theorem rlFind_spec (n ne m : Nat) (e : Int) (k lo : Nat) (hend : rlAtLeast n ne m e (lo + 2 ^ k) = false) :
    (rlFind n ne m e k lo = lo ∨ rlAtLeast n ne m e (rlFind n ne m e k lo) = true) ∧
      rlAtLeast n ne m e (rlFind n ne m e k lo + 1) = false := by
  induction k generalizing lo with
  | zero => exact ⟨.inl rfl, hend⟩
  | succ k ih =>
    rw [rlFind_succ]
    cases hmid : rlAtLeast n ne m e (lo + 2 ^ k) with
    | false => exact ih lo hmid
    | true =>
      obtain ⟨hat, hnext⟩ := ih (lo + 2 ^ k) (by rwa [add_assoc, ← two_mul, ← pow_succ'])
      refine ⟨.inr (hat.elim (fun h => ?_) id), hnext⟩
      rw [if_pos rfl, h, hmid]

/-- The magnitude of an RL8 code, 0 behind the last one. -/
def rl8 (c : Nat) : Nat := if c = 128 then 0 else Machine.rlMagOf 7 2 c

section
variable {m E : Nat} (c : Nat) (h0 : 0 < c) (h : c < 128)
include h0 h

theorem rl8_eq : (rlMag 7 2 c).1 * 2 ^ ((rlMag 7 2 c).2 + 800).toNat = rl8 c := by
  rw [rl8, if_neg h.ne, (rlMag_correct c h h0).1]

theorem magLe_rl8 : magLe m (E - 800) (rlMag 7 2 c).1 (rlMag 7 2 c).2 = true ↔ m * 2 ^ E ≤ rl8 c := by
  have hexp := (rlMag_correct c h h0).2
  rw [magLe_iff (by omega) (by omega), rl8_eq c h0 h, Int.sub_add_cancel, Int.toNat_natCast]

theorem rl8_magLe : magLe (rlMag 7 2 c).1 (rlMag 7 2 c).2 m (E - 800) = true ↔ rl8 c ≤ m * 2 ^ E := by
  have hexp := (rlMag_correct c h h0).2
  rw [magLe_iff (by omega) (by omega), rl8_eq c h0 h, Int.sub_add_cancel, Int.toNat_natCast]

end

/-- The codes beside a magnitude: the last of at least the magnitude, and the next one below it. -/
theorem rlFind_rl8 {m E : Nat} (hpos : 0 < m * 2 ^ E) (htop : m * 2 ^ E ≤ rl8 1) :
    let hi := rlFind 7 2 m (E - 800) 7 0
    0 < hi ∧ hi < 128 ∧ m * 2 ^ E ≤ rl8 hi ∧ rl8 (hi + 1) < m * 2 ^ E := by
  intro hi
  have hat {c : Nat} (h0 : 0 < c) : rlAtLeast 7 2 m (E - 800) c = true ↔ c < 128 ∧ m * 2 ^ E ≤ rl8 c := by
    rw [rlAtLeast, Bool.and_eq_true, decide_eq_true_iff]
    exact and_congr_right (fun h => magLe_rl8 c h0 h)
  obtain ⟨hfound, hnext⟩ := rlFind_spec 7 2 m (E - 800) 7 0 (by simp [rlAtLeast])
  have hnext : ¬ (hi + 1 < 128 ∧ m * 2 ^ E ≤ rl8 (hi + 1)) := by rw [← hat (Nat.succ_pos _)]; exact Bool.eq_false_iff.1 hnext
  have h0 : 0 < hi := by
    refine Nat.pos_of_ne_zero (fun h => ?_)
    rw [h] at hnext
    exact hnext ⟨by decide, htop⟩
  obtain ⟨hlt, hle⟩ := (hat h0).1 (hfound.resolve_left h0.ne')
  refine ⟨h0, hlt, hle, ?_⟩
  by_cases hlast : hi + 1 < 128
  · exact not_le.1 (fun h => hnext ⟨hlast, h⟩)
  · have : hi + 1 = 128 := by omega
    rw [this]
    exact hpos

/-- Does a magnitude `x` between two codes' `vl` and `vh` go to the larger one (02_numbers R33)? -/
def rlUp (rm : RMode) (neg even : Bool) (vh vl x : Nat × Int) : Bool :=
  let q := min (min vh.2 vl.2) x.2 - 1
  let H := vh.1 * 2 ^ (vh.2 - q).toNat
  let L := vl.1 * 2 ^ (vl.2 - q).toNat
  let X := x.1 * 2 ^ (x.2 - q).toNat
  match rm with
  | .rtz => false
  | .rup => !neg
  | .rdn => neg
  | .rne => if 2 * X = H + L then even else decide (H + L < 2 * X)

/-- A magnitude of a significand and an exponent, in units of `2^-800`. -/
def inUnits (v : Nat × Int) : Nat := v.1 * 2 ^ (v.2 + 800).toNat

theorem rlUp_eq_takesUpper (rm : RMode) (neg even : Bool) {vh vl x : Nat × Int} (hh : -799 ≤ vh.2) (hl : -799 ≤ vl.2) (hx : -799 ≤ x.2) :
    rlUp rm neg even vh vl x = Machine.takesUpper rm neg even (inUnits vl) (inUnits vh) (Machine.exactly (inUnits x)) := by
  obtain ⟨d, hd⟩ : ∃ d : Nat, min (min vh.2 vl.2) x.2 - 1 + 800 = d := ⟨(min (min vh.2 vl.2) x.2 - 1 + 800).toNat, by omega⟩
  have hunits {v : Nat × Int} (hv : min (min vh.2 vl.2) x.2 ≤ v.2) :
      inUnits v = v.1 * 2 ^ (v.2 - (min (min vh.2 vl.2) x.2 - 1)).toNat * 2 ^ d := by
    rw [inUnits, mul_assoc, ← pow_add]
    congr 2
    omega
  rw [hunits (v := vh) (by omega), hunits (v := vl) (by omega), hunits (v := x) (by omega)]
  simp only [rlUp, Machine.takesUpper]
  generalize vh.1 * 2 ^ (vh.2 - (min (min vh.2 vl.2) x.2 - 1)).toNat = H
  generalize vl.1 * 2 ^ (vl.2 - (min (min vh.2 vl.2) x.2 - 1)).toNat = L
  generalize x.1 * 2 ^ (x.2 - (min (min vh.2 vl.2) x.2 - 1)).toNat = X
  cases rm with
  | rne =>
    have hpos : 0 < 2 ^ d := Nat.two_pow_pos d
    have hcmp : Machine.exactly (X * 2 ^ d) 2 (L * 2 ^ d + H * 2 ^ d) = compare (2 * X) (H + L) := by
      rw [Machine.exactly, ← mul_assoc, ← add_mul, add_comm L]
      exact compare_congr (Nat.mul_lt_mul_right hpos) (Nat.mul_lt_mul_right hpos)
    simp only [hcmp, if_true]
    rcases lt_trichotomy (2 * X) (H + L) with h | h | h
    · rw [if_neg h.ne, compare_lt_iff_lt.2 h, decide_eq_false h.not_gt]; rfl
    · rw [if_pos h, compare_eq_iff_eq.2 h]; rfl
    · rw [if_neg h.ne', compare_gt_iff_gt.2 h, decide_eq_true h]; rfl
  | rtz => rfl
  | rup => cases neg <;> rfl
  | rdn => cases neg <;> rfl

/-- `rlRound` where the code found has the magnitude. -/
theorem rlRound_at (r : Rnd) (neg : Bool) {m : Nat} {e : Int} (htop : magLe m e (rlMag 7 2 1).1 (rlMag 7 2 1).2 = true)
    (hat : magLe (rlMag 7 2 (rlFind 7 2 m e 7 0)).1 (rlMag 7 2 (rlFind 7 2 m e 7 0)).2 m e = true) :
    rlRound 7 2 r neg m e = ⟨rlFind 7 2 m e 7 0 + (if neg then 128 else 0), 0⟩ := by
  simp only [rlRound, htop, hat, Bool.not_true, Bool.false_eq_true, if_false]
  rfl

/-- `rlRound` where the magnitude is strictly between the code found and the next. -/
theorem rlRound_between (r : Rnd) (neg : Bool) {m : Nat} {e : Int} (htop : magLe m e (rlMag 7 2 1).1 (rlMag 7 2 1).2 = true)
    (hne : magLe (rlMag 7 2 (rlFind 7 2 m e 7 0)).1 (rlMag 7 2 (rlFind 7 2 m e 7 0)).2 m e = false) :
    let hi := rlFind 7 2 m e 7 0
    let lo := if hi = 127 then 0 else hi + 1
    let vl := if hi = 127 then (0, (rlMag 7 2 hi).2) else rlMag 7 2 lo
    let c := if rlUp r.mode neg (hi % 2 == 0) (rlMag 7 2 hi) vl (m, e) then hi else lo
    rlRound 7 2 r neg m e = ⟨if c = 0 then 0 else c + (if neg then 128 else 0), if c = 0 then 3 else 1⟩ := by
  simp only [rlRound, htop, hne, Bool.not_true, Bool.false_eq_true, if_false]
  rfl

/-- Rounding into RL8, by the code found and the one next to it. -/
theorem rlRound_found (r : Rnd) (neg : Bool) {m E : Nat} (hE : 0 < E) (hpos : 0 < m * 2 ^ E) (hle : m * 2 ^ E ≤ rl8 1) :
    let hi := rlFind 7 2 m (E - 800) 7 0
    let c := if m * 2 ^ E = rl8 hi ∨
      Machine.takesUpper r.mode neg (hi % 2 == 0) (rl8 (hi + 1)) (rl8 hi) (Machine.exactly (m * 2 ^ E)) then hi else hi + 1
    rlRound 7 2 r neg m (E - 800) = if c = 128 then ⟨0, 3⟩ else ⟨c + (if neg then 128 else 0), if rl8 c = m * 2 ^ E then 0 else 1⟩ := by
  obtain ⟨h0, h128, hle', hnext⟩ := rlFind_rl8 hpos hle
  have htop := (magLe_rl8 1 (by decide) (by decide)).2 hle
  have hmeets := rl8_magLe (m := m) (E := E) _ h0 h128
  have hexp := (rlMag_correct _ h128 h0).2
  have hvh : inUnits (rlMag 7 2 (rlFind 7 2 m (E - 800) 7 0)) = rl8 (rlFind 7 2 m (E - 800) 7 0) := rl8_eq _ h0 h128
  have hX : inUnits (m, E - 800) = m * 2 ^ E := by rw [inUnits, Int.sub_add_cancel, Int.toNat_natCast]
  cases hmeet : magLe (rlMag 7 2 (rlFind 7 2 m (E - 800) 7 0)).1 (rlMag 7 2 (rlFind 7 2 m (E - 800) 7 0)).2 m (E - 800) with
  | true =>
    rw [rlRound_at r neg htop hmeet]
    generalize rlFind 7 2 m (E - 800) 7 0 = hi at *
    have heq : m * 2 ^ E = rl8 hi := le_antisymm hle' (hmeets.1 hmeet)
    simp only [heq, true_or, if_true, if_neg h128.ne]
  | false =>
    rw [rlRound_between r neg htop hmeet]
    generalize rlFind 7 2 m (E - 800) 7 0 = hi at *
    have hlt : m * 2 ^ E < rl8 hi := not_le.1 (fun h => Bool.eq_false_iff.1 hmeet (hmeets.2 h))
    obtain ⟨hvl, hexpl⟩ : inUnits (if hi = 127 then (0, (rlMag 7 2 hi).2) else rlMag 7 2 (if hi = 127 then 0 else hi + 1)) = rl8 (hi + 1) ∧
        -100 ≤ (if hi = 127 then (0, (rlMag 7 2 hi).2) else rlMag 7 2 (if hi = 127 then 0 else hi + 1)).2 := by
      by_cases hlast : hi = 127
      · rw [if_pos hlast, inUnits, Nat.zero_mul, hlast]
        exact ⟨rfl, hlast ▸ hexp⟩
      · rw [if_neg hlast, if_neg hlast]
        exact ⟨rl8_eq _ (Nat.succ_pos hi) (by omega), (rlMag_correct _ (by omega) (Nat.succ_pos hi)).2⟩
    have hup := rlUp_eq_takesUpper r.mode neg (hi % 2 == 0) (vh := rlMag 7 2 hi) (x := (m, E - 800)) (hexp.trans' (by decide))
      (hexpl.trans' (by decide)) (by dsimp only; omega)
    rw [hvh, hvl, hX] at hup
    simp only [hup, hlt.ne, false_or]
    generalize Machine.takesUpper r.mode neg (hi % 2 == 0) (rl8 (hi + 1)) (rl8 hi) (Machine.exactly (m * 2 ^ E)) = up
    cases up with
    | true => simp only [if_true, if_neg h0.ne', if_neg h128.ne, if_neg hlt.ne']
    | false =>
      by_cases hlast : hi = 127
      · subst hlast; rfl
      · have h127 : hi + 1 ≠ 128 := by omega
        simp only [Bool.false_eq_true, if_false, if_neg hlast, if_neg (Nat.succ_ne_zero hi), if_neg h127, if_neg hnext.ne]

/-- Rounding into RL8 (02_numbers R30, R33, R34). -/
theorem rlRound_correct (r : Rnd) (neg : Bool) {m E : Nat} (hm : m ≠ 0) (hE : 0 < E) :
    Machine.RoundedRl r neg (m * 2 ^ E) (rlRound 7 2 r neg m (E - 800)) := by
  have hpos : 0 < m * 2 ^ E := Nat.mul_pos (Nat.pos_of_ne_zero hm) (Nat.two_pow_pos E)
  refine ⟨fun h => ?_, fun h => ?_⟩
  · have : magLe m (E - 800) (rlMag 7 2 1).1 (rlMag 7 2 1).2 = false :=
      Bool.eq_false_iff.2 (fun hle => h.not_ge ((magLe_rl8 1 (by decide) (by decide)).1 hle))
    simp only [rlRound, this]
    rfl
  · obtain ⟨h0, h128, hle, hnext⟩ := rlFind_rl8 hpos h
    exact ⟨_, h128, h0, hle, hnext, rlRound_found r neg hE hpos h⟩

/-! ### Conversions between the element types -/

theorem tyIsI_eq {t : Nat} (h : t < 8) : tyIsI t = decide (5 ≤ t) := by
  interval_cases t <;> rfl

theorem tyIsL_eq {t : Nat} (h : t < 8) : tyIsL t = decide (t = 4) := by
  interval_cases t <;> rfl

theorem tyFmt_regular {t : Nat} (h : t < 5) : (tyFmt t).Regular := by
  refine Fmt.regular_of_mem ?_
  interval_cases t <;> simp [tyFmt]

section
variable {src dst c : Nat} {r : Rnd} (hdst : dst < 8)
include hdst

/-- The conversion of a finite value. -/
theorem convert_fin {neg : Bool} {m E : Nat} (hv : tyVal src c = .fin neg m (E - 800)) (hz : m = 0 → tyIsI src = true → neg = false)
    (hE : 23 ≤ E) : Machine.FiniteTo dst r neg (m * 2 ^ E) (convert src c dst r) := by
  have hpos : 0 < 2 ^ E := Nat.two_pow_pos E
  rw [convert, hv]
  simp only [tyIsI_eq hdst, tyIsL_eq hdst, Machine.FiniteTo, decide_eq_true_iff]
  split
  · exact roundInt_correct (tyWidth dst) r neg m E
  · split
    · refine ⟨fun h => ?_, fun h => ?_⟩
      · rw [if_pos ((Nat.mul_eq_zero.1 h).resolve_right hpos.ne')]
      · have hm : m ≠ 0 := (Nat.pos_of_mul_pos_right h).ne'
        rw [if_neg hm]
        exact rlRound_correct r neg hm (by omega)
    · have hf := tyFmt_regular (t := dst) (by omega)
      have hneg : (neg && !(tyIsI src && m == 0)) = neg := by
        by_cases hm : m = 0
        · cases hi : tyIsI src with
          | false => simp
          | true => simp [hz hm hi]
        · simp [hm]
      rw [hneg]
      refine ⟨fun h => ?_, fun h => ?_⟩
      · obtain rfl := (Nat.mul_eq_zero.1 h).resolve_right hpos.ne'
        rfl
      · exact Fmt.round_exact hf r neg (Nat.pos_of_mul_pos_right h).ne' (by have := hf.mb_le; omega)

theorem convert_inf {neg : Bool} (hv : tyVal src c = .inf neg) : convert src c dst r = Machine.InfTo dst r neg := by
  rw [convert, hv]
  simp only [tyIsI_eq hdst, tyIsL_eq hdst, Machine.InfTo, decide_eq_true_iff, Bool.and_eq_true, Bool.not_eq_true']
  split
  · rfl
  · split
    · next h => subst h; cases neg <;> rfl
    · have hd : dst < 4 := by omega
      interval_cases dst <;> cases r.sat <;> rfl

theorem convert_nan (hv : tyVal src c = .nan) :
    convert src c dst r = Machine.NanTo dst r (!tyIsL src && (tyFmt src).sign c)
      (if src = dst then some ((tyFmt dst).quiet c) else if src = 0 ∧ dst = 1 then some (c / 65536 ||| 0x40)
        else if src = 1 ∧ dst = 0 then some (c * 65536 ||| 0x400000) else none)
      (tyIsF src && (tyFmt src).isSNan c) := by
  rw [convert, hv]
  simp only [tyIsI_eq hdst, Machine.NanTo, decide_eq_true_iff]
  split
  · rfl
  · simp only [convNan, tyIsL_eq hdst, decide_eq_true_iff]
    split
    · next h => subst h; rfl
    · by_cases hsame : src = dst
      · rw [if_pos hsame, if_pos hsame]; rfl
      · by_cases hnarrow : src = 0 ∧ dst = 1
        · rw [if_neg hsame, if_neg hsame, if_pos hnarrow, if_pos hnarrow]; rfl
        · by_cases hwide : src = 1 ∧ dst = 0
          · rw [if_neg hsame, if_neg hsame, if_neg hnarrow, if_neg hnarrow, if_pos hwide, if_pos hwide]; rfl
          · rw [if_neg hsame, if_neg hsame, if_neg hnarrow, if_neg hnarrow, if_neg hwide, if_neg hwide]; rfl

end

/-- Conversions from the types of class F. -/
theorem convert_float {src dst c : Nat} {r : Rnd} (hsrc : src < 4) (hdst : dst < 8) :
    if Machine.nanCode (tyFmt src) c then convert src c dst r = Machine.NanTo dst r (Machine.signOf (tyFmt src) c)
      (if src = dst then some (if (tyFmt src).eb = 8 then c ||| 2 ^ ((tyFmt src).mb - 1) else c)
        else if src = 0 ∧ dst = 1 then some (c / 2 ^ 16 ||| 0x40)
        else if src = 1 ∧ dst = 0 then some (c * 2 ^ 16 ||| 0x400000) else none) (Machine.signals (tyFmt src) c)
    else if Machine.infCode (tyFmt src) c then convert src c dst r = Machine.InfTo dst r (Machine.signOf (tyFmt src) c)
    else Machine.FiniteTo dst r (Machine.signOf (tyFmt src) c) (Machine.magOf 800 (tyFmt src) c) (convert src c dst r) := by
  have hf := tyFmt_regular (t := src) (by omega)
  have hF : tyIsF src = true := by simp [tyIsF, hsrc]
  have hL : tyIsL src = false := by rw [tyIsL_eq (by omega)]; simp; omega
  have hI : tyIsI src = false := by rw [tyIsI_eq (by omega)]; simp; omega
  have hval : tyVal src c = (tyFmt src).val c := by
    have h4 : src ≠ 4 := by omega
    have h9 : src ≠ 9 := by omega
    rw [tyVal, if_neg h4, if_neg h9, hI, if_neg Bool.false_ne_true]
  rw [show 2 ^ 16 = 65536 from rfl]
  cases hn : Machine.nanCode (tyFmt src) c with
  | true =>
    rw [if_pos rfl, convert_nan hdst (hval.trans (Fmt.val_nan hf hn)), hL, hF, Fmt.isSNan_eq hf]
    by_cases hsd : src = dst
    · subst hsd
      simp [Fmt.quiet, Fmt.sign, Machine.signOf]
    · rw [if_neg hsd, if_neg hsd]
      rfl
  | false =>
    cases Fmt.reads hf hn with
    | inf hi _ hv => rw [hi, convert_inf hdst (hval.trans hv)]; simp
    | fin hi m E _ hv hm =>
      rw [hi, hm.mag, if_neg Bool.false_ne_true, if_neg Bool.false_ne_true]
      exact convert_fin hdst (hval.trans hv) (fun _ h => by simp [hI] at h) (by have := hm.low; omega)

/-- Conversions from RL8. -/
theorem convert_rl {dst c : Nat} {r : Rnd} (hdst : dst < 8) (hc : c < 256) :
    if c = 0x80 then convert 4 c dst r = Machine.NanTo dst r false none false
    else Machine.FiniteTo dst r (c.testBit 7) (if c = 0 then 0 else Machine.rlMagOf 7 2 (c % 128)) (convert 4 c dst r) := by
  have hval : tyVal 4 c = rlVal 7 2 c := rfl
  by_cases hnan : c = 0x80
  · subst hnan
    rw [if_pos rfl, convert_nan hdst (hval.trans rfl)]
    by_cases hd : dst = 4
    · subst hd; rfl
    · rw [if_neg (Ne.symm hd)]; rfl
  · rw [if_neg hnan]
    by_cases h0 : c = 0
    · subst h0
      have := convert_fin (r := r) (src := 4) (c := 0) (neg := false) (m := 0) (E := 800) hdst rfl (fun _ _ => rfl) (by omega)
      rwa [Nat.zero_mul] at this
    · have hmod : c % 128 ≠ 0 := by omega
      obtain ⟨hmag, hexp⟩ := rlMag_correct (c % 128) (Nat.mod_lt _ (by decide)) (Nat.pos_of_ne_zero hmod)
      obtain ⟨E, hE⟩ : ∃ E : Nat, (rlMag 7 2 (c % 128)).2 = E - 800 := ⟨((rlMag 7 2 (c % 128)).2 + 800).toNat, by omega⟩
      have hv : tyVal 4 c = .fin (c.testBit 7) (rlMag 7 2 (c % 128)).1 (E - 800) := by
        rw [hval, rlVal, ← hE]
        exact if_neg hmod
      rw [if_neg h0, hmag, hE, Int.sub_add_cancel, Int.toNat_natCast]
      exact convert_fin hdst hv (fun _ h => by simp [tyIsI] at h) (by omega)

/-- Conversions from the integer types. -/
theorem convert_int {src dst c : Nat} {r : Rnd} (hsrc : 5 ≤ src) (hsrc8 : src < 8) (hdst : dst < 8) (hc : c < 2 ^ tyWidth src) :
    let i : Int := if 2 ^ (tyWidth src - 1) ≤ c then (c : Int) - 2 ^ tyWidth src else c
    Machine.FiniteTo dst r (decide (i < 0)) (i.natAbs * 2 ^ 800) (convert src c dst r) := by
  intro i
  have hI : tyIsI src = true := by rw [tyIsI_eq hsrc8]; simp [hsrc]
  have hval : tyVal src c = .fin (decide (i < 0)) i.natAbs ((800 : Nat) - 800) := by
    have h4 : src ≠ 4 := by omega
    have h9 : src ≠ 9 := by omega
    rw [tyVal, if_neg h4, if_neg h9, hI, if_pos rfl, sintOf, Nat.mod_eq_of_lt hc]
    rfl
  exact convert_fin hdst hval (fun h _ => by simp [Int.natAbs_eq_zero.1 h]) (by omega)

theorem conversions : Machine.Conversions := by
  intro src dst c r hsrc hdst hc
  refine ⟨fun h => convert_float h hdst, fun h => ?_, fun h => convert_int h hsrc hdst hc⟩
  subst h
  exact convert_rl hdst hc

end Sys2Proof.Machine

/-- Settles O7, part by part: the rounding of an exact or sticky magnitude to one of the codes beside it serves all of them. -/
theorem rounding : Obligations.Rounding :=
  ⟨floatingArithmetic, quotientsAndRoots, powersAndLogarithms, orderOfValues, conversions, accumulator⟩

end

/-! ## The fields of a word, and their codes (04_encoding R67, R72 to R78) -/

section

open Sys2Proof

namespace Sys2Proof

/-! ### Codes -/

@[simp] theorem Mask.ofCode_code (m : Mask) : Mask.ofCode m.code = m := by cases m <;> rfl
@[simp] theorem ETy.ofCode_code (t : ETy) : ETy.ofCode t.code = t := by cases t <;> rfl
@[simp] theorem XTy.ofCode_code (t : XTy) : XTy.ofCode t.code = t := by cases t <;> rfl
@[simp] theorem Scope.ofCode_code (sc : Scope) : Scope.ofCode sc.code = sc := by cases sc <;> rfl
@[simp] theorem Space.ofCode_code (spc : Space) : Space.ofCode spc.code = spc := by cases spc <;> rfl
@[simp] theorem Rnd.ofCode_code : ∀ r : Rnd, Rnd.ofCode r.code = r := by
  rintro ⟨mode, sat⟩
  cases mode <;> cases sat <;> rfl

/-- A flag of a word is read back from its bit. -/
@[simp] theorem toNat_beq_one (p : Bool) : (p.toNat == 1) = p := by cases p <;> rfl

theorem Mask.code_lt (m : Mask) : m.code < 4 := by cases m <;> decide
theorem ETy.code_lt (t : ETy) : t.code < 8 := by cases t <;> decide
theorem XTy.code_lt (t : XTy) : t.code < 4 := by cases t <;> decide
theorem Scope.code_lt (sc : Scope) : sc.code < 6 := by cases sc <;> decide
theorem Space.code_lt (spc : Space) : spc.code < 4 := by cases spc <;> decide
theorem Rnd.code_lt : ∀ r : Rnd, r.code < 8 := by
  rintro ⟨mode, sat⟩
  cases mode <;> cases sat <;> decide

/-! ### Every value of a field is a code -/

theorem exists_toNat {n : Nat} (h : n < 2) : ∃ p : Bool, p.toNat = n := ⟨n == 1, by interval_cases n <;> rfl⟩
theorem Mask.exists_code {n : Nat} (h : n < 4) : ∃ m : Mask, m.code = n := ⟨.ofCode n, by interval_cases n <;> rfl⟩
theorem ETy.exists_code {n : Nat} (h : n < 8) : ∃ t : ETy, t.code = n := ⟨.ofCode n, by interval_cases n <;> rfl⟩
theorem XTy.exists_code {n : Nat} (h : n < 4) : ∃ t : XTy, t.code = n := ⟨.ofCode n, by interval_cases n <;> rfl⟩
theorem Scope.exists_code {n : Nat} (h : n < 6) : ∃ sc : Scope, sc.code = n := ⟨.ofCode n, by interval_cases n <;> rfl⟩
theorem Space.exists_code {n : Nat} (h : n < 4) : ∃ spc : Space, spc.code = n := ⟨.ofCode n, by interval_cases n <;> rfl⟩
theorem Rnd.exists_code {n : Nat} (h : n < 8) : ∃ r : Rnd, r.code = n := ⟨.ofCode n, by interval_cases n <;> rfl⟩

theorem ETy.code_inj {t u : ETy} (h : t.code = u.code) : t = u := by
  rw [← t.ofCode_code, h, u.ofCode_code]

theorem isSysReg_lt {n : Nat} (h : isSysReg n = true) : n < 4096 := by
  simp [isSysReg] at h
  omega

/-! ### The six fields -/

/-- Every field fits its width. -/
structure Fields.InRange (f : Fields) : Prop where
  st : f.st < 2
  maj : f.maj < 64
  d : f.d < 32
  a : f.a < 32
  b : f.b < 32
  lo : f.lo < 1024

theorem Fields.unpack_inRange (w : Nat) : (unpack w).InRange := by
  constructor <;> exact Nat.mod_lt _ (by decide)

theorem Fields.pack_lt {f : Fields} (h : f.InRange) : f.pack < 2 ^ 32 := by
  obtain ⟨hst, hmaj, hd, ha, hb, hlo⟩ := h
  unfold pack
  omega

theorem Fields.unpack_pack {f : Fields} (h : f.InRange) : unpack f.pack = f := by
  obtain ⟨hst, hmaj, hd, ha, hb, hlo⟩ := h
  obtain ⟨st, maj, d, a, b, lo⟩ := f
  simp only [unpack, pack, Fields.mk.injEq] at *
  omega

theorem Fields.pack_unpack {w : Nat} (h : w < 2 ^ 32) : (unpack w).pack = w := by
  simp only [unpack, pack]
  omega

/-! ### Fields of several parts -/

/-- A field of two parts: `k` in steps of `u`, and `x` below `u`. -/
theorem two_parts {k x u : Nat} (hk : k % u = 0) (hx : x < u) : (k + x) / u = k / u ∧ (k + x) % u = x := by
  obtain ⟨c, rfl⟩ := Nat.dvd_of_mod_eq_zero hk
  have hu : 0 < u := by omega
  rw [Nat.mul_add_div hu, Nat.div_eq_of_lt hx, Nat.mul_div_cancel_left _ hu, Nat.mul_add_mod, Nat.mod_eq_of_lt hx]
  exact ⟨rfl, rfl⟩

/-- The low field of a V word (R77, R78): function, mask mode, element type. -/
theorem vOptions {fn : Nat} (h : fn < 32) (m : Mask) (t : ETy) :
    (fn + m.code * 256 + t.code * 32) / 256 = m.code ∧ (fn + m.code * 256 + t.code * 32) / 32 % 8 = t.code ∧
      (fn + m.code * 256 + t.code * 32) % 32 = fn := by
  have := m.code_lt
  have := t.code_lt
  omega

theorem vOptions_zero (m : Mask) (t : ETy) :
    (m.code * 256 + t.code * 32) / 256 = m.code ∧ (m.code * 256 + t.code * 32) / 32 % 8 = t.code ∧
      (m.code * 256 + t.code * 32) % 32 = 0 := by
  simpa only [Nat.zero_add] using vOptions (fn := 0) (by decide) m t

/-- A displacement or upper immediate of 17 or 20 bits over three fields (R73, R74). -/
theorem three_fields (i : Nat) : i / 32768 * 32768 + i / 1024 % 32 * 1024 + i % 1024 = i := by omega

/-- A displacement or payload of 25 bits over four fields (R74, R79). -/
theorem four_fields (i : Nat) : i / 1048576 * 1048576 + i / 32768 % 32 * 32768 + i / 1024 % 32 * 1024 + i % 1024 = i := by
  omega

end Sys2Proof

end

/-! ## Decoding the fields that an instruction is encoded to -/

section

open Sys2Proof

namespace Sys2Proof

theorem Fields.inRange_iff {st maj d a b lo : Nat} :
    InRange ⟨st, maj, d, a, b, lo⟩ ↔ st < 2 ∧ maj < 64 ∧ d < 32 ∧ a < 32 ∧ b < 32 ∧ lo < 1024 :=
  ⟨fun ⟨hst, hmaj, hd, ha, hb, hlo⟩ => ⟨hst, hmaj, hd, ha, hb, hlo⟩,
    fun ⟨hst, hmaj, hd, ha, hb, hlo⟩ => ⟨hst, hmaj, hd, ha, hb, hlo⟩⟩

/-- Every operand of a well-formed instruction fits its field. -/
theorem encodeFields_inRange {i : Instr} (h : i.wf = true) : (encodeFields i).InRange := by
  cases i with
  | add st d a b | sub st d a b | and st d a b | or st d a b | xor st d a b | andn st d a b | orn st d a b | sll st d a b
    | srl st d a b | sra st d a b | rol st d a b | ror st d a b | slt st d a b | sltu st d a b | seq st d a b | sne st d a b
    | min st d a b | max st d a b | minu st d a b | maxu st d a b | mul st d a b | mulh st d a b | mulhu st d a b
    | mulhsu st d a b | div st d a b | divu st d a b | rem st d a b | remu st d a b | clz st d a | ctz st d a | popc st d a
    | ffs st d a | brev st d a | bswap st d a | sxb st d a | sxh st d a | sxw st d a | zxb st d a | zxh st d a | zxw st d a
    | addi st d a i | andi st d a i | ori st d a i | xori st d a i | slti st d a i | sltiu st d a i | slli st d a c
    | srli st d a c | srai st d a c | rori st d a c | lui st d i | addpc st d i | stf st d b x | barvx st a b | ttdef st a b
    | mturn st d a | mringcfg st d a b | mringadv st d a b | mzero st d a | mmax st d a b | mrec st d a b | mldprog st d a
    | maccwr st d a b | mstat st d a l | scopy st d a q | scopy2d st d a q | sfill st d a q | scvt st d a q | shint st d a q
    | sqcfg st d a q | sqstat st d a q | sqstatNamed st d a b | sqrst st d q | cdef st d a | crsz st d a | cflush st d a b
    | cinval st d a b | cquery st d a b l | cplace st d a b | cdrop st d a | map st d a | grant st d a | unmap st d a b
    | unmapx st d a b | send st d a | reply st d a | epdrop st d a | epinfo st d a | chbind st d a b | mquery st d a b l
    | ginfo st d a | wstat st d a l | setshp st d a =>
    change (_ && _) = true at h
    simp only [Bool.and_eq_true, regOk, decide_eq_true_eq] at h
    refine Fields.inRange_iff.2 ?_
    have := st.toNat_lt
    omega
  | beqz a x | bnez a x | bltz a x | bgez a x | bgtz a x | blez a x | bodd a x | jlr d a i | ldf d b x | ldfn d b x | ste d b x
    | bwait a b | tlwait a b | call a b | trap a b c | rpt c l x y z e =>
    change (_ && _) = true at h
    simp only [Bool.and_eq_true, regOk, decide_eq_true_eq] at h
    refine Fields.inRange_iff.2 ?_
    omega
  | lease st a | barv st a | ttrel st a | spawn st a | spawng st a | pdec st a | chpri st a | affin st a =>
    exact Fields.inRange_iff.2 ⟨st.toNat_lt, by decide, by decide, of_decide_eq_true h, by decide, by decide⟩
  | mtend st d =>
    exact Fields.inRange_iff.2 ⟨st.toNat_lt, by decide, of_decide_eq_true h, by decide, by decide, by decide⟩
  | ttwait a =>
    exact Fields.inRange_iff.2 ⟨by decide, by decide, by decide, of_decide_eq_true h, by decide, by decide⟩
  | lrel | endOp | ckpt | yield | bkpt =>
    refine Fields.inRange_iff.2 ?_
    omega
  | j x | jl x | pfx p =>
    have := of_decide_eq_true h
    refine Fields.inRange_iff.2 ?_
    omega
  | srd st d n | swr st a n | srset st d a n | srclr st d a n =>
    change (_ && _) = true at h
    simp only [Bool.and_eq_true, regOk, decide_eq_true_eq] at h
    refine Fields.inRange_iff.2 ?_
    have := st.toNat_lt
    have := isSysReg_lt h.2
    omega
  | vadd st d a b m t | vsub st d a b m t | vmul st d a b m t | vdiv st d a b m t | vmin st d a b m t | vmax st d a b m t
    | vsqrt st d a m t | vexp2 st d a m t | vlog2 st d a m t | vabs st d a m t | vneg st d a m t | vmv st d a m t
    | vand st d a b m t | vor st d a b m t | vxor st d a b m t | vsll st d a b m t | vsrl st d a b m t | vsra st d a b m t
    | vadds st d a b m t | vsubs st d a b m t | vmulh st d a b m t | vclz st d a m t | vpopc st d a m t | vffs st d a m t
    | vfma st d a b m t | vfms st d a b m t | vfnma st d a b m t | vfnms st d a b m t | vceq st d a b m t | vcne st d a b m t
    | vclt st d a b m t | vcle st d a b m t | vcltu st d a b m t | vcleu st d a b m t | vcun st d a b m t | vperm st d a b m t
    | vslideup st d a b m t | vslidedn st d a b m t | vbcast st d a m t | vidx st d m t | vredsum st d a m t
    | vredmax st d a m t | vredmin st d a m t | vredand st d a m t | vredor st d a m t | vredxor st d a m t =>
    change (_ && _) = true at h
    simp only [Bool.and_eq_true, regOk, decide_eq_true_eq] at h
    refine Fields.inRange_iff.2 ?_
    have := st.toNat_lt
    have := m.code_lt
    have := t.code_lt
    omega
  | vcvt st d a u m t r =>
    change (_ && _) = true at h
    simp only [Bool.and_eq_true, regOk, decide_eq_true_eq] at h
    refine Fields.inRange_iff.2 ?_
    have := st.toNat_lt
    have := m.code_lt
    have := t.code_lt
    have := u.code_lt
    have := r.code_lt
    omega
  | vsel st d a b t | vcompress st d a t | vexpand st d a t | vextr st d a b t | vmand st d a b t | vmor st d a b t
    | vmxor st d a b t | vmandn st d a b t | vmnot st d a t | vmpopc st d a t | vmffs st d a t =>
    change (_ && _) = true at h
    simp only [Bool.and_eq_true, regOk, decide_eq_true_eq] at h
    refine Fields.inRange_iff.2 ?_
    have := st.toNat_lt
    have := t.code_lt
    omega
  | ldb st d b spc x | ldh st d b spc x | ldw st d b spc x | ldd st d b spc x | ldbu st d b spc x | ldhu st d b spc x
    | ldwu st d b spc x | stb st d b spc x | sth st d b spc x | stw st d b spc x | std st d b spc x | vld st d b spc x
    | vst st d b spc x =>
    change (_ && _) = true at h
    simp only [Bool.and_eq_true, regOk, decide_eq_true_eq] at h
    refine Fields.inRange_iff.2 ?_
    have := st.toNat_lt
    have := spc.code_lt
    omega
  | amoswap d a b z sc | amocas d a b z sc | amoadd d a b z sc | amoand d a b z sc | amoor d a b z sc | amoxor d a b z sc
    | amomin d a b z sc | amomax d a b z sc | amominu d a b z sc | amomaxu d a b z sc =>
    change (_ && _) = true at h
    simp only [Bool.and_eq_true, regOk, decide_eq_true_eq] at h
    refine Fields.inRange_iff.2 ?_
    have := z.toNat_lt
    have := sc.code_lt
    omega
  | redadd st a b z sc | redand st a b z sc | redor st a b z sc | redxor st a b z sc | redmin st a b z sc | redmax st a b z sc
    | redminu st a b z sc | redmaxu st a b z sc =>
    change (_ && _) = true at h
    simp only [Bool.and_eq_true, regOk, decide_eq_true_eq] at h
    refine Fields.inRange_iff.2 ?_
    have := st.toNat_lt
    have := z.toNat_lt
    have := sc.code_lt
    omega
  | redfmin st a b sc | redfmax st a b sc =>
    change (_ && _) = true at h
    simp only [Bool.and_eq_true, regOk, decide_eq_true_eq] at h
    refine Fields.inRange_iff.2 ?_
    have := st.toNat_lt
    have := sc.code_lt
    omega
  | fence st sc =>
    refine Fields.inRange_iff.2 ?_
    have := st.toNat_lt
    have := sc.code_lt
    omega
  | xaadd st a b sc t =>
    change (_ && _) = true at h
    simp only [Bool.and_eq_true, regOk, decide_eq_true_eq] at h
    refine Fields.inRange_iff.2 ?_
    have := st.toNat_lt
    have := sc.code_lt
    have := t.code_lt
    omega
  | xard st d a r f =>
    change (_ && _) = true at h
    simp only [Bool.and_eq_true, regOk, decide_eq_true_eq] at h
    refine Fields.inRange_iff.2 ?_
    have := st.toNat_lt
    have := r.code_lt
    have := f.toNat_lt
    omega
  | mma st d a b o =>
    change (_ && _) = true at h
    simp only [Bool.and_eq_true, regOk, decide_eq_true_eq] at h
    refine Fields.inRange_iff.2 ?_
    have := st.toNat_lt
    have := o.toNat_lt
    omega
  | maccrd st d a b i =>
    change (_ && _) = true at h
    simp only [Bool.and_eq_true, regOk, decide_eq_true_eq] at h
    refine Fields.inRange_iff.2 ?_
    have := st.toNat_lt
    have := i.toNat_lt
    omega
  | recv a b p =>
    change (_ && _) = true at h
    simp only [Bool.and_eq_true, regOk, decide_eq_true_eq] at h
    refine Fields.inRange_iff.2 ?_
    have := p.toNat_lt
    omega
  | _ => exact absurd h Bool.false_ne_true

theorem zeroed_zero (i : Instr) : zeroed 0 i = .ok i := rfl
theorem typed_true (r : DecodeResult) : typed true r = r := rfl

/-- The V words' majors by their decoders (R83, R86). -/
theorem decodeFields_v (st d a b lo : Nat) :
    decodeFields ⟨st, 16, d, a, b, lo⟩ = decodeVArith st d a b (lo / 256) (lo / 32 % 8) (lo % 32) ∧
    decodeFields ⟨st, 17, d, a, b, lo⟩ = decodeVFused st d a b (lo / 256) (lo / 32 % 8) (lo % 32) ∧
    decodeFields ⟨st, 18, d, a, b, lo⟩ = decodeVCompare st d a b (lo / 256) (lo / 32 % 8) (lo % 32) ∧
    decodeFields ⟨st, 19, d, a, b, lo⟩ = decodeVcvt st d a b (lo / 256) (lo / 32 % 8) (lo % 32) ∧
    decodeFields ⟨st, 20, d, a, b, lo⟩ = decodeVPermute st d a b (lo / 256) (lo / 32 % 8) (lo % 32) ∧
    decodeFields ⟨st, 21, d, a, b, lo⟩ = decodeVReduce st d a b (lo / 256) (lo / 32 % 8) (lo % 32) :=
  ⟨rfl, rfl, rfl, rfl, rfl, rfl⟩

/-- Format by format: the decoder finds each part of a field where the encoder put it. -/
theorem decodeFields_encodeFields {i : Instr} (h : i.wf = true) : decodeFields (encodeFields i) = .ok i := by
  cases i with
  | add st d a b | sub st d a b | and st d a b | or st d a b | xor st d a b | andn st d a b | orn st d a b | sll st d a b
    | srl st d a b | sra st d a b | rol st d a b | ror st d a b | slt st d a b | sltu st d a b | seq st d a b | sne st d a b
    | min st d a b | max st d a b | minu st d a b | maxu st d a b | mul st d a b | mulh st d a b | mulhu st d a b
    | mulhsu st d a b | div st d a b | divu st d a b | rem st d a b | remu st d a b | clz st d a | ctz st d a | popc st d a
    | ffs st d a | brev st d a | bswap st d a | sxb st d a | sxh st d a | sxw st d a | zxb st d a | zxh st d a | zxw st d a
    | lease st a | barv st a | barvx st a b | ttdef st a b | ttrel st a | mturn st d a | mtend st d | mringcfg st d a b
    | mringadv st d a b | mzero st d a | mmax st d a b | mrec st d a b | mldprog st d a | maccwr st d a b | cdef st d a
    | crsz st d a | cflush st d a b | cinval st d a b | cplace st d a b | cdrop st d a | map st d a | grant st d a
    | unmap st d a b | unmapx st d a b | send st d a | reply st d a | epdrop st d a | epinfo st d a | chbind st d a b
    | spawn st a | spawng st a | pdec st a | chpri st a | ginfo st d a | affin st a | setshp st d a
    | stf st d b x =>
    cases st <;> rfl
  | ldf d b x | ldfn d b x | ste d b x | lrel | bwait a b | tlwait a b | ttwait a | call a b | endOp | ckpt | yield | bkpt =>
    rfl
  | addi st d a i | andi st d a i | ori st d a i | xori st d a i | slti st d a i | sltiu st d a i | jlr d a i | lui st d i
    | addpc st d i | j x | jl x | pfx p =>
    change Except.ok _ = _
    simp only [toNat_beq_one, Nat.div_add_mod', three_fields, four_fields]
  | slli st d a c | srli st d a c | srai st d a c | rori st d a c =>
    have hc : c < 64 := of_decide_eq_true (Bool.and_eq_true_iff.1 h).2
    change decodeShiftImm _ _ _ (0 * 1024 + _) = _
    rw [Nat.zero_mul, Nat.zero_add, decodeShiftImm, if_neg (by omega)]
    simp (disch := omega) only [two_parts, Nat.div_eq_of_lt, Nat.mod_eq_of_lt, toNat_beq_one]
  | beqz a x | bnez a x | bltz a x | bgez a x | bgtz a x | blez a x | bodd a x =>
    have hx : x / 32768 < 4 := by
      have := of_decide_eq_true (Bool.and_eq_true_iff.1 h).2
      omega
    change ends 1 _ = _
    simp (disch := omega) only [two_parts, three_fields]
    rfl
  | srd st d n | swr st a n | srset st d a n | srclr st d a n =>
    have hn := (Bool.and_eq_true_iff.1 h).2
    have hn4 : n / 1024 < 4 := by
      have := isSysReg_lt hn
      omega
    change decodeSys _ _ _ _ _ = _
    simp (disch := omega) only [two_parts, Nat.div_eq_of_lt, Nat.mod_eq_of_lt, Nat.div_add_mod',
      decodeSys, hn, if_true, zeroed_zero,
      toNat_beq_one]
  | vadd st d a b m t | vsub st d a b m t | vmul st d a b m t | vdiv st d a b m t | vmin st d a b m t | vmax st d a b m t
    | vsqrt st d a m t | vexp2 st d a m t | vlog2 st d a m t | vabs st d a m t | vneg st d a m t | vand st d a b m t
    | vor st d a b m t | vxor st d a b m t | vsll st d a b m t | vsrl st d a b m t | vsra st d a b m t | vadds st d a b m t
    | vsubs st d a b m t | vmulh st d a b m t | vclz st d a m t | vpopc st d a m t | vffs st d a m t | vfma st d a b m t
    | vfms st d a b m t | vfnma st d a b m t | vfnms st d a b m t | vceq st d a b m t | vcne st d a b m t | vclt st d a b m t
    | vcle st d a b m t | vcltu st d a b m t | vcleu st d a b m t | vcun st d a b m t | vidx st d m t | vredsum st d a m t
    | vredmax st d a m t | vredmin st d a m t | vredand st d a m t | vredor st d a m t | vredxor st d a m t =>
    replace h := (Bool.and_eq_true_iff.1 h).2
    change decodeFields ⟨_, _, _, _, _, _⟩ = _
    simp (disch := decide) only [decodeFields_v, vOptions, vOptions_zero, decodeVArith, decodeVFused, decodeVCompare,
      decodeVPermute, decodeVReduce, Mask.ofCode_code, ETy.ofCode_code, h, typed_true,
      Nat.add_zero, zeroed_zero, toNat_beq_one]
  | vmv st d a m t | vperm st d a b m t | vslideup st d a b m t | vslidedn st d a b m t | vbcast st d a m t =>
    change decodeFields ⟨_, _, _, _, _, _⟩ = _
    simp (disch := decide) only [decodeFields_v, vOptions, decodeVArith, decodeVPermute, Mask.ofCode_code, ETy.ofCode_code,
      zeroed_zero, toNat_beq_one]
  | vsel st d a b t | vcompress st d a t | vexpand st d a t | vextr st d a b t | vmand st d a b t | vmor st d a b t
    | vmxor st d a b t | vmandn st d a b t | vmnot st d a t | vmpopc st d a t | vmffs st d a t =>
    cases st <;> cases t <;> rfl
  | vcvt st d a u m t r =>
    have hne : u.code ≠ t.code := fun e => bne_iff_ne.1 (Bool.and_eq_true_iff.1 h).2 (ETy.code_inj e)
    change decodeFields ⟨_, 19, _, _, _, m.code * 256 + t.code * 32 + r.code⟩ = _
    rw [Nat.add_comm (m.code * 256 + t.code * 32), ← Nat.add_assoc]
    simp only [decodeFields_v, vOptions (Nat.lt_trans r.code_lt (by decide : 8 < 32)), decodeVcvt, Nat.not_le_of_lt r.code_lt,
      Nat.not_le_of_lt u.code_lt, hne, if_false, Mask.ofCode_code, ETy.ofCode_code, Rnd.ofCode_code, toNat_beq_one]
  | ldb st d b spc x | ldh st d b spc x | ldw st d b spc x | ldd st d b spc x | ldbu st d b spc x | ldhu st d b spc x
    | ldwu st d b spc x | stb st d b spc x | sth st d b spc x | stw st d b spc x | std st d b spc x | vld st d b spc x
    | vst st d b spc x =>
    cases st <;> cases spc <;> rfl
  | amoswap d a b z sc | amocas d a b z sc | amoadd d a b z sc | amoand d a b z sc | amoor d a b z sc | amoxor d a b z sc
    | amomin d a b z sc | amomax d a b z sc | amominu d a b z sc | amomaxu d a b z sc =>
    cases z <;> cases sc <;> rfl
  | redadd st a b z sc | redand st a b z sc | redor st a b z sc | redxor st a b z sc | redmin st a b z sc | redmax st a b z sc
    | redminu st a b z sc | redmaxu st a b z sc =>
    cases st <;> cases z <;> cases sc <;> rfl
  | redfmin st a b sc | redfmax st a b sc | fence st sc =>
    cases st <;> cases sc <;> rfl
  | xaadd st a b sc t =>
    cases st <;> cases sc <;> cases t <;> rfl
  | xard st d a r f =>
    obtain ⟨mode, sat⟩ := r
    cases st <;> cases mode <;> cases sat <;> cases f <;> rfl
  | mma st d a b o =>
    cases st <;> cases o <;> rfl
  | maccrd st d a b i =>
    cases st <;> cases i <;> rfl
  | recv a b p =>
    cases p <;> rfl
  | mstat st d a l | cquery st d a b l | mquery st d a b l | wstat st d a l =>
    have hl : l < 4 := of_decide_eq_true (Bool.and_eq_true_iff.1 h).2
    interval_cases l <;> cases st <;> rfl
  | scopy st d a q | scopy2d st d a q | sfill st d a q | scvt st d a q | shint st d a q | sqcfg st d a q | sqstat st d a q
    | sqrst st d q =>
    have hq : q < 16 := of_decide_eq_true (Bool.and_eq_true_iff.1 h).2
    change decodeSluice _ _ _ _ _ = _
    simp (disch := omega) only [two_parts, Nat.div_eq_of_lt, Nat.mod_eq_of_lt, decodeSluice, if_true, Nat.add_zero, zeroed_zero,
      toNat_beq_one]
  | sqstatNamed st d a b =>
    have hb : b ≠ 0 := bne_iff_ne.1 (Bool.and_eq_true_iff.1 h).2
    change (if b = 0 then _ else zeroed 0 _) = _
    rw [if_neg hb, toNat_beq_one]
    rfl
  | trap a b c =>
    have hc : c < 16 := of_decide_eq_true (Bool.and_eq_true_iff.1 h).2
    change decodeSystem 1 0 a b (48 + c) = _
    simp (disch := omega) only [two_parts, decodeSystem]
    rfl
  | rpt c l x y z e =>
    change (_ && _) = true at h
    simp only [Bool.and_eq_true, decide_eq_true_eq] at h
    change Except.ok (Instr.rpt c ((l * 2 + x / 8) / 2) ((l * 2 + x / 8) % 2 * 8 + (x % 8 * 4 + y / 4) / 4)
      ((x % 8 * 4 + y / 4) % 4 * 4 + (y % 4 * 256 + z * 16 + e) / 256) ((y % 4 * 256 + z * 16 + e) / 16 % 16)
      ((y % 4 * 256 + z * 16 + e) % 16)) = _
    rw [Except.ok.injEq, Instr.rpt.injEq]
    exact ⟨rfl, by omega, by omega, by omega, by omega, by omega⟩
  | _ => exact absurd h Bool.false_ne_true

end Sys2Proof

/-- Settles O48: the decoder gives back what the encoder put into the six fields, and the fields are read back from the word. -/
theorem decodingAnEncodedWord : Obligations.DecodingAnEncodedWord := by
  intro i _ hwf
  have hrange := encodeFields_inRange hwf
  exact ⟨Fields.pack_lt hrange, by rw [decode32, encode, Fields.unpack_pack hrange, decodeFields_encodeFields hwf]⟩

end

/-! ## Decoders answer only what encodes to their word (04_encoding R83 to R88) -/

section

open Sys2Proof

namespace Sys2Proof

/-- The instruction `i` is well formed, and `f` are the fields of its word. -/
def Encodes (f : Fields) (i : Instr) : Prop := encodeFields i = f ∧ i.isWord = true ∧ i.wf = true

/-- Where a decoder's answer `r` is an instruction, `f` are the fields of its word. -/
def Faithful (f : Fields) (r : DecodeResult) : Prop := ∀ i, r = .ok i → Encodes f i

section

variable {f : Fields} {i : Instr} {r : DecodeResult} {e : Illegal}

theorem faithful_ok : Faithful f (.ok i) ↔ Encodes f i := ⟨fun h => h i rfl, fun h _ hi => Except.ok.inj hi ▸ h⟩

theorem faithful_error : Faithful f (.error e) := fun _ h => by cases h

theorem faithful_accept {p : Prop} [Decidable p] : Faithful f (if p then r else .error e) ↔ (p → Faithful f r) := by
  by_cases h : p
  · simp only [h, if_true, forall_const]
  · simp only [h, if_false, faithful_error, false_imp_iff]

theorem faithful_reject {p : Prop} [Decidable p] : Faithful f (if p then .error e else r) ↔ (¬ p → Faithful f r) := by
  rw [← ite_not, faithful_accept]

theorem faithful_zeroed {x : Nat} : Faithful f (zeroed x i) ↔ (x = 0 → Encodes f i) := by
  rw [zeroed, faithful_accept, faithful_ok]

theorem faithful_ends {st : Nat} : Faithful f (ends st r) ↔ (st = 1 → Faithful f r) := faithful_accept
theorem faithful_typed {ok : Bool} : Faithful f (typed ok r) ↔ (ok = true → Faithful f r) := faithful_accept
theorem faithful_unmasked {m : Nat} : Faithful f (unmasked m r) ↔ (m = 0 → Faithful f r) := faithful_accept
theorem faithful_unmasked_code {m : Mask} : Faithful f (unmasked m.code r) ↔ (m = .all → Faithful f r) := by
  cases m <;> simp [unmasked, Mask.code, faithful_error]
theorem faithful_inScope {c : Nat} : Faithful f (inScope c r) ↔ (c < 6 → Faithful f r) := faithful_accept

end

/-- An instruction encodes fields that it has one by one. -/
theorem encodes_of {i : Instr} {st maj d a b lo : Nat} (hst : (encodeFields i).st = st) (hmaj : (encodeFields i).maj = maj)
    (hd : (encodeFields i).d = d) (ha : (encodeFields i).a = a) (hb : (encodeFields i).b = b) (hlo : (encodeFields i).lo = lo)
    (hword : i.isWord = true) (hwf : i.wf = true) : Encodes ⟨st, maj, d, a, b, lo⟩ i := by
  subst hst hmaj hd ha hb hlo
  exact ⟨rfl, hword, hwf⟩

theorem and_eq_true_of {p q : Bool} (hp : p = true) (hq : q = true) : (p && q) = true := Bool.and_eq_true_iff.2 ⟨hp, hq⟩

section

variable {st d a b : Nat} (hst : st < 2) (hd : regOk d = true) (ha : regOk a = true) (hb : regOk b = true)

include hst hd ha hb

theorem decodeAlu_faithful {fn : Nat} : Faithful ⟨st, 1, d, a, b, fn⟩ (decodeAlu st d a b fn) := by
  obtain ⟨st, rfl⟩ := exists_toNat hst
  unfold decodeAlu
  split
  all_goals
    simp only [faithful_ok, faithful_error, faithful_zeroed, toNat_beq_one]
  all_goals
    intros
    subst_vars
    exact ⟨rfl, rfl, by change (_ && _) = true; simp only [Bool.and_self, *]⟩

theorem decodeShiftImm_faithful {lo : Nat} (hlo : lo < 1024) :
    Faithful ⟨st, 8, d, a, b, lo⟩ (decodeShiftImm st d a (b * 1024 + lo)) := by
  obtain ⟨st, rfl⟩ := exists_toNat hst
  rw [decodeShiftImm, faithful_reject]
  intro hlow
  obtain rfl : b = 0 := by omega
  rw [Nat.zero_mul, Nat.zero_add] at *
  have hc : (regOk d && regOk a && decide (lo % 64 < 64)) = true :=
    and_eq_true_of (and_eq_true_of hd ha) (decide_eq_true (Nat.mod_lt _ (by decide)))
  split <;> rw [faithful_ok, toNat_beq_one]
  case h_1 => exact encodes_of rfl rfl rfl rfl rfl (show lo % 64 = lo by omega) rfl hc
  case h_2 => exact encodes_of rfl rfl rfl rfl rfl (show 64 + lo % 64 = lo by omega) rfl hc
  case h_3 => exact encodes_of rfl rfl rfl rfl rfl (show 128 + lo % 64 = lo by omega) rfl hc
  case h_4 h0 h1 h2 =>
    have h3 : lo / 64 = 3 := by
      have : ¬ lo / 64 = 0 ∧ ¬ lo / 64 = 1 ∧ ¬ lo / 64 = 2 := ⟨h0, h1, h2⟩
      omega
    exact encodes_of rfl rfl rfl rfl rfl (show 192 + lo % 64 = lo by omega) rfl hc

omit ha in
theorem decodeBranch_faithful {lo : Nat} (hlo : lo < 1024) :
    Faithful ⟨st, 11, d, a, b, lo⟩ (decodeBranch st d (a / 4) (a % 4 * 32768 + b * 1024 + lo)) := by
  have hb : b < 32 := of_decide_eq_true hb
  generalize hx : a % 4 * 32768 + b * 1024 + lo = x
  have hwf : (regOk d && decide (x < 131072)) = true := and_eq_true_of hd (decide_eq_true (by omega))
  unfold decodeBranch
  rw [faithful_ends]
  rintro rfl
  split
  case h_8 => exact faithful_error
  all_goals
    exact faithful_ok.2 (encodes_of rfl rfl rfl (show _ + x / 32768 = a by omega) (show x / 1024 % 32 = b by omega)
      (show x % 1024 = lo by omega) rfl hwf)

omit hb in
theorem decodeSys_faithful {lo : Nat} (hlo : lo < 1024) :
    Faithful ⟨st, 15, d, a, b, lo⟩ (decodeSys st d a (b / 4) (b % 4 * 1024 + lo)) := by
  obtain ⟨st, rfl⟩ := exists_toNat hst
  generalize hn : b % 4 * 1024 + lo = n
  have hlow : n % 1024 = lo := by omega
  unfold decodeSys
  split
  case isTrue hreg =>
    split
    all_goals
      simp only [faithful_ok, faithful_error, faithful_zeroed, toNat_beq_one]
    case h_1 heq =>
      rintro rfl
      exact encodes_of rfl rfl rfl rfl (show n / 1024 = b by omega) hlow rfl (and_eq_true_of hd hreg)
    case h_2 heq =>
      rintro rfl
      exact encodes_of rfl rfl rfl rfl (show 4 + n / 1024 = b by omega) hlow rfl (and_eq_true_of ha hreg)
    case h_3 heq =>
      exact encodes_of rfl rfl rfl rfl (show 8 + n / 1024 = b by omega) hlow rfl (and_eq_true_of (and_eq_true_of hd ha) hreg)
    case h_4 heq =>
      exact encodes_of rfl rfl rfl rfl (show 12 + n / 1024 = b by omega) hlow rfl (and_eq_true_of (and_eq_true_of hd ha) hreg)
  case isFalse => split <;> exact faithful_error

/-! ### V words (R86) -/

omit hst hd ha hb in
/-- The low field of a V word has three parts. -/
theorem faithful_vFormat {maj : Nat} {dec : Nat → Nat → Nat → DecodeResult}
    (h : ∀ (m : Mask) (t : ETy) (fn : Nat), fn < 32 →
      Faithful ⟨st, maj, d, a, b, fn + m.code * 256 + t.code * 32⟩ (dec m.code t.code fn))
    {lo : Nat} (hlo : lo < 1024) : Faithful ⟨st, maj, d, a, b, lo⟩ (dec (lo / 256) (lo / 32 % 8) (lo % 32)) := by
  obtain ⟨m, hm⟩ := Mask.exists_code (n := lo / 256) (by omega)
  obtain ⟨t, ht⟩ := ETy.exists_code (n := lo / 32 % 8) (by omega)
  have hfn : lo % 32 < 32 := by omega
  have := h m t (lo % 32) hfn
  rw [hm, ht] at this
  rwa [show lo % 32 + lo / 256 * 256 + lo / 32 % 8 * 32 = lo by omega] at this

theorem decodeVArith_faithful (m : Mask) (t : ETy) (fn : Nat) :
    Faithful ⟨st, 16, d, a, b, fn + m.code * 256 + t.code * 32⟩ (decodeVArith st d a b m.code t.code fn) := by
  obtain ⟨st, rfl⟩ := exists_toNat hst
  unfold decodeVArith
  split
  all_goals
    simp only [faithful_ok, faithful_error, faithful_zeroed, faithful_typed, toNat_beq_one, Mask.ofCode_code,
      ETy.ofCode_code, Nat.zero_add]
  all_goals
    intros
    subst_vars
    exact ⟨rfl, rfl, by change (_ && _) = true; simp only [Bool.and_self, *]⟩

theorem decodeVFused_faithful (m : Mask) (t : ETy) (fn : Nat) :
    Faithful ⟨st, 17, d, a, b, fn + m.code * 256 + t.code * 32⟩ (decodeVFused st d a b m.code t.code fn) := by
  obtain ⟨st, rfl⟩ := exists_toNat hst
  unfold decodeVFused
  split
  all_goals
    simp only [faithful_ok, faithful_error, faithful_typed, toNat_beq_one, Mask.ofCode_code,
      ETy.ofCode_code, Nat.zero_add]
  all_goals
    intro ht
    exact ⟨rfl, rfl, by change (_ && _) = true; simp only [Bool.and_self, *]⟩

theorem decodeVCompare_faithful (m : Mask) (t : ETy) (fn : Nat) :
    Faithful ⟨st, 18, d, a, b, fn + m.code * 256 + t.code * 32⟩ (decodeVCompare st d a b m.code t.code fn) := by
  obtain ⟨st, rfl⟩ := exists_toNat hst
  unfold decodeVCompare
  split
  all_goals
    simp only [faithful_ok, faithful_error, faithful_typed, faithful_unmasked, toNat_beq_one, Mask.ofCode_code, ETy.ofCode_code,
      Nat.zero_add]
  case h_8 =>
    intro hm
    rw [hm]
    exact ⟨rfl, rfl, and_eq_true_of (and_eq_true_of hd ha) hb⟩
  all_goals
    intro ht
    exact ⟨rfl, rfl, by change (_ && _) = true; simp only [Bool.and_self, *]⟩

theorem decodeVPermute_faithful (m : Mask) (t : ETy) (fn : Nat) :
    Faithful ⟨st, 20, d, a, b, fn + m.code * 256 + t.code * 32⟩ (decodeVPermute st d a b m.code t.code fn) := by
  obtain ⟨st, rfl⟩ := exists_toNat hst
  unfold decodeVPermute
  split
  all_goals
    simp only [faithful_ok, faithful_error, faithful_typed, faithful_unmasked_code, faithful_zeroed, toNat_beq_one,
      Mask.ofCode_code, ETy.ofCode_code, Nat.add_eq_zero_iff, and_imp]
  case h_1 | h_2 | h_7 =>
    intros
    subst_vars
    simp only [Mask.code, Nat.zero_mul, Nat.zero_add, Nat.add_zero]
    exact ⟨rfl, rfl, by change (_ && _) = true; simp only [Bool.and_self, *]⟩
  all_goals
    intros
    subst_vars
    exact ⟨rfl, rfl, by change (_ && _) = true; simp only [Bool.and_self, *]⟩

theorem decodeVReduce_faithful (m : Mask) (t : ETy) (fn : Nat) :
    Faithful ⟨st, 21, d, a, b, fn + m.code * 256 + t.code * 32⟩ (decodeVReduce st d a b m.code t.code fn) := by
  obtain ⟨st, rfl⟩ := exists_toNat hst
  unfold decodeVReduce
  split
  all_goals
    simp only [faithful_error, faithful_typed, faithful_zeroed, toNat_beq_one, Mask.ofCode_code,
      ETy.ofCode_code, Nat.zero_add]
  all_goals
    rintro ht rfl
    exact ⟨rfl, rfl, and_eq_true_of (and_eq_true_of hd ha) ht⟩

theorem decodeVMask_faithful (m : Mask) (t : ETy) (fn : Nat) :
    Faithful ⟨st, 22, d, a, b, fn + m.code * 256 + t.code * 32⟩ (decodeVMask st d a b m.code t.code fn) := by
  obtain ⟨st, rfl⟩ := exists_toNat hst
  unfold decodeVMask
  split
  all_goals
    simp only [faithful_ok, faithful_error, faithful_unmasked_code, faithful_zeroed, toNat_beq_one, ETy.ofCode_code]
  all_goals
    rintro rfl
    simp only [Mask.code, Nat.zero_mul, Nat.zero_add, Nat.add_zero]
    intros
    subst_vars
    exact ⟨rfl, rfl, by change (_ && _) = true; simp only [Bool.and_self, *]⟩

theorem decodeVcvt_faithful (m : Mask) (t : ETy) (fn : Nat) :
    Faithful ⟨st, 19, d, a, b, fn + m.code * 256 + t.code * 32⟩ (decodeVcvt st d a b m.code t.code fn) := by
  obtain ⟨st, rfl⟩ := exists_toNat hst
  simp only [decodeVcvt, faithful_reject, Nat.not_le]
  intro hfn hbt hne
  obtain ⟨r, rfl⟩ := Rnd.exists_code hfn
  obtain ⟨u, rfl⟩ := ETy.exists_code hbt
  simp only [faithful_ok, toNat_beq_one, Mask.ofCode_code, ETy.ofCode_code, Rnd.ofCode_code]
  have hut : (u != t) = true := bne_iff_ne.2 fun h => hne (congrArg _ h)
  exact encodes_of rfl rfl rfl rfl rfl (show m.code * 256 + t.code * 32 + r.code = _ by omega) rfl
    (and_eq_true_of (and_eq_true_of hd ha) hut)

/-! ### Loads and stores (R75) -/

omit hb in
/-- The b field of a load or store: its size code and its space. -/
theorem decodeMem_faithful {maj : Nat} (hb : b < 32) {x : Nat} (hx : x < 1024) :
    Faithful ⟨st, maj, d, a, b, x⟩ (decodeMem st maj d a b x) := by
  obtain ⟨st, rfl⟩ := exists_toNat hst
  obtain ⟨spc, hspc⟩ := Space.exists_code (n := b % 4) (by omega)
  obtain ⟨k, rfl⟩ : ∃ k, b = 4 * k + spc.code := ⟨b / 4, by omega⟩
  have hk : (4 * k + spc.code) / 4 = k := by omega
  have hwf : (regOk d && regOk a && decide (x < 1024)) = true := and_eq_true_of (and_eq_true_of hd ha) (decide_eq_true hx)
  unfold decodeMem
  simp only [← hspc, hk, Space.ofCode_code, toNat_beq_one]
  split
  case h_10 => exact faithful_error
  case h_6 | h_7 | h_8 =>
    simp only [faithful_reject, faithful_ends, faithful_ok, ne_eq, Decidable.not_not]
    rintro rfl hsp hend
    rw [hsp]
    exact encodes_of hend.symm rfl rfl rfl rfl rfl rfl hwf
  case h_9 =>
    simp only [faithful_reject, faithful_ok, ne_eq, Decidable.not_not]
    rintro rfl hsp
    rw [hsp]
    exact ⟨rfl, rfl, hwf⟩
  all_goals
    split <;> simp only [faithful_error, faithful_ok]
  all_goals
    exact ⟨rfl, rfl, hwf⟩

/-! ### Words with their function in bits 9:4 (R87) -/

omit hst hd ha hb in
theorem faithful_sixteenths {maj : Nat} {dec : Nat → DecodeResult}
    (h : ∀ k q : Nat, q < 16 → Faithful ⟨st, maj, d, a, b, 16 * k + q⟩ (dec (16 * k + q))) {lo : Nat} :
    Faithful ⟨st, maj, d, a, b, lo⟩ (dec lo) := by
  simpa only [Nat.div_add_mod] using h (lo / 16) (lo % 16) (Nat.mod_lt _ (by decide))

theorem decodeSync_faithful {k q : Nat} (hq : q < 16) :
    Faithful ⟨st, 35, d, a, b, 16 * k + q⟩ (decodeSync st d a b (16 * k + q)) := by
  obtain ⟨st, rfl⟩ := exists_toNat hst
  have hk : (16 * k + q) / 16 = k := by omega
  have hlow : (16 * k + q) % 16 = q := by omega
  have hscope : (16 * k + q) / 2 % 8 = q / 2 := by omega
  unfold decodeSync
  simp only [hk, hlow, hscope]
  split
  all_goals
    simp only [faithful_error, faithful_reject, faithful_ends, faithful_inScope, faithful_zeroed, toNat_beq_one,
      Bool.toNat_eq_one, ne_eq,
      Decidable.not_not, Nat.add_eq_zero_iff, and_imp]
  case h_1 | h_4 | h_9 | h_10 =>
    intros
    subst_vars
    exact ⟨rfl, rfl, ha⟩
  case h_2 =>
    intros
    subst_vars
    exact ⟨rfl, rfl, rfl⟩
  case h_3 =>
    intro heven hsc
    obtain ⟨sc, hsc⟩ := Scope.exists_code hsc
    rw [← hsc, Scope.ofCode_code]
    intros
    subst_vars
    exact encodes_of rfl rfl rfl rfl rfl (show 32 + sc.code * 2 = 16 * 2 + q by omega) rfl rfl
  all_goals
    intros
    subst_vars
    exact ⟨rfl, rfl, by change (_ && _) = true; simp only [Bool.and_self, *]⟩

theorem decodeMatrix_faithful {k q : Nat} (hq : q < 16) :
    Faithful ⟨st, 40, d, a, b, 16 * k + q⟩ (decodeMatrix st d a b (16 * k + q)) := by
  obtain ⟨st, rfl⟩ := exists_toNat hst
  have hk : (16 * k + q) / 16 = k := by omega
  have hlow : (16 * k + q) % 16 = q := by omega
  have hflag : (16 * k + q) % 2 = q % 2 := by omega
  have hsel : (16 * k + q) % 4 = q % 4 := by omega
  unfold decodeMatrix
  simp only [hk, hlow, hflag, hsel]
  split
  all_goals
    simp only [faithful_ok, faithful_error, faithful_reject, faithful_zeroed, toNat_beq_one, ne_eq, ge_iff_le, Nat.not_le,
      Decidable.not_not, Nat.add_eq_zero_iff, and_imp]
  case h_2 =>
    intros
    subst_vars
    exact ⟨rfl, rfl, hd⟩
  case h_6 | h_10 =>
    intro hflag
    obtain ⟨p, rfl⟩ := exists_toNat hflag
    cases p <;> exact ⟨rfl, rfl, and_eq_true_of (and_eq_true_of hd ha) hb⟩
  case h_12 =>
    rintro hl rfl
    rw [Nat.mod_eq_of_lt hl]
    exact ⟨rfl, rfl, and_eq_true_of (and_eq_true_of hd ha) (decide_eq_true hl)⟩
  all_goals
    intros
    subst_vars
    exact ⟨rfl, rfl, by change (_ && _) = true; simp only [Bool.and_self, *]⟩

theorem decodeSluice_faithful {k q : Nat} (hq : q < 16) :
    Faithful ⟨st, 41, d, a, b, 16 * k + q⟩ (decodeSluice st d a b (16 * k + q)) := by
  obtain ⟨st, rfl⟩ := exists_toNat hst
  have hk : (16 * k + q) / 16 = k := by omega
  have hlow : (16 * k + q) % 16 = q := by omega
  unfold decodeSluice
  simp only [hk, hlow]
  split
  all_goals
    simp only [faithful_error, faithful_zeroed, toNat_beq_one,
      Nat.add_eq_zero_iff, and_imp]
  case h_7 =>
    by_cases hb0 : b = 0
    · subst hb0
      exact faithful_ok.2 ⟨rfl, rfl, and_eq_true_of (and_eq_true_of hd ha) (decide_eq_true hq)⟩
    · rw [if_neg hb0, faithful_zeroed]
      rintro rfl
      exact ⟨rfl, rfl, and_eq_true_of (and_eq_true_of (and_eq_true_of hd ha) hb) (bne_iff_ne.2 hb0)⟩
  case h_1 =>
    rintro rfl
    exact encodes_of rfl rfl rfl rfl rfl (show q = 16 * 0 + q by omega) rfl (and_eq_true_of (and_eq_true_of hd ha) (decide_eq_true hq))
  case h_8 =>
    rintro rfl rfl
    exact ⟨rfl, rfl, and_eq_true_of hd (decide_eq_true hq)⟩
  all_goals
    rintro rfl
    exact ⟨rfl, rfl, and_eq_true_of (and_eq_true_of hd ha) (decide_eq_true hq)⟩

theorem decodeComposer_faithful {k q : Nat} (hq : q < 16) :
    Faithful ⟨st, 42, d, a, b, 16 * k + q⟩ (decodeComposer st d a b (16 * k + q)) := by
  obtain ⟨st, rfl⟩ := exists_toNat hst
  have hk : (16 * k + q) / 16 = k := by omega
  have hlow : (16 * k + q) % 16 = q := by omega
  have hsel : (16 * k + q) % 4 = q % 4 := by omega
  unfold decodeComposer
  simp only [hk, hlow, hsel]
  split
  all_goals
    simp only [faithful_ok, faithful_error, faithful_reject, faithful_zeroed, toNat_beq_one, ne_eq, ge_iff_le, Nat.not_le,
      Decidable.not_not]
  case h_5 =>
    intro hl
    rw [Nat.mod_eq_of_lt hl]
    exact ⟨rfl, rfl, and_eq_true_of (and_eq_true_of (and_eq_true_of hd ha) hb) (decide_eq_true hl)⟩
  all_goals
    intros
    subst_vars
    exact ⟨rfl, rfl, by change (_ && _) = true; simp only [Bool.and_self, *]⟩

theorem decodeMapping_faithful {k q : Nat} (hq : q < 16) :
    Faithful ⟨st, 43, d, a, b, 16 * k + q⟩ (decodeMapping st d a b (16 * k + q)) := by
  obtain ⟨st, rfl⟩ := exists_toNat hst
  have hk : (16 * k + q) / 16 = k := by omega
  have hlow : (16 * k + q) % 16 = q := by omega
  have hflag : (16 * k + q) % 2 = q % 2 := by omega
  have hsel : (16 * k + q) % 4 = q % 4 := by omega
  unfold decodeMapping
  simp only [hk, hlow, hflag, hsel]
  split
  all_goals
    simp only [faithful_ok, faithful_error, faithful_reject, faithful_ends, faithful_zeroed, toNat_beq_one,
      Bool.toNat_eq_one, ne_eq, ge_iff_le, Nat.not_le,
      Decidable.not_not]
  case h_6 =>
    rintro rfl hflag rfl
    obtain ⟨p, rfl⟩ := exists_toNat hflag
    cases p <;> exact ⟨rfl, rfl, and_eq_true_of ha hb⟩
  case h_12 =>
    intro hl
    rw [Nat.mod_eq_of_lt hl]
    exact ⟨rfl, rfl, and_eq_true_of (and_eq_true_of (and_eq_true_of hd ha) hb) (decide_eq_true hl)⟩
  all_goals
    intros
    subst_vars
    exact ⟨rfl, rfl, by change (_ && _) = true; simp only [Bool.and_self, *]⟩

theorem decodeWharf_faithful {k q : Nat} (hq : q < 16) :
    Faithful ⟨st, 44, d, a, b, 16 * k + q⟩ (decodeWharf st d a b (16 * k + q)) := by
  obtain ⟨st, rfl⟩ := exists_toNat hst
  have hk : (16 * k + q) / 16 = k := by omega
  have hlow : (16 * k + q) % 16 = q := by omega
  have hsel : (16 * k + q) % 4 = q % 4 := by omega
  unfold decodeWharf
  simp only [hk, hlow, hsel]
  split
  all_goals
    simp only [faithful_error, faithful_reject, faithful_ends, faithful_zeroed, toNat_beq_one,
      Bool.toNat_eq_one, ne_eq, ge_iff_le, Nat.not_le,
      Decidable.not_not, Nat.add_eq_zero_iff, and_imp]
  case h_1 | h_2 | h_3 | h_4 | h_7 =>
    intros
    subst_vars
    exact ⟨rfl, rfl, ha⟩
  case h_5 =>
    intros
    subst_vars
    exact ⟨rfl, rfl, rfl⟩
  case h_6 =>
    rintro rfl rfl
    exact ⟨rfl, rfl, and_eq_true_of hd ha⟩
  case h_8 =>
    rintro hl rfl
    rw [Nat.mod_eq_of_lt hl]
    exact ⟨rfl, rfl, and_eq_true_of (and_eq_true_of hd ha) (decide_eq_true hl)⟩

theorem decodeSystem_faithful {k q : Nat} (hq : q < 16) :
    Faithful ⟨st, 45, d, a, b, 16 * k + q⟩ (decodeSystem st d a b (16 * k + q)) := by
  obtain ⟨st, rfl⟩ := exists_toNat hst
  have hk : (16 * k + q) / 16 = k := by omega
  have hlow : (16 * k + q) % 16 = q := by omega
  unfold decodeSystem
  simp only [hk, hlow]
  split
  all_goals
    simp only [faithful_error, faithful_reject, faithful_ends, faithful_zeroed, toNat_beq_one,
      Bool.toNat_eq_one, ne_eq,
      Decidable.not_not, Nat.add_eq_zero_iff, and_imp]
  case h_1 =>
    rintro rfl rfl
    exact ⟨rfl, rfl, and_eq_true_of hd ha⟩
  case h_4 =>
    rintro rfl rfl
    exact ⟨rfl, rfl, and_eq_true_of (and_eq_true_of ha hb) (decide_eq_true hq)⟩
  all_goals
    intros
    subst_vars
    exact ⟨rfl, rfl, rfl⟩

/-! ### Atomics, reductions and XA words (R87) -/

omit hst hd ha hb in
/-- The low field of an atomic or a reduction has four parts. -/
theorem exists_amoParts (lo : Nat) :
    ∃ (k c r : Nat) (z : Bool), c < 8 ∧ r < 4 ∧ lo = 64 * k + z.toNat * 32 + c * 4 + r := by
  obtain ⟨z, hz⟩ := exists_toNat (n := lo / 32 % 2) (by omega)
  exact ⟨lo / 64, lo / 4 % 8, lo % 4, z, by omega, by omega, by omega⟩

theorem decodeAmo_faithful {lo : Nat} (hlo : lo < 1024) : Faithful ⟨st, 33, d, a, b, lo⟩ (decodeAmo st d a b lo) := by
  obtain ⟨st, rfl⟩ := exists_toNat hst
  obtain ⟨k, c, r, z, hc, hr, rfl⟩ := exists_amoParts lo
  have hz := z.toNat_lt
  simp only [decodeAmo, show (64 * k + z.toNat * 32 + c * 4 + r) % 4 = r by omega,
    show (64 * k + z.toNat * 32 + c * 4 + r) / 4 % 8 = c by omega, show (64 * k + z.toNat * 32 + c * 4 + r) / 64 = k by omega,
    show (64 * k + z.toNat * 32 + c * 4 + r) / 32 % 2 = z.toNat by omega, faithful_reject, faithful_inScope, ne_eq,
    Decidable.not_not, toNat_beq_one]
  rintro rfl hsc
  obtain ⟨sc, rfl⟩ := Scope.exists_code hsc
  split
  all_goals
    simp only [faithful_error, faithful_ends, faithful_ok, Scope.ofCode_code, Nat.mul_zero, Nat.zero_add]
  all_goals
    intro hend
    exact encodes_of hend.symm rfl rfl rfl rfl rfl rfl (and_eq_true_of (and_eq_true_of hd ha) hb)

theorem decodeRed_faithful {lo : Nat} (hlo : lo < 1024) : Faithful ⟨st, 34, d, a, b, lo⟩ (decodeRed st d a b lo) := by
  obtain ⟨st, rfl⟩ := exists_toNat hst
  obtain ⟨k, c, r, z, hc, hr, rfl⟩ := exists_amoParts lo
  have hz := z.toNat_lt
  simp only [decodeRed, show (64 * k + z.toNat * 32 + c * 4 + r) % 4 = r by omega,
    show (64 * k + z.toNat * 32 + c * 4 + r) / 4 % 8 = c by omega, show (64 * k + z.toNat * 32 + c * 4 + r) / 64 = k by omega,
    show (64 * k + z.toNat * 32 + c * 4 + r) / 32 % 2 = z.toNat by omega, toNat_beq_one]
  split
  all_goals
    simp only [faithful_error, faithful_reject, faithful_inScope, faithful_zeroed, ne_eq, not_or, Decidable.not_not, and_imp]
  case h_9 | h_10 =>
    rintro rfl hz0 hsc rfl
    obtain ⟨sc, rfl⟩ := Scope.exists_code hsc
    rw [hz0, Scope.ofCode_code]
    exact ⟨rfl, rfl, and_eq_true_of ha hb⟩
  case h_11 =>
    rintro hz0 hsc rfl
    obtain ⟨sc, rfl⟩ := Scope.exists_code hsc
    obtain ⟨t, rfl⟩ := XTy.exists_code hr
    rw [hz0, Scope.ofCode_code, XTy.ofCode_code]
    exact ⟨rfl, rfl, and_eq_true_of ha hb⟩
  case h_12 =>
    rintro rfl rfl
    obtain ⟨q, hq⟩ := Rnd.exists_code (n := (64 * 11 + z.toNat * 32 + c * 4 + 0) / 8 % 8) (by omega)
    obtain ⟨p, hp⟩ := exists_toNat (n := (64 * 11 + z.toNat * 32 + c * 4 + 0) / 4 % 2) (by omega)
    rw [← hq, ← hp, Rnd.ofCode_code, toNat_beq_one]
    exact encodes_of rfl rfl rfl rfl rfl (show 704 + q.code * 8 + p.toNat * 4 = _ by omega) rfl (and_eq_true_of hd ha)
  all_goals
    rintro rfl hsc rfl
    obtain ⟨sc, rfl⟩ := Scope.exists_code hsc
    simp only [Scope.ofCode_code, Nat.mul_zero, Nat.zero_add]
    exact ⟨rfl, rfl, and_eq_true_of ha hb⟩

end

/-! ### The opcode map (R83) -/

theorem imm15_fields {b lo : Nat} (hlo : lo < 1024) : (b * 1024 + lo) / 1024 = b ∧ (b * 1024 + lo) % 1024 = lo := by omega

theorem imm20_fields {a b lo : Nat} (hb : b < 32) (hlo : lo < 1024) :
    (a * 32768 + b * 1024 + lo) / 32768 = a ∧ (a * 32768 + b * 1024 + lo) / 1024 % 32 = b ∧
      (a * 32768 + b * 1024 + lo) % 1024 = lo := by
  omega

theorem imm25_fields {d a b lo : Nat} (ha : a < 32) (hb : b < 32) (hlo : lo < 1024) :
    (d * 1048576 + a * 32768 + b * 1024 + lo) / 1048576 = d ∧ (d * 1048576 + a * 32768 + b * 1024 + lo) / 32768 % 32 = a ∧
      (d * 1048576 + a * 32768 + b * 1024 + lo) / 1024 % 32 = b ∧ (d * 1048576 + a * 32768 + b * 1024 + lo) % 1024 = lo := by
  omega

theorem decodeFields_faithful {f : Fields} (h : f.InRange) : Faithful f (decodeFields f) := by
  obtain ⟨hst, -, hd, ha, hb, hlo⟩ := h
  obtain ⟨st, maj, d, a, b, lo⟩ := f
  dsimp only at hst hd ha hb hlo
  have rd : regOk d = true := decide_eq_true hd
  have ra : regOk a = true := decide_eq_true ha
  have rb : regOk b = true := decide_eq_true hb
  obtain ⟨hb15, hlo15⟩ := imm15_fields (b := b) hlo
  obtain ⟨ha20, hb20, hlo20⟩ := imm20_fields (a := a) hb hlo
  obtain ⟨hd25, ha25, hb25, hlo25⟩ := imm25_fields (d := d) ha hb hlo
  have hi15 : (regOk d && regOk a && decide (b * 1024 + lo < 32768)) = true :=
    and_eq_true_of (and_eq_true_of rd ra) (decide_eq_true (by omega))
  have hi20 : (regOk d && decide (a * 32768 + b * 1024 + lo < 1048576)) = true := and_eq_true_of rd (decide_eq_true (by omega))
  have hi25 : decide (d * 1048576 + a * 32768 + b * 1024 + lo < 33554432) = true := decide_eq_true (by omega)
  have hstop : (st == 1).toNat = st := by
    obtain ⟨p, rfl⟩ := exists_toNat hst
    rw [toNat_beq_one]
  unfold decodeFields
  dsimp only
  split
  case h_1 => exact decodeAlu_faithful hst rd ra rb
  case h_2 | h_3 | h_4 | h_5 | h_6 | h_7 => exact faithful_ok.2 (encodes_of hstop rfl rfl rfl hb15 hlo15 rfl hi15)
  case h_8 => exact decodeShiftImm_faithful hst rd ra rb hlo
  case h_9 | h_10 => exact faithful_ok.2 (encodes_of hstop rfl rfl ha20 hb20 hlo20 rfl hi20)
  case h_11 => exact decodeBranch_faithful hst rd rb hlo
  case h_12 | h_13 =>
    exact faithful_ends.2 fun hend => faithful_ok.2 (encodes_of hend.symm rfl hd25 ha25 hb25 hlo25 rfl hi25)
  case h_14 => exact faithful_ends.2 fun hend => faithful_ok.2 (encodes_of hend.symm rfl rfl rfl hb15 hlo15 rfl hi15)
  case h_15 => exact decodeSys_faithful hst rd ra hlo
  case h_16 => exact faithful_vFormat (fun m t fn _ => decodeVArith_faithful hst rd ra rb m t fn) hlo
  case h_17 => exact faithful_vFormat (fun m t fn _ => decodeVFused_faithful hst rd ra rb m t fn) hlo
  case h_18 => exact faithful_vFormat (fun m t fn _ => decodeVCompare_faithful hst rd ra rb m t fn) hlo
  case h_19 => exact faithful_vFormat (fun m t fn _ => decodeVcvt_faithful hst rd ra rb m t fn) hlo
  case h_20 => exact faithful_vFormat (fun m t fn _ => decodeVPermute_faithful hst rd ra rb m t fn) hlo
  case h_21 => exact faithful_vFormat (fun m t fn _ => decodeVReduce_faithful hst rd ra rb m t fn) hlo
  case h_22 => exact faithful_vFormat (fun m t fn _ => decodeVMask_faithful hst rd ra rb m t fn) hlo
  case h_23 | h_24 | h_25 | h_26 | h_27 | h_28 | h_29 | h_30 | h_31 => exact decodeMem_faithful hst rd ra hb hlo
  case h_32 => exact decodeAmo_faithful hst rd ra rb hlo
  case h_33 => exact decodeRed_faithful hst rd ra rb hlo
  case h_34 => exact faithful_sixteenths (fun k q hq => decodeSync_faithful hst rd ra rb hq)
  case h_35 => exact faithful_sixteenths (fun k q hq => decodeMatrix_faithful hst rd ra rb hq)
  case h_36 => exact faithful_sixteenths (fun k q hq => decodeSluice_faithful hst rd ra rb hq)
  case h_37 => exact faithful_sixteenths (fun k q hq => decodeComposer_faithful hst rd ra rb hq)
  case h_38 => exact faithful_sixteenths (fun k q hq => decodeMapping_faithful hst rd ra rb hq)
  case h_39 => exact faithful_sixteenths (fun k q hq => decodeWharf_faithful hst rd ra rb hq)
  case h_40 => exact faithful_sixteenths (fun k q hq => decodeSystem_faithful hst rd ra rb hq)
  case h_41 =>
    refine faithful_ends.2 fun hend => faithful_ok.2 (encodes_of hend.symm rfl rfl ?_ ?_ ?_ rfl ?_)
    · show a / 2 * 2 + (a % 2 * 8 + b / 4) / 8 = a
      omega
    · show (a % 2 * 8 + b / 4) % 8 * 4 + (b % 4 * 4 + lo / 256) / 4 = b
      omega
    · show (b % 4 * 4 + lo / 256) % 4 * 256 + lo / 16 % 16 * 16 + lo % 16 = lo
      omega
    · change (_ && _) = true
      simp only [Bool.and_eq_true, decide_eq_true_eq]
      omega
  case h_42 => exact faithful_accept.2 fun hst0 => faithful_ok.2 (encodes_of hst0.symm rfl hd25 ha25 hb25 hlo25 rfl hi25)
  case h_43 => exact faithful_error

end Sys2Proof

/-- Settles O49: each decoder of the opcode map answers only instructions that encode to the word's fields. -/
theorem encodingADecodedWord : Obligations.EncodingADecodedWord := by
  intro w i hw hi
  obtain ⟨hfields, hword, hwf⟩ := decodeFields_faithful (Fields.unpack_inRange w) i hi
  exact ⟨by rw [encode, hfields, Fields.pack_unpack hw], hword, hwf⟩

end

/-! ## Prefixes and repeat frames (04_encoding R79 to R82) -/

section

open Sys2Proof Sys2Proof.Machine

namespace Sys2Proof.Machine

theorem exec_pfx_of {s : State} {b : Barge} {r : Run} (h : Issuing s b r) (p : Nat) :
    exec (.pfx p) s = .next ((s.issued b).setB s.cur { b with run := some { r with pfx := some (p, r.here.pc) } }) := by
  have h2 : (s.issued b).barge? s.cur = some b := h.1
  rw [exec_pfx, execPfx, issue_of h]
  simp only [State.leave, h.1, h.2.2, State.updB_some h2]

/-- A run of one word that ends in a frame. -/
theorem exec_rpt_of {s : State} {b : Barge} {r : Run} (h : Alone s b r) (c l x y z e : Nat) :
    exec (.rpt c l x y z e) s = .next (s.doing b (fun s => s.setB s.cur { b with
      frame := some { rpt := r.here.pc, n := c + 1, len := l + 1, dstep := x, astep := y, bstep := z, en := e },
      run := none, unanswered := none })) := by
  obtain ⟨hi, hitems, hraised, _, _⟩ := h
  have h2 : (s.issued b).barge? s.cur = some b := hi.1
  rw [exec_rpt, execRpt, issue_of hi]
  simp [State.leave, State.doing, hi.1, hi.2.2, State.endRun, hitems, hraised, State.putItems, State.updB_some h2, ctxOf, WCtx.pc]

theorem prefixAndRepeatWords : Machine.PrefixAndRepeatWords :=
  fun _ _ _ h p c l x y z e => ⟨exec_pfx_of h p, fun ha => exec_rpt_of ha c l x y z e⟩

/-- Where a frame goes on behind its word `f.j`. -/
theorem Frame.after_word (f : Frame) : f.after (f.rpt + 4 + 4 * f.j) =
    if f.j + 1 < f.len then some { f with j := f.j + 1 }
    else if f.i + 1 < f.n then some { f with i := f.i + 1, j := 0 }
    else none := by
  have hj : (f.rpt + 4 + 4 * f.j - (f.rpt + 4)) / 4 = f.j := by omega
  rw [Frame.after, hj]

theorem framesGoInOrder : Machine.FramesGoInOrder := by
  intro b f hf hi hj next here
  simp only [here, Barge.goOn, hf, f.after_word]
  refine ⟨fun h => ?_, fun h h' => ?_, fun h h' => ?_⟩
  · rw [if_pos h]
    exact ⟨rfl, rfl⟩
  · rw [if_neg (by omega), if_pos h']
    exact ⟨rfl, rfl⟩
  · rw [if_neg (by omega), if_neg (by omega)]
    exact ⟨rfl, rfl⟩

theorem frameSteps : Machine.FrameSteps := by
  intro f w g names
  have hbit (k : Nat) : bits f.en k 1 = f.en / 2 ^ k % 2 := rfl
  refine ⟨?_, ?_, ?_, rfl, rfl, rfl⟩
  all_goals simp [g, names, Frame.stepWord, hbit]

/-! ### One word of a fetch -/

theorem consWord_ok {w : FWord} {k : Nat} {r : Except FetchErr (List FWord × List Nat)} {l : List FWord} {ks : List Nat}
    (h : consWord w k r = .ok (l, ks)) : ∃ l' ks', r = .ok (l', ks') ∧ l = w :: l' := by
  unfold consWord at h
  split at h
  · cases h
  · cases h
    exact ⟨_, _, rfl, rfl⟩

/-- The words of a fetch: one, or one before those of the fetch behind it. -/
def StartsWith (w : FWord) (r : Except FetchErr (List FWord × List Nat)) (l : List FWord) : Prop :=
  l = [w] ∨ ∃ l' ks, r = .ok (l', ks) ∧ l = w :: l'

theorem startsWith_of_ite {p : Prop} [Decidable p] {w : FWord} {k : Nat} {r : Except FetchErr (List FWord × List Nat)}
    {l : List FWord} {ks : List Nat} (h : (if p then .ok ([w], [k]) else consWord w k r) = Except.ok (l, ks)) : StartsWith w r l := by
  split at h
  · cases h
    exact .inl rfl
  · obtain ⟨l', ks', hr, hl⟩ := consWord_ok h
    exact .inr ⟨l', ks', hr, hl⟩

theorem StartsWith.forall_mem {P : FWord → Prop} {w : FWord} {r : Except FetchErr (List FWord × List Nat)} {l : List FWord}
    (h : StartsWith w r l) (hw : P w) (hr : ∀ l ks, r = .ok (l, ks) → ∀ x ∈ l, P x) : ∀ x ∈ l, P x := by
  obtain rfl | ⟨l', ks, hl', rfl⟩ := h
  · exact List.forall_mem_singleton.2 hw
  · exact List.forall_mem_cons.2 ⟨hw, hr l' ks hl'⟩

/-- One step of a recursion over the naturals. -/
theorem brecOn_succ {C : Nat → Type} (F : (n : Nat) → Nat.below (motive := C) n → C n) (n : Nat) :
    ∃ r : Nat.below (motive := C) (n + 1), r.1 = Nat.brecOn n F ∧ Nat.brecOn (n + 1) F = F (n + 1) r := ⟨_, rfl, rfl⟩

/-- The fields of a frame word as iteration `f.i` performs it: its stop bit is set in the last word of the iteration, behind which
`n = 0` words may follow. -/
def Frame.fieldsOf (f : Frame) (n raw : Nat) : Fields :=
  if n = 0 then { f.stepWord (Fields.unpack raw) with st := 1 } else f.stepWord (Fields.unpack raw)

/-- A word of a frame's fetch. The fetch, the decoder and the check of a frame's word stand as variables while the recursion's body is
taken apart: nothing of them is evaluated. -/
theorem State.fetchFrame_ok {s : State} {b : Barge} {f : Frame} {n va : Nat} {l : List FWord} {ks : List Nat}
    (h : s.fetchFrame b f (n + 1) va = .ok (l, ks)) : ∃ raw k i,
      s.fetchWord b va = .ok (raw, k) ∧ decode32 (f.fieldsOf n raw).pack = .ok i ∧
      StartsWith ⟨va, i, if bits f.en 0 1 = 1 then f.i else 0⟩ (s.fetchFrame b f n (va + 4)) l := by
  delta State.fetchFrame at h ⊢
  obtain ⟨r, hr, hsucc⟩ := brecOn_succ (State.fetchFrame._f s b f) n
  rw [hsucc] at h
  rw [← hr]
  unfold State.fetchFrame._f at h
  obtain ⟨fetch, hfetch⟩ : ∃ fetch, s.fetchWord b = fetch := ⟨_, rfl⟩
  obtain ⟨dec, hdec⟩ : ∃ dec, decode32 = dec := ⟨_, rfl⟩
  obtain ⟨bad, hbad⟩ : ∃ bad, frameWordBad = bad := ⟨_, rfl⟩
  rw [hfetch, hdec, hbad] at h
  rw [hfetch, hdec]
  dsimp only at h
  split at h
  next => cases h
  next raw k hraw =>
  split at h
  next => cases h
  next =>
  split at h
  next => cases h
  next i hi =>
  exact ⟨raw, k, i, hraw, hi, startsWith_of_ite h⟩

/-- A word of a fetch outside a frame: a `PFX` with words behind it, an `RPT`, or any other word. -/
theorem State.fetchRun_ok {s : State} {b : Barge} {n va : Nat} {l : List FWord} {ks : List Nat}
    (h : s.fetchRun b (n + 1) va = .ok (l, ks)) : ∃ i, StartsWith ⟨va, i, 0⟩ (s.fetchRun b n (va + 4)) l := by
  delta State.fetchRun at h ⊢
  obtain ⟨r, hr, hsucc⟩ := brecOn_succ (State.fetchRun._f s b) n
  rw [hsucc] at h
  rw [← hr]
  unfold State.fetchRun._f at h
  obtain ⟨fetch, hfetch⟩ : ∃ fetch, s.fetchWord b = fetch := ⟨_, rfl⟩
  obtain ⟨dec, hdec⟩ : ∃ dec, decode32 = dec := ⟨_, rfl⟩
  obtain ⟨chk, hchk⟩ : ∃ chk, s.checkRpt b = chk := ⟨_, rfl⟩
  rw [hfetch, hdec, hchk] at h
  dsimp only at h
  split at h
  next => cases h
  next raw k hraw =>
  split at h
  next => cases h
  next p hp =>
    refine ⟨.pfx p, .inr ?_⟩
    split at h
    next => cases h
    next =>
    split at h
    next => cases h
    next =>
    split at h
    next => cases h
    next =>
    split at h
    next => cases h
    next =>
    split at h
    next => cases h
    next => exact consWord_ok h
  next c x y z e hr =>
    split at h
    next => cases h
    next =>
      cases h
      exact ⟨_, .inl rfl⟩
  next i _ _ hi =>
    refine ⟨i, ?_⟩
    split at h
    next =>
      cases h
      exact .inl rfl
    next =>
      split at h
      next => cases h
      next => exact .inr (consWord_ok h)

/-! ### The words of an iteration -/

/-- A word of an iteration: the word at its address, stepped, its stop bit set where it is the last, with what its immediate takes
in addition. -/
def FrameWord (s : State) (b : Barge) (f : Frame) (w : FWord) : Prop :=
  (w.inc = if f.en % 2 = 1 then f.i else 0) ∧
    ∃ raw k : Nat, s.fetchWord b w.pc = .ok (raw, k) ∧
      ∃ st < 2, decode32 { f.stepWord (Fields.unpack raw) with st := st }.pack = .ok w.instr

theorem Frame.fieldsOf_eq (f : Frame) (n raw : Nat) :
    ∃ st < 2, f.fieldsOf n raw = { f.stepWord (Fields.unpack raw) with st := st } := by
  unfold Frame.fieldsOf
  split
  · exact ⟨1, by decide, rfl⟩
  · exact ⟨(Fields.unpack raw).st, (Fields.unpack_inRange raw).st, rfl⟩

theorem State.fetchFrame_words {s : State} {b : Barge} {f : Frame} {n va : Nat} {l : List FWord} {ks : List Nat}
    (h : s.fetchFrame b f n va = .ok (l, ks)) : ∀ w ∈ l, FrameWord s b f w := by
  induction n generalizing va l ks with
  | zero =>
    cases h
    exact List.forall_mem_nil _
  | succ n ih =>
    obtain ⟨raw, k, i, hraw, hi, hl⟩ := State.fetchFrame_ok h
    obtain ⟨st, hst, hfields⟩ := f.fieldsOf_eq n raw
    rw [hfields] at hi
    have hinc : bits f.en 0 1 = f.en % 2 := by rw [bits, Nat.pow_zero, Nat.div_one, Nat.pow_one]
    exact hl.forall_mem ⟨by rw [hinc], raw, k, hraw, st, hst, hi⟩ fun _ _ => ih

theorem State.fetchRun_inc {s : State} {b : Barge} {n va : Nat} {l : List FWord} {ks : List Nat}
    (h : s.fetchRun b n va = .ok (l, ks)) : ∀ w ∈ l, w.inc = 0 := by
  induction n generalizing va l ks with
  | zero => cases h
  | succ n ih =>
    obtain ⟨i, hl⟩ := State.fetchRun_ok h
    exact hl.forall_mem rfl fun _ _ => ih

theorem frameImmediates : Machine.FrameImmediates := by
  intro s b l ks h
  constructor
  · intro f hf
    rw [State.nextRun, hf] at h
    exact State.fetchFrame_words h
  · intro hf
    rw [State.nextRun, hf] at h
    exact State.fetchRun_inc h

end Sys2Proof.Machine

/-- Settles O6: a fetch is taken apart word by word, each with the increment of its own frame. -/
theorem prefixAndRepeat : Obligations.PrefixAndRepeat :=
  ⟨prefixAndRepeatWords, framesGoInOrder, frameSteps, frameImmediates⟩

end

/-! ## What reads of system registers deliver (05_core_state R91 to R93) -/

section

open Sys2Proof Sys2Proof.Machine

namespace Sys2Proof.Machine

/-- The values that a run takes down are those that the registers have as it begins. -/
theorem State.tgetD_sysNow (s : State) (b : Barge) {n : Nat} (h : n ∈ sysNumbers) :
    tgetD 0 (s.sysNow b) n = s.sysRead b n := by
  rw [State.sysNow, tgetD_filter_ne_zero (lo := 0) rfl]
  simp only [sysNumbers, List.mem_cons, List.not_mem_nil, or_false] at h
  rcases h with rfl | rfl | rfl | rfl | rfl | rfl | rfl | rfl | rfl | rfl | rfl | rfl | rfl | rfl | rfl | rfl | rfl <;> rfl

theorem registerValues : Machine.RegisterValues := by
  intro s b v
  have hv (n : Nat) (h : n ∈ sysNumbers) : v n = s.sysRead b n := s.tgetD_sysNow b h
  have hflags : v 0x100 = BitVec.ofNat 64 (b.rfpen * 32 + b.rfpfl) := by
    rw [hv _ (by decide), Nat.add_comm]
    rfl
  exact ⟨hv _ (by decide), hv _ (by decide), hv _ (by decide), hv _ (by decide), hflags, hv _ (by decide),
    hv _ (by decide), hv _ (by decide), hv _ (by decide), hv _ (by decide), hv _ (by decide), hv _ (by decide),
    hv _ (by decide), hv _ (by decide), hv _ (by decide), hv _ (by decide), hv _ (by decide)⟩

/-! ### A run's fetch leaves the registers alone -/

/-- `t` is `s` but for its memories and for what the caches hold. -/
def MemoryOnly (s t : State) : Prop := ∃ m c, t = { s with mem := m, com := { s.com with lines := c } }

theorem MemoryOnly.refl (s : State) : MemoryOnly s s := ⟨_, _, rfl⟩

theorem MemoryOnly.trans {s t u : State} : MemoryOnly s t → MemoryOnly t u → MemoryOnly s u := by
  rintro ⟨_, _, rfl⟩ ⟨_, _, rfl⟩
  exact ⟨_, _, rfl⟩

theorem CachesOnly.memoryOnly {s t : State} : CachesOnly s t → MemoryOnly s t := by
  rintro ⟨_, _, _, rfl⟩
  exact ⟨_, _, rfl⟩

theorem State.useIcache_memoryOnly (s : State) (core g : Nat) : MemoryOnly s (s.useIcache core g) := ⟨_, _, rfl⟩

theorem State.fillOne_memoryOnly (s : State) (party : Nat) (l : List Nat) : MemoryOnly s (s.fillOne party l) := by
  unfold State.fillOne
  dsimp only
  split
  · exact .refl s
  · exact ⟨_, _, rfl⟩

theorem State.fill_memoryOnly (s : State) (party : Nat) (l : List Nat) : MemoryOnly s (s.fill party l) := by
  unfold State.fill
  dsimp only
  split
  · exact .refl s
  · split
    · exact (s.fillOne_memoryOnly _ _).trans (State.fillOne_memoryOnly _ _ _)
    · exact s.fillOne_memoryOnly _ _

theorem MemoryOnly.sysNow {s t : State} (b : Barge) : MemoryOnly s t → t.sysNow b = s.sysNow b := by
  rintro ⟨_, _, rfl⟩
  rfl

/-- A run that opens keeps, beside its words, the registers' values as they stood. -/
theorem State.openRun_run {s : State} {b : Barge} {w : FWord} {ws : List FWord} {ks : List Nat}
    (h : s.nextRun b = .ok (w :: ws, ks)) (k : Nat) :
    ((s.openRun k b).barge k).run = some { words := w :: ws, here := w, sys := s.sysNow b } := by
  simp only [State.openRun, h, State.barge_setB, Option.some.injEq, Run.mk.injEq, true_and, and_true]
  refine MemoryOnly.sysNow b (foldl_keeps (P := MemoryOnly s) (fun t x ht => ht.trans ?_) _ (s.fill_memoryOnly b.core ks))
  split
  · refine MemoryOnly.trans ?_ (State.useIcache_memoryOnly _ _ _)
    split
    · exact .refl t
    · exact (State.touchRead_cachesOnly ..).memoryOnly
  · exact .refl t

theorem registerReads : Machine.RegisterReads :=
  ⟨fun _ k _ _ _ _ h => State.openRun_run h k, fun s b r h d n =>
    writesS_of h fun st => by rw [exec_srd, execSrd, issue_of h]; rfl⟩

end Sys2Proof.Machine

/-- Settles O8: a run takes down the registers' values, and a read delivers what its run took down. -/
theorem systemRegisterReads : Obligations.SystemRegisterReads := ⟨registerValues, registerReads⟩

end

/-! ## What writes of system registers do (05_core_state R92, R95) -/

section

open Sys2Proof Sys2Proof.Machine

namespace Sys2Proof.Machine

/-! ### The fields of a written value -/

theorem bits_toNat (w : Word) (lo len : Nat) : bits w.toNat lo len = (w.extractLsb' lo len).toNat := by
  rw [bits, BitVec.extractLsb'_toNat, Nat.shiftRight_eq_div_pow]

theorem bits_toNat_one (w : Word) (lo : Nat) : (bits w.toNat lo 1 == 1) = w.getLsbD lo := by
  rw [bits, BitVec.getLsbD, Nat.testBit_eq_decide_div_mod_eq]
  rfl

theorem getLsbD_sysWr {n k : Nat} (old new : Word) (h : (sysMask n).getLsbD k = true) :
    (sysWr n old new).getLsbD k = new.getLsbD k := by
  simp [sysWr, h]

/-- A field that may be written takes the bits of the new value. -/
theorem extractLsb'_sysWr {n lo len : Nat} (old new : Word) (h : ∀ i < len, (sysMask n).getLsbD (lo + i) = true) :
    (sysWr n old new).extractLsb' lo len = new.extractLsb' lo len := by
  refine BitVec.eq_of_getLsbD_eq fun i hi => ?_
  rw [BitVec.getLsbD_extractLsb', BitVec.getLsbD_extractLsb', getLsbD_sysWr _ _ (h i hi)]

/-! ### A register's new fields -/

/-- The registers that have fields to write. -/
abbrev writableRegs : List Nat := [0x010, 0x100, 0x500, 0x600]

theorem writable_cases {n : Nat} (h : n ∈ writableRegs) : n = 0x010 ∨ n = 0x100 ∨ n = 0x500 ∨ n = 0x600 := by
  simpa using h

theorem State.setB_self {s : State} {k : Nat} {b : Barge} (h : s.barge? k = some b) : s.setB k b = s := by
  rw [State.setB, tset_self h]

section

variable (b : Barge) (w : Word) (t : State)

theorem regPut_leasemax : Machine.regPut 0x010 b w t =
    ({ t with leasemax := tput 256 t.leasemax b.core (min 1024 (max 16 (w.extractLsb' 0 11).toNat)) }, b) := rfl

theorem regPut_fpflags : Machine.regPut 0x100 b w t =
    (t, { b with rfpen := (w.extractLsb' 5 5).toNat, rfpfl := (w.extractLsb' 0 5).toNat }) := rfl

theorem regPut_tlease : Machine.regPut 0x500 b w t =
    ({ t with map := { t.map with tlease := min 4096 (max 256 (w.extractLsb' 0 13).toNat) } }, b) := rfl

theorem regPut_slotcfg : Machine.regPut 0x600 b w t =
    ({ t with whf := { t.whf with slotEn := w.getLsbD 16, slotLen := max 10 (w.extractLsb' 0 16).toNat } }, b) := rfl

end

/-- Of a value, a register takes the bits of its own fields only. -/
theorem regPut_sysWr {n : Nat} (hn : n ∈ writableRegs) (b : Barge) (old v : Word) (t : State) :
    Machine.regPut n b (sysWr n old v) t = Machine.regPut n b v t := by
  rcases writable_cases hn with rfl | rfl | rfl | rfl
  · rw [regPut_leasemax, extractLsb'_sysWr old v (by decide), regPut_leasemax]
  · rw [regPut_fpflags, extractLsb'_sysWr old v (by decide), extractLsb'_sysWr old v (by decide), regPut_fpflags]
  · rw [regPut_tlease, extractLsb'_sysWr old v (by decide), regPut_tlease]
  · rw [regPut_slotcfg, extractLsb'_sysWr old v (by decide), getLsbD_sysWr old v (by decide), regPut_slotcfg]

/-- The model's write of a register is `regPut`. -/
theorem sysWrite_eq_regPut {n : Nat} (hn : n ∈ writableRegs) {t : State} {k : Nat} {c : Barge} (h : t.barge? k = some c) (w : Word) :
    t.sysWrite k n w = (Machine.regPut n c w t).1.setB k (Machine.regPut n c w t).2 := by
  rcases writable_cases hn with rfl | rfl | rfl | rfl
  · simp only [State.sysWrite, regPut_leasemax, bits_toNat, State.barge_of h]
    exact (State.setB_self (by exact h)).symm
  · simp only [State.sysWrite, regPut_fpflags, bits_toNat, State.updB_some h]
  · simp only [State.sysWrite, regPut_tlease, bits_toNat]
    exact (State.setB_self (by exact h)).symm
  · simp only [State.sysWrite, regPut_slotcfg, bits_toNat_one]
    simp only [bits_toNat]
    exact (State.setB_self (by exact h)).symm

theorem putItems_sys {n : Nat} (hn : n ∈ writableRegs) {t : State} {k : Nat} {c : Barge} (h : t.barge? k = some c) (old v : Word) :
    t.putItems k [.sys n (sysWr n old v)] = (Machine.regPut n c v t).1.setB k (Machine.regPut n c v t).2 := by
  rw [← regPut_sysWr hn c old v t]
  exact sysWrite_eq_regPut hn h _

@[simp] theorem regPut_frame (n : Nat) (c : Barge) (v : Word) (t : State) : (Machine.regPut n c v t).2.frame = c.frame := by
  unfold Machine.regPut
  split_ifs <;> rfl

/-- A register's new fields do not depend on the barge that the state holds. -/
theorem regPut_setB (n : Nat) (c : Barge) (v : Word) (t : State) (k : Nat) (d e : Barge) :
    (Machine.regPut n c v (t.setB k d)).1.setB k e = (Machine.regPut n c v t).1.setB k e ∧
      (Machine.regPut n c v (t.setB k d)).2 = (Machine.regPut n c v t).2 := by
  unfold Machine.regPut
  split_ifs <;> exact ⟨by simp [State.setB], rfl⟩

theorem putItems_nil {s : State} {k : Nat} {b : Barge} (h : s.barge? k = some b) : s.putItems k [] = s.setB k b :=
  (State.setB_self h).symm

/-- The old value goes to its scalar register, and then the register takes its new fields. -/
theorem putItems_sreg_sys {n : Nat} (hn : n ∈ writableRegs) {t : State} {k : Nat} {c : Barge} (h : t.barge? k = some c) (d : Nat)
    (o old v : Word) : t.putItems k [.sreg d o, .sys n (sysWr n old v)] =
      (Machine.regPut n (c.withS d o) v t).1.setB k (Machine.regPut n (c.withS d o) v t).2 := by
  change (t.putItems k [.sreg d o]).putItems k [.sys n (sysWr n old v)] = _
  obtain ⟨hstate, hbarge⟩ := regPut_setB n (c.withS d o) v t k (c.withS d o) (Machine.regPut n (c.withS d o) v t).2
  rw [putItems_sreg h, putItems_sys hn (t.barge?_setB k _), hbarge, hstate]

/-! ### What the words leave -/

section

variable {s : State} {b : Barge} {r : Run} (h : Issuing s b r)

include h

theorem exec_swr_of (st : Bool) (a n : Nat) :
    exec (.swr st a n) s = .next (s.leave s.cur st ((ctxOf s b r).sysPut n [] ((ctxOf s b r).x a))) := by
  rw [exec_swr]
  exact issue_of h st _

theorem exec_srset_of (st : Bool) (d a n : Nat) : exec (.srset st d a n) s = .next (s.leave s.cur st
    ((ctxOf s b r).sysPut n [.sreg d (tgetD 0 r.sys n)] (tgetD 0 r.sys n ||| (ctxOf s b r).x a))) := by
  rw [exec_srset]
  exact issue_of h st _

theorem exec_srclr_of (st : Bool) (d a n : Nat) : exec (.srclr st d a n) s = .next (s.leave s.cur st
    ((ctxOf s b r).sysPut n [.sreg d (tgetD 0 r.sys n)] (tgetD 0 r.sys n &&& ~~~(ctxOf s b r).x a))) := by
  rw [exec_srclr]
  exact issue_of h st _

end

theorem sysPut_writable {c : WCtx} {n : Nat} (hn : n ∈ writableRegs) (hc : n = 0x100 ∨ c.b.ctx = 0) (l : List Item) (v : Word) :
    c.sysPut n l v = .items (l ++ [.sys n (sysWr n (c.sys n) v)]) 0 := by
  have hp : ¬ (sysPrivileged n && c.b.ctx != 0) = true := by
    rcases hc with rfl | hc
    · exact Bool.false_ne_true
    · simp [hc]
  have hm : sysMask n ≠ 0 := by rcases writable_cases hn with rfl | rfl | rfl | rfl <;> decide
  rw [WCtx.sysPut, if_neg hp, if_neg hm]

theorem not_privileged_of_readOnly : ∀ n ∈ Machine.readOnlyRegs, sysPrivileged n = false ∧ sysMask n = 0 := by decide

theorem sysPut_readOnly {c : WCtx} {n : Nat} (hn : n ∈ Machine.readOnlyRegs) (l : List Item) (v : Word) :
    c.sysPut n l v = .items l 0 := by
  obtain ⟨hp, hm⟩ := not_privileged_of_readOnly n hn
  rw [WCtx.sysPut, hp, Bool.false_and, if_neg Bool.false_ne_true, if_pos hm]

theorem sysPut_privileged {c : WCtx} {n : Nat} (hn : n ∈ [0x010, 0x500, 0x600]) (hc : c.b.ctx ≠ 0) (l : List Item) (v : Word) :
    c.sysPut n l v = .exc ⟨7, 0, BitVec.ofNat 64 n⟩ := by
  have hp : sysPrivileged n = true := by revert n; decide
  rw [WCtx.sysPut, hp, Bool.true_and, if_pos (bne_iff_ne.2 hc)]

/-- A word that is alone in its run and raises nothing leaves its results in the barge, at the word behind. -/
theorem exec_alone {i : Instr} {s : State} {b : Barge} {r : Run} (h : Alone s b r) {l : List Item}
    (he : exec i s = .next (s.leave s.cur true (.items l 0))) {t : State} {c : Barge}
    (hp : (s.issued b).putItems s.cur l = t.setB s.cur c) (hc : c.frame = none) {f : State → State}
    (hf : f (s.issued b) = t.setB s.cur (c.past r)) : exec i s = .next (s.doing b f) := by
  obtain ⟨hi, hitems, hraised, -, -⟩ := h
  have hcur : (s.issued b).cur = s.cur := rfl
  rw [he, leave_items_true hi l 0 (by simp [hraised]), State.doing, State.doing, hf, hitems, hraised, List.nil_append, hcur, hp]
  simp [Barge.goOn, hc, Barge.past]

theorem systemRegisterWrites : Machine.SystemRegisterWrites := by
  intro s b r hi h d a v old
  have hb : (s.issued b).barge? s.cur = some b := hi.1
  have hframe : b.frame = none := h.2.2.2.2
  constructor
  · intro n hn hctx put
    refine ⟨?_, ?_, ?_⟩
    · refine exec_alone h (by rw [exec_swr_of hi, sysPut_writable hn hctx]; rfl) (putItems_sys hn hb _ _) ?_ rfl
      rw [regPut_frame, hframe]
    · refine exec_alone h (by rw [exec_srset_of hi, sysPut_writable hn hctx]; rfl) (putItems_sreg_sys hn hb d _ _ _) ?_ rfl
      rw [regPut_frame, Barge.withS_frame, hframe]
    · refine exec_alone h (by rw [exec_srclr_of hi, sysPut_writable hn hctx]; rfl) (putItems_sreg_sys hn hb d _ _ _) ?_ rfl
      rw [regPut_frame, Barge.withS_frame, hframe]
  · intro n hn put
    refine ⟨?_, ?_, ?_⟩
    · exact exec_alone h (by rw [exec_swr_of hi, sysPut_readOnly hn]) (putItems_nil hb) hframe rfl
    · refine exec_alone h (by rw [exec_srset_of hi, sysPut_readOnly hn]) (putItems_sreg hb d _) ?_ rfl
      rw [Barge.withS_frame, hframe]
    · refine exec_alone h (by rw [exec_srclr_of hi, sysPut_readOnly hn]) (putItems_sreg hb d _) ?_ rfl
      rw [Barge.withS_frame, hframe]

/-- A word with results that raises nothing, in a run of several words. -/
theorem inRun_of {i : Bool → Instr} {s : State} {b : Barge} {r : Run} (h : Issuing s b r) {l : List Item}
    (he : ∀ st, exec (i st) s = .next (s.leave s.cur st (.items l 0))) : Machine.InRun i s b r l := by
  constructor
  · rw [he, leave_items_false h]
    rfl
  · intro hf
    rw [he, leave_items_true h l 0 (by simpa using hf), Nat.or_zero]
    rfl

theorem systemRegisterWords : Machine.SystemRegisterWords := by
  intro s b r h d a v old words
  refine ⟨fun n hn hctx e he => ?_, fun n hn e he => ?_⟩
  · refine ⟨sysWr n (old n) e.2.2, ?_, fun t c hc => putItems_sys hn hc _ _⟩
    simp only [words, List.mem_cons, List.not_mem_nil, or_false] at he
    rcases he with rfl | rfl | rfl
    · exact inRun_of h fun st => by rw [exec_swr_of h, sysPut_writable hn hctx]; rfl
    · exact inRun_of h fun st => by rw [exec_srset_of h, sysPut_writable hn hctx]; rfl
    · exact inRun_of h fun st => by rw [exec_srclr_of h, sysPut_writable hn hctx]; rfl
  · simp only [words, List.mem_cons, List.not_mem_nil, or_false] at he
    rcases he with rfl | rfl | rfl
    · exact inRun_of h fun st => by rw [exec_swr_of h, sysPut_readOnly hn]
    · exact inRun_of h fun st => by rw [exec_srset_of h, sysPut_readOnly hn]
    · exact inRun_of h fun st => by rw [exec_srclr_of h, sysPut_readOnly hn]

theorem privilegedRegisters : Machine.PrivilegedRegisters := by
  intro s b r h hctx st d a n hn
  have traps {i : Instr} {l : List Item} {v : Word} (he : exec i s = .next (s.leave s.cur st ((ctxOf s b r).sysPut n l v))) :
      Traps i s r 7 0 (BitVec.ofNat 64 n) := by
    rw [sysPut_privileged hn hctx] at he
    exact traps_of h he
  exact ⟨traps (exec_swr_of h st a n), traps (exec_srset_of h st d a n), traps (exec_srclr_of h st d a n)⟩

/-! ### The writes as steps of their own -/

section

variable {s : State} {k : Nat} {b : Barge} (hb : s.barge? k = some b) (hst : b.st = .resident)

include hb hst

theorem sysStep_writable {n : Nat} (hn : n ∈ writableRegs) (hctx : n = 0x100 ∨ b.ctx = 0) (v : Word) :
    s.sysStep k n v = (Machine.regPut n b v s).1.setB k (Machine.regPut n b v s).2 := by
  have hreg : isSysReg n = true := by rcases writable_cases hn with rfl | rfl | rfl | rfl <;> rfl
  have hm : sysMask n ≠ 0 := by rcases writable_cases hn with rfl | rfl | rfl | rfl <;> decide
  have hp : (sysPrivileged n && b.ctx != 0) = false := by
    rcases hctx with rfl | hctx
    · rfl
    · simp [hctx]
  rw [← regPut_sysWr hn b (s.sysRead b n) v s, ← sysWrite_eq_regPut hn hb]
  simp only [State.sysStep, hb, hst, hreg, hp, hm, bne_self_eq_false, Bool.not_true, Bool.or_self, Bool.false_eq_true, if_false]

omit hst in
theorem sysStep_readOnly {n : Nat} (hn : n ∈ Machine.readOnlyRegs) (v : Word) : s.sysStep k n v = s := by
  obtain ⟨hp, hm⟩ := not_privileged_of_readOnly n hn
  simp [State.sysStep, hb, hp, hm]

theorem sysStep_privileged {n : Nat} (hn : n ∈ [0x010, 0x500, 0x600]) (hctx : b.ctx ≠ 0) (v : Word) :
    s.sysStep k n v = s.takeExc k { cls := 7, pc := b.pc, s3 := BitVec.ofNat 64 n } := by
  have hp : sysPrivileged n = true ∧ isSysReg n = true := by revert n; decide
  simp [State.sysStep, hb, hst, hp, hctx]

end

theorem registerWriteSteps : Machine.RegisterWriteSteps := by
  intro s k b v hb hst
  refine ⟨fun hctx => ⟨?_, ?_, ?_⟩, fun hctx => ⟨?_, ?_, ?_⟩, fun hrun => ?_, fun n hn => ?_⟩
  · exact congrArg Host.Outcome.next (sysStep_privileged hb hst (n := 0x010) (by decide) hctx v)
  · exact congrArg Host.Outcome.next (sysStep_privileged hb hst (n := 0x500) (by decide) hctx v)
  · exact congrArg Host.Outcome.next (sysStep_privileged hb hst (n := 0x600) (by decide) hctx v)
  · exact congrArg Host.Outcome.next ((sysStep_writable hb hst (n := 0x010) (by decide) (.inr hctx) v).trans (State.setB_self hb))
  · exact congrArg Host.Outcome.next ((sysStep_writable hb hst (n := 0x500) (by decide) (.inr hctx) v).trans (State.setB_self hb))
  · exact congrArg Host.Outcome.next ((sysStep_writable hb hst (n := 0x600) (by decide) (.inr hctx) v).trans (State.setB_self hb))
  · rw [exec_fpflagsWrite, execFpflagsWrite, hb]
    dsimp only
    rw [sysStep_writable hb hst (n := 0x100) (by decide) (.inl rfl) v, regPut_fpflags, State.updB_setB, hrun]
    dsimp only
    rw [Nat.or_zero]
  · exact congrArg Host.Outcome.next (sysStep_readOnly hb hn v)

end Sys2Proof.Machine

/-- Settles O9: a write puts its new value among the run's results, and of it the register takes the bits of its own fields. -/
theorem writesOfSystemRegisters : Obligations.WritesOfSystemRegisters :=
  ⟨systemRegisterWrites, systemRegisterWords, privilegedRegisters, registerWriteSteps⟩

end

/-! ## The granted shape (05_core_state R93, R107, R108) -/

section

open Sys2Proof Sys2Proof.Machine

namespace Sys2Proof.Machine

/-- A tile shape with no more than `r` rows and no more than `c` columns (R107). -/
def Fits (r c t : Nat) : Prop := shapeRows t ≤ r ∧ shapeCols t ≤ c

theorem fits_iff_test {r c t : Nat} : (decide (shapeRows t ≤ r) && decide (shapeCols t ≤ c)) = true ↔ Fits r c t := by
  rw [Bool.and_eq_true, decide_eq_true_iff, decide_eq_true_iff, Fits]

/-- The rows or columns that a field of the request asks for: 0 asks for 255, which every shape fits (R107). -/
def askedSize (n : Nat) : Nat := if n = 0 then 255 else n

/-- The granted code is the least that fits; where none does it is 7. -/
theorem grantTile_cases (q : Nat) :
    let r := askedSize (bits q 8 8)
    let c := askedSize (bits q 16 8)
    (grantTile q < 8 ∧ Fits r c (grantTile q) ∧ ∀ u < grantTile q, ¬ Fits r c u) ∨
      (grantTile q = 7 ∧ ∀ u < 8, ¬ Fits r c u) := by
  intro r c
  have hgrant : grantTile q = ((List.range 8).find? (fun t => decide (shapeRows t ≤ r) && decide (shapeCols t ≤ c))).getD 7 := rfl
  cases hfind : (List.range 8).find? (fun t => decide (shapeRows t ≤ r) && decide (shapeCols t ≤ c)) with
  | some t =>
    left
    rw [hgrant, hfind, Option.getD_some]
    obtain ⟨ht, hlt, hleast⟩ := List.find?_range_eq_some.1 hfind
    refine ⟨List.mem_range.1 hlt, fits_iff_test.1 ht, fun u hu => ?_⟩
    simpa only [Bool.not_eq_true', ← Bool.not_eq_true, fits_iff_test] using hleast u hu
  | none =>
    right
    rw [hgrant, hfind]
    refine ⟨rfl, fun u hu => ?_⟩
    simpa only [fits_iff_test] using List.find?_eq_none.1 hfind u (List.mem_range.2 hu)

theorem grantTile_lt (q : Nat) : grantTile q < 8 := by
  rcases grantTile_cases q with ⟨h, -, -⟩ | ⟨h, -⟩
  · exact h
  · omega

theorem grantVl_le (q : Nat) : grantVl q ≤ 32 := by
  unfold grantVl
  dsimp only
  split <;> omega

theorem bits_eq_zero_iff (w : Word) (lo len : Nat) : bits w.toNat lo len = 0 ↔ w.extractLsb' lo len = 0 := by
  rw [bits_toNat, ← BitVec.toNat_inj]
  rfl

theorem shapeGrant : Machine.ShapeGrant := by
  intro q v0 r c v
  have hsize (lo : Nat) : askedSize (bits q.toNat lo 8) = if q.extractLsb' lo 8 = 0 then 255 else (q.extractLsb' lo 8).toNat := by
    simp only [askedSize, bits_eq_zero_iff]
    rw [bits_toNat]
  have hvl : grantVl q.toNat = v := by
    simp only [grantVl, bits_toNat, v, v0]
  refine ⟨grantTile q.toNat, grantTile_lt _, by rw [setshpGrant, shapeWord, hvl], ?_⟩
  have hcases := grantTile_cases q.toNat
  simp only [hsize, Fits, and_assoc] at hcases
  exact hcases.imp_left And.right

/-! ### The shape that a barge takes -/

/-- BARGE.SHAPE takes the vector length and the code of what is written (R93). -/
theorem putItems_shape {s : State} {k : Nat} {b : Barge} (h : s.barge? k = some b) {v t : Nat} (hv : v < 64) (ht : t < 8) :
    s.putItems k [.shape (v + t * 2 ^ 24)] = s.setB k { b with rvl32 := v, rtcode := t } := by
  have hvl : bits (v + t * 2 ^ 24) 0 6 = v := by unfold bits; omega
  have hcode : bits (v + t * 2 ^ 24) 24 3 = t := by unfold bits; omega
  simp only [State.putItems, State.putItem, hvl, hcode, State.updB_some h]

/-- The grant goes to its register, and then the barge takes the shape. -/
theorem putItems_sreg_shape {s : State} {k : Nat} {b : Barge} (h : s.barge? k = some b) (d : Nat) (g : Word) {v t : Nat}
    (hv : v < 64) (ht : t < 8) : s.putItems k [.sreg d g, .shape (v + t * 2 ^ 24)] =
      s.setB k { b.withS d g with rvl32 := v, rtcode := t } := by
  change (s.putItems k [.sreg d g]).putItems k [.shape (v + t * 2 ^ 24)] = _
  rw [putItems_sreg h, putItems_shape (s.barge?_setB k _) hv ht, State.setB_setB]

theorem setShape : Machine.SetShape := by
  intro s b r h d a q g
  have hv : grantVl q < 64 := (grantVl_le q).trans_lt (by decide)
  exact ⟨grantVl q, grantTile q, rfl, leaves_of h (fun st => by rw [exec_setshp, execSetshp, issue_of h])
    (putItems_sreg_shape h.issued.1 d g hv (grantTile_lt q)) (b.withS_frame d g) (b.withS_rfpfl d g)⟩

end Sys2Proof.Machine

/-- Settles O11: the search through the eight shapes ends at the least that fits, and the result of `SETSHP` keeps both its fields. -/
theorem shapes : Obligations.Shapes := ⟨shapeGrant, setShape⟩

end

/-! ## A step issues a word or takes what is due (04_encoding R68, 05_core_state R97) -/

section

open Sys2Proof Sys2Proof.Machine

namespace Sys2Proof.Machine

/-! ### What a step performs -/

theorem step_eq_ticked (s : State) : step s = Machine.ticked s.happen := by
  unfold step Machine.ticked
  cases s.happen <;> rfl

theorem State.happen_of_chooseAct {s t : State} {a : Act} (hin : s.inputs = []) (h : s.chooseAct s.acts = (some a, t)) :
    s.happen = t.doAct a := by
  simp only [State.happen, hin, State.own, h]

theorem State.happen_of_input {s : State} {due : Nat} {i : Instr} {rest : List (Nat × Instr)} (hin : s.inputs = (due, i) :: rest)
    (hdue : due ≤ s.cycle) (hi : i.isWord = false) : s.happen = exec i { s with inputs := rest } := by
  simp only [State.happen, hin, if_pos hdue, State.takeInput, hi, Bool.false_eq_true, if_false]

theorem step_issue {s t : State} {k : Nat} (hin : s.inputs = []) (hact : s.chooseAct s.acts = (some (.issue k), t)) :
    step s = Machine.ticked (t.issueWord k) := by
  rw [step_eq_ticked, State.happen_of_chooseAct hin hact, State.doAct]

/-! ### The word that issues -/

/-- A barge as it issues: the access that went unanswered has its answer now (R357). -/
def Barge.answered (b : Barge) : Barge := { b with heard := b.unanswered.isSome, unanswered := none }

theorem State.updB_answered {s : State} {k : Nat} {b : Barge} (h : s.barge? k = some b) :
    s.updB k (fun b => { b with heard := b.unanswered.isSome, unanswered := none }) = s.setB k b.answered := State.updB_some h _

theorem State.present_setB (s : State) (k : Nat) (a b : Barge) (r : Run) (w : FWord) (ws : List FWord) :
    (s.setB k a).present k b r w ws = s.present k b r w ws := by
  simp only [State.present, State.setB_setB]

/-- The next word of a run in progress. -/
theorem State.issueWord_run {s : State} {k : Nat} {b : Barge} {r : Run} {w : FWord} {ws : List FWord} (hb : s.barge? k = some b)
    (hr : b.run = some r) (hw : r.words = w :: ws) :
    s.issueWord k = exec w.instr ((s.setB k b.answered).present k b.answered r w ws) := by
  have hrun : b.answered.run = some r := hr
  simp only [State.issueWord, State.updB_answered hb, State.barge_setB, hrun, Option.isNone_some, Bool.false_eq_true,
    if_false, hw]

/-- The first word of the run that the fetch has opened. -/
theorem State.issueWord_open {s : State} {k : Nat} {b d : Barge} {r : Run} {w : FWord} {ws : List FWord} (hb : s.barge? k = some b)
    (hrun : b.run = none) (hd : ((s.setB k b.answered).openRun k b.answered).barge? k = some d) (hr : d.run = some r)
    (hw : r.words = w :: ws) : s.issueWord k =
      exec w.instr (((s.setB k b.answered).openRun k b.answered).present k { d with heard := false } r w ws) := by
  have hnone : b.answered.run = none := hrun
  simp only [State.issueWord, State.updB_answered hb, State.barge_setB, hnone, Option.isNone_none, if_true,
    State.updB_some hd, hr, hw, State.present_setB]

/-- What a fetch that finds words leaves: the barge has their run, and nothing else of it has changed but the nodes that it used and
the access that is answered. -/
theorem State.openRun_eq {s : State} {b : Barge} {w : FWord} {ws : List FWord} {ks : List Nat}
    (h : s.nextRun b = .ok (w :: ws, ks)) (k : Nat) : ∃ (t : State) (used : List Nat), s.openRun k b =
      t.setB k { b with run := some { words := w :: ws, here := w, sys := s.sysNow b }, used := used, unanswered := none } := by
  obtain ⟨t, run, used, heq⟩ : ∃ (t : State) (run : Run) (used : List Nat), s.openRun k b =
      t.setB k { b with run := some run, used := used, unanswered := none } :=
    ⟨_, _, _, by simp only [State.openRun, h]; rfl⟩
  have hrun := State.openRun_run h k
  rw [heq, State.barge_setB] at hrun
  exact ⟨t, used, by rw [heq, ← hrun]⟩

/-! ### The word at an address -/

/-- An address that translates with execute right, to bytes that answer and are not poisoned, holds a word. -/
theorem State.fetchWord_eq {s : State} {b : Barge} {va : Nat} {g : Seg} (hva : va < 2 ^ 48)
    (hpage : s.page b.core b.ctx va va 4 .x = .ok g) (hdirect : s.directOk g.pa = true) (hiso : s.isIsolated g.pa = false)
    (hheard : s.unheard b g.vc g.pa 4 = none) (hpoison : s.mem.seenPoison b.core g.pa 4 = false) :
    s.fetchWord b va = .ok (leNum (s.seenAt b.core g.pa 4), g.node) := by
  simp only [State.fetchWord, if_neg (Nat.not_le.2 hva), hpage, hdirect, hiso, hheard, hpoison, Bool.not_true, Bool.false_eq_true,
    if_false]

/-- A word whose stop bit is set, neither a prefix nor a repeat, is a run of its own. -/
theorem State.fetchRun_stop {s : State} {b : Barge} {n va w node : Nat} {i : Instr} (hw : s.fetchWord b va = .ok (w, node))
    (hi : decode32 w = .ok i) (hst : (Fields.unpack w).st = 1) (hpfx : ∀ p, i ≠ .pfx p) (hrpt : ∀ n l x y z e, i ≠ .rpt n l x y z e) :
    s.fetchRun b (n + 1) va = .ok ([⟨va, i, 0⟩], [node]) := by
  rw [State.fetchRun]
  simp only [hw, hi]
  exact if_pos hst

end Sys2Proof.Machine

/-- Settles O43: of a step that issues, the word comes from the run in progress, or from the one that the fetch finds. -/
theorem stepRunsTheDecodedWord : Obligations.StepRunsTheDecodedWord := by
  constructor
  · intro s t k b hin hact hb c u
    refine ⟨fun r w ws hr hw => ?_, fun hrun w ws ks hnext => ?_, ?_⟩
    · rw [step_issue hin hact, State.issueWord_run hb hr hw]
      rfl
    · obtain ⟨v, used, hopen⟩ := State.openRun_eq hnext k
      have hd := v.barge?_setB k { c with
        run := some { words := w :: ws, here := w, sys := u.sysNow c }, used := used, unanswered := none }
      rw [← hopen] at hd
      refine ⟨_, hd, rfl, rfl, rfl, rfl, rfl, rfl, rfl, ?_⟩
      rw [step_issue hin hact, State.issueWord_open hb hrun hd rfl rfl]
      rfl
    · intro hrun hframe g i hpc hpage hdirect hiso hheard hpoison w hdec hst hpfx hrpt
      have hword : u.fetchWord c b.pc = .ok (w, g.node) := State.fetchWord_eq hpc hpage hdirect hiso hheard hpoison
      have hnone : c.frame = none := hframe
      rw [State.nextRun, hnone]
      exact State.fetchRun_stop hword hdec hst hpfx hrpt
  · intro s due i rest hin hdue hi
    rw [step_eq_ticked, State.happen_of_input hin hdue hi]

end

/-! ## The two-source scalar words (06_core_scalar R111 to R113) -/

section

open Sys2Proof Sys2Proof.Machine

namespace Sys2Proof.Machine

/-! ### A scalar word writes the value of its function -/

section
variable {i : Bool → Instr} {s : State} {b : Barge} {r : Run} {d p q n : Nat} {v : Word}

theorem writesS_of_issue (h : Issuing s b r) {f : WCtx → Word} (he : ∀ st, exec (i st) s = issue s st (fun c => scalarOut d (f c)))
    (hv : f (ctxOf s b r) = v) : WritesS i s b r d v :=
  writesS_of h fun st => by rw [he, issue_of h, hv]

theorem writesS_of_alu2 (h : Issuing s b r) {f : Word → Word → Word} (he : ∀ st, exec (i st) s = alu2 s st d p q f)
    (hv : f ((ctxOf s b r).x p) ((ctxOf s b r).x q) = v) : WritesS i s b r d v := writesS_of_issue h he hv

theorem writesS_of_alu1 (h : Issuing s b r) {f : Word → Word} (he : ∀ st, exec (i st) s = alu1 s st d p f)
    (hv : f ((ctxOf s b r).x p) = v) : WritesS i s b r d v := writesS_of_issue h he hv

theorem writesS_of_aluI (h : Issuing s b r) {f : Word → Word → Word} (he : ∀ st, exec (i st) s = aluI s st d p n f)
    (hv : f ((ctxOf s b r).x p) ((ctxOf s b r).imm n) = v) : WritesS i s b r d v := writesS_of_issue h he hv

end

theorem arithmeticAndLogic : Machine.ArithmeticAndLogic := fun _ _ _ h _ _ _ =>
  ⟨writesS_of_alu2 h (fun _ => exec_add ..) rfl, writesS_of_alu2 h (fun _ => exec_sub ..) rfl,
    writesS_of_alu2 h (fun _ => exec_and ..) rfl, writesS_of_alu2 h (fun _ => exec_or ..) rfl,
    writesS_of_alu2 h (fun _ => exec_xor ..) rfl, writesS_of_alu2 h (fun _ => exec_andn ..) rfl,
    writesS_of_alu2 h (fun _ => exec_orn ..) rfl⟩

/-! ### Shifts and rotations -/

theorem amount_eq (y : Word) : amount y = (y.setWidth 6).toNat := (BitVec.toNat_setWidth 6 y).symm

theorem amount_lt (y : Word) : amount y < 64 := Nat.mod_lt _ (by decide)

theorem shiftLeft_eq_ofNat (x : Word) (k : Nat) : x <<< k = BitVec.ofNat 64 (x.toNat * 2 ^ k) := by
  apply BitVec.eq_of_toNat_eq
  rw [BitVec.toNat_shiftLeft, BitVec.toNat_ofNat, Nat.shiftLeft_eq]

theorem ushiftRight_eq_ofNat (x : Word) (k : Nat) : x >>> k = BitVec.ofNat 64 (x.toNat / 2 ^ k) := by
  rw [← Nat.shiftRight_eq_div_pow, ← BitVec.toNat_ushiftRight, BitVec.ofNat_toNat, BitVec.setWidth_eq]

theorem sshiftRight_eq_ofInt (x : Word) (k : Nat) : x.sshiftRight k = BitVec.ofInt 64 (x.toInt / 2 ^ k) := by
  rw [BitVec.sshiftRight, Int.shiftRight_eq_div_pow]
  rfl

theorem rotl64_eq (x : Word) {k : Nat} (hk : k < 64) : rotl64 x k = x.rotateLeft k := by
  unfold rotl64
  split
  case isTrue h =>
    have hout : x >>> 64 = 0#64 := BitVec.ushiftRight_eq_zero (Nat.le_refl 64)
    simp [h, BitVec.rotateLeft, BitVec.rotateLeftAux, hout]
  case isFalse h => rw [BitVec.rotateLeft_eq_rotateLeftAux_of_lt hk, BitVec.rotateLeftAux]

theorem rotr64_eq (x : Word) {k : Nat} (hk : k < 64) : rotr64 x k = x.rotateRight k := by
  by_cases h : k = 0
  · simp [h, rotr64, rotl64, BitVec.rotateRight, BitVec.rotateRightAux]
  · have hlow : (64 - k) % 64 = 64 - k := Nat.mod_eq_of_lt (by omega)
    have hback : 64 - (64 - k) = k := by omega
    rw [rotr64, hlow, rotl64, if_neg (by omega), hback, BitVec.rotateRight_eq_rotateRightAux_of_lt hk,
      BitVec.rotateRightAux, BitVec.or_comm]

theorem shiftsAndRotations : Machine.ShiftsAndRotations := by
  intro s b r h d p q x k
  have hk : amount ((ctxOf s b r).x q) = k := amount_eq _
  have hlt : k < 64 := hk ▸ amount_lt _
  refine ⟨writesS_of_alu2 h (fun _ => exec_sll ..) ?_, writesS_of_alu2 h (fun _ => exec_srl ..) ?_,
    writesS_of_alu2 h (fun _ => exec_sra ..) ?_, writesS_of_alu2 h (fun _ => exec_rol ..) ?_,
    writesS_of_alu2 h (fun _ => exec_ror ..) ?_⟩ <;> rw [hk]
  · exact shiftLeft_eq_ofNat x k
  · exact ushiftRight_eq_ofNat x k
  · exact sshiftRight_eq_ofInt x k
  · exact rotl64_eq x hlt
  · exact rotr64_eq x hlt

/-! ### Comparisons and extremes -/

theorem boolWord_decide (c : Prop) [Decidable c] : boolWord (decide c) = if c then 1 else 0 := by simp [boolWord]

theorem comparisonsAndExtremes : Machine.ComparisonsAndExtremes := by
  intro s b r h d p q x y
  refine ⟨writesS_of_alu2 h (fun _ => exec_slt ..) rfl, writesS_of_alu2 h (fun _ => exec_sltu ..) rfl,
    writesS_of_alu2 h (fun _ => exec_seq ..) ?_, writesS_of_alu2 h (fun _ => exec_sne ..) ?_,
    writesS_of_alu2 h (fun _ => exec_min ..) ?_, writesS_of_alu2 h (fun _ => exec_max ..) ?_,
    writesS_of_alu2 h (fun _ => exec_minu ..) ?_, writesS_of_alu2 h (fun _ => exec_maxu ..) ?_⟩
  · exact boolWord_decide _
  · simp [boolWord, x, y, bne]
  · simp [BitVec.sle, x, y]
  · simp [BitVec.sle, x, y]
  · simp [BitVec.ule, x, y]
  · simp [BitVec.ule, x, y]

end Sys2Proof.Machine

/-- Settles O1: each word's function is the value of its table. -/
theorem scalarPairs : Obligations.ScalarPairs := ⟨arithmeticAndLogic, shiftsAndRotations, comparisonsAndExtremes⟩

end

/-! ## Multiplication and division (06_core_scalar R114, R115) -/

section

open Sys2Proof Sys2Proof.Machine

namespace Sys2Proof.Machine

/-! ### Products -/

/-- Bits 127:64 of an exact product, whatever the signs of its operands. -/
theorem high64_eq (p : Int) : high64 p = (BitVec.ofInt 128 p).extractLsb' 64 64 := by
  apply BitVec.eq_of_toNat_eq
  rw [high64, BitVec.toNat_ofInt, BitVec.extractLsb'_toNat, BitVec.toNat_ofInt, Nat.shiftRight_eq_div_pow]
  omega

theorem signExtend_mul (x y : Word) : x.signExtend 128 * y.signExtend 128 = BitVec.ofInt 128 (x.toInt * y.toInt) := by
  rw [BitVec.ofInt_mul]
  rfl

theorem setWidth_toNat_ofInt (x : Word) : x.setWidth 128 = BitVec.ofInt 128 x.toNat := by
  rw [BitVec.ofInt_natCast, BitVec.ofNat_toNat]

theorem low64_mul (x y : Word) : (x.setWidth 128 * y.setWidth 128).extractLsb' 0 64 = x * y := by
  apply BitVec.eq_of_toNat_eq
  rw [BitVec.extractLsb'_toNat, BitVec.toNat_mul, BitVec.toNat_mul, Nat.shiftRight_zero, Nat.mod_mod_of_dvd _ (by decide),
    BitVec.toNat_setWidth_of_le (by decide), BitVec.toNat_setWidth_of_le (by decide)]

theorem multiplication : Machine.Multiplication := by
  intro s b r h d p q x y sx sy ux uy
  refine ⟨writesS_of_alu2 h (fun _ => exec_mul ..) (low64_mul x y).symm, writesS_of_alu2 h (fun _ => exec_mulh ..) ?_,
    writesS_of_alu2 h (fun _ => exec_mulhu ..) ?_, writesS_of_alu2 h (fun _ => exec_mulhsu ..) ?_⟩ <;> rw [high64_eq]
  · rw [← signExtend_mul]
  · rw [BitVec.ofInt_mul, ← setWidth_toNat_ofInt, ← setWidth_toNat_ofInt]
  · rw [BitVec.ofInt_mul, ← setWidth_toNat_ofInt]
    rfl

/-! ### Quotients and remainders -/

theorem divS_eq (x y : Word) : divS x y = if y = 0 then BitVec.allOnes 64 else x.sdiv y := by
  have h : BitVec.ofInt 64 (x.toInt.tdiv y.toInt) = x.sdiv y := BitVec.eq_of_toInt_eq (by rw [BitVec.toInt_ofInt, BitVec.toInt_sdiv])
  rw [divS, h]

theorem divU_eq (x y : Word) : divU x y = if y = 0 then BitVec.allOnes 64 else x / y := by
  rw [divU, ← BitVec.toNat_udiv, BitVec.ofNat_toNat, BitVec.setWidth_eq]

theorem remS_eq (x y : Word) : remS x y = if y = 0 then x else x.srem y := by
  rw [remS, ← Int.tmod_def, ← BitVec.toInt_srem, BitVec.ofInt_toInt]

theorem remU_eq (x y : Word) : remU x y = if y = 0 then x else x % y := by
  rw [remU, ← BitVec.toNat_umod, BitVec.ofNat_toNat, BitVec.setWidth_eq]

theorem division : Machine.Division := fun _ _ _ h _ _ _ =>
  ⟨writesS_of_alu2 h (fun _ => exec_div ..) (divS_eq ..), writesS_of_alu2 h (fun _ => exec_divu ..) (divU_eq ..),
    writesS_of_alu2 h (fun _ => exec_rem ..) (remS_eq ..), writesS_of_alu2 h (fun _ => exec_remu ..) (remU_eq ..)⟩

end Sys2Proof.Machine

/-- Settles O2: each word delivers its part of the exact product or division. -/
theorem multiplyAndDivide : Obligations.MultiplyAndDivide := ⟨multiplication, division⟩

end

/-! ## The single-source bit instructions (06_core_scalar R116) -/

section

open Sys2Proof Sys2Proof.Machine

namespace Sys2Proof.Machine

/-! ### The one bits of a number -/

/-- The positions of the one bits of a `w`-bit number, the lowest first. -/
def onesOf (w n : Nat) : List Nat := (List.range w).filter (fun i => n.testBit i)

theorem onesOf_succ (w n : Nat) : onesOf (w + 1) n = (if n % 2 = 1 then [0] else []) ++ (onesOf w (n / 2)).map (· + 1) := by
  have htail : ((List.range w).map Nat.succ).filter (fun i => n.testBit i) = (onesOf w (n / 2)).map (· + 1) := by
    rw [List.filter_map]
    simp only [onesOf, Function.comp_def, Nat.succ_eq_add_one, Nat.testBit_succ]
  rw [onesOf, List.range_succ_eq_map, List.filter_cons, htail, Nat.testBit_zero]
  by_cases hodd : n % 2 = 1 <;> simp [hodd]

theorem onesOf_succ_top (w n : Nat) : onesOf (w + 1) n = onesOf w n ++ if n / 2 ^ w % 2 = 1 then [w] else [] := by
  have htop : n.testBit w = decide (n / 2 ^ w % 2 = 1) := Nat.testBit_eq_decide_div_mod_eq
  rw [onesOf, List.range_succ, List.filter_append, ← onesOf, List.filter_singleton, htop]
  simp

theorem popN_eq (w n : Nat) : popN w n = (onesOf w n).length := by
  induction w generalizing n with
  | zero => rfl
  | succ w ih =>
    rw [popN, ih, onesOf_succ, List.length_append, List.length_map]
    split
    case isTrue h => rw [h]; rfl
    case isFalse h => rw [Nat.mod_two_ne_one.1 h]; rfl

theorem ctzN_eq (w n : Nat) : ctzN w n = (onesOf w n).head?.getD w := by
  induction w generalizing n with
  | zero => rfl
  | succ w ih =>
    rw [ctzN, ih, onesOf_succ]
    split
    case isTrue h => rfl
    case isFalse h => cases onesOf w (n / 2) <;> simp [Nat.add_comm]

theorem clzN_eq (w n : Nat) : (clzN w n : Int) = w - 1 - ((onesOf w n).getLast?.map Int.ofNat).getD (-1) := by
  induction w with
  | zero => rfl
  | succ w ih =>
    rw [clzN, onesOf_succ_top]
    split
    case isTrue h => simp
    case isFalse h => rw [List.append_nil]; push_cast; omega

theorem clzN_word (n : Nat) : clzN 64 n = (63 - ((onesOf 64 n).getLast?.map (fun i => (i : Int))).getD (-1)).toNat := by
  have hcast : (onesOf 64 n).getLast?.map (fun i => (i : Int)) = (onesOf 64 n).getLast?.map Int.ofNat := by
    cases (onesOf 64 n).getLast? <;> rfl
  have hlast := clzN_eq 64 n
  rw [hcast]
  omega

theorem onesOf_eq_nil_iff (w n : Nat) : onesOf w n = [] ↔ n % 2 ^ w = 0 := by
  induction w generalizing n with
  | zero => simp [onesOf, Nat.mod_one]
  | succ w ih =>
    have hmod : n % 2 ^ (w + 1) = n % 2 + 2 * (n / 2 % 2 ^ w) := by rw [Nat.pow_succ', Nat.mod_mul]
    rw [onesOf_succ, List.append_eq_nil_iff, List.map_eq_nil_iff, ih, hmod]
    split
    case isTrue h => simp [h]
    case isFalse h => simp [Nat.mod_two_ne_one.1 h]

theorem ffsN_eq (w n : Nat) : ffsN w n = ((onesOf w n).head?.map (· + 1)).getD 0 := by
  rw [ffsN, ctzN_eq]
  split
  case isTrue h => rw [(onesOf_eq_nil_iff w n).2 h]; rfl
  case isFalse h =>
    obtain ⟨i, l, hl⟩ := List.exists_cons_of_ne_nil (mt (onesOf_eq_nil_iff w n).1 h)
    rw [hl]
    rfl

/-! ### Bits and bytes in reverse order -/

theorem revN_lt (w n : Nat) : revN w n < 2 ^ w := by
  induction w generalizing n with
  | zero => exact Nat.one_pos
  | succ w ih =>
    have hrest := ih (n / 2)
    have hlow : n % 2 * 2 ^ w ≤ 1 * 2 ^ w := Nat.mul_le_mul_right _ (Nat.le_of_lt_succ (Nat.mod_lt n two_pos))
    rw [revN, Nat.pow_succ]
    omega

theorem testBit_revN (w n i : Nat) (h : i < w) : (revN w n).testBit i = n.testBit (w - 1 - i) := by
  induction w generalizing n with
  | zero => omega
  | succ w ih =>
    rw [revN, Nat.mul_comm, Nat.testBit_two_pow_mul_add _ (revN_lt w _)]
    split
    case isTrue hlt =>
      have hup : w + 1 - 1 - i = (w - 1 - i) + 1 := by omega
      rw [ih (n / 2) hlt, hup, Nat.testBit_succ]
    case isFalse hge =>
      have hi : i = w := by omega
      simp [hi]

theorem ofNat_revN (x : Word) : BitVec.ofNat 64 (revN 64 x.toNat) = x.reverse := by
  apply BitVec.eq_of_getLsbD_eq
  intro i hi
  rw [BitVec.getLsbD_ofNat, testBit_revN 64 _ i hi, BitVec.getLsbD_reverse, BitVec.getMsbD]
  simp [hi, BitVec.testBit_toNat]

theorem leNum_lt (l : List Byte) : leNum l < 256 ^ l.length := by
  induction l with
  | nil => exact Nat.one_pos
  | cons a l ih =>
    have ha := a.isLt
    rw [leNum, List.length_cons, Nat.pow_succ]
    omega

theorem leNum_byte (l : List Byte) (i : Nat) : leNum l / 256 ^ i % 256 = (l.getD i 0).toNat := by
  induction l generalizing i with
  | nil => simp [leNum]
  | cons a l ih =>
    have ha := a.isLt
    cases i with
    | zero => simp only [leNum, Nat.pow_zero, Nat.div_one, List.getD_cons_zero]; omega
    | succ i =>
      have hdrop : (a.toNat + 256 * leNum l) / 256 = leNum l := by omega
      rw [leNum, Nat.pow_succ', ← Nat.div_div_eq_div_mul, hdrop, ih, List.getD_cons_succ]

theorem getElem?_leBytes (n v i : Nat) (h : i < n) : (leBytes n v)[i]? = some (BitVec.ofNat 8 (v / 256 ^ i)) := by
  induction n generalizing v i with
  | zero => omega
  | succ n ih =>
    cases i with
    | zero => simp [leBytes]
    | succ i => rw [leBytes, List.getElem?_cons_succ, ih _ _ (by omega), Nat.div_div_eq_div_mul, ← Nat.pow_succ']

/-- Byte `i` of a word, as a number. -/
theorem extractLsb'_byte (x : Word) (i : Nat) : (x.extractLsb' (8 * i) 8).toNat = x.toNat / 256 ^ i % 256 := by
  rw [BitVec.extractLsb'_toNat, Nat.shiftRight_eq_div_pow, Nat.pow_mul]

theorem swapBytes_byte (x : Word) {i : Nat} (hi : i < 8) :
    (swapBytes x).extractLsb' (8 * i) 8 = x.extractLsb' (8 * (7 - i)) 8 := by
  have hbyte : (leBytes 8 x.toNat).reverse.getD i 0 = BitVec.ofNat 8 (x.toNat / 256 ^ (7 - i)) := by
    have hlen := leBytes_length 8 x.toNat
    rw [List.getD_eq_getElem?_getD, List.getElem?_reverse (by omega), hlen, getElem?_leBytes _ _ _ (by omega)]
    rfl
  have hnum : (swapBytes x).toNat = leNum (leBytes 8 x.toNat).reverse := by
    rw [swapBytes, BitVec.toNat_ofNat, Nat.mod_eq_of_lt]
    exact (leNum_lt _).trans_eq (by simp [leBytes_length])
  apply BitVec.eq_of_toNat_eq
  rw [extractLsb'_byte, extractLsb'_byte, hnum, leNum_byte, hbyte, BitVec.toNat_ofNat]

/-! ### Extensions -/

/-- `sextW` is the library's sign extension of the low bits. -/
theorem sextW_eq {w : Nat} (hw : 0 < w) (n : Nat) : sextW w n = (BitVec.ofNat w n).signExtend 64 := by
  have hpow : 2 ^ w = 2 * 2 ^ (w - 1) := by rw [← Nat.pow_succ', Nat.succ_eq_add_one, Nat.sub_add_cancel hw]
  have hsign : 2 ^ (w - 1) ≤ n % 2 ^ w ↔ ¬ 2 * (n % 2 ^ w) < 2 ^ w := by omega
  rw [sextW, sextW.sintW, BitVec.signExtend, BitVec.toInt_eq_toNat_cond, BitVec.toNat_ofNat, if_congr hsign rfl rfl, ite_not]
  push_cast
  rfl

theorem sextW_toNat {w : Nat} (hw : 0 < w) (x : Word) : sextW w x.toNat = (x.setWidth w).signExtend 64 := by
  rw [sextW_eq hw, BitVec.ofNat_toNat]

theorem and_mask {k : Nat} (hk : k ≤ 64) {m : Word} (hm : m.toNat = 2 ^ k - 1) (x : Word) :
    x &&& m = (x.setWidth k).setWidth 64 := by
  apply BitVec.eq_of_toNat_eq
  rw [BitVec.toNat_and, hm, Nat.and_two_pow_sub_one_eq_mod, BitVec.toNat_setWidth_of_le hk, BitVec.toNat_setWidth]

end Sys2Proof.Machine

/-- Settles O3: the positions of the one bits give the counts, and the reversed words are equal bit by bit or byte by byte. -/
theorem singleSourceBits : Obligations.SingleSourceBits := by
  intro s b r h d p x ones
  have hones : ones = onesOf 64 x.toNat := rfl
  refine ⟨writesS_of_alu1 h (fun _ => exec_clz ..) ?_, writesS_of_alu1 h (fun _ => exec_ctz ..) ?_,
    writesS_of_alu1 h (fun _ => exec_popc ..) ?_, writesS_of_alu1 h (fun _ => exec_ffs ..) ?_,
    writesS_of_alu1 h (fun _ => exec_brev ..) (ofNat_revN x),
    ⟨_, writesS_of_alu1 h (fun _ => exec_bswap ..) rfl, fun i hi => swapBytes_byte x hi⟩,
    writesS_of_alu1 h (fun _ => exec_sxb ..) (sextW_toNat (by decide) x),
    writesS_of_alu1 h (fun _ => exec_sxh ..) (sextW_toNat (by decide) x),
    writesS_of_alu1 h (fun _ => exec_sxw ..) (sextW_toNat (by decide) x),
    writesS_of_alu1 h (fun _ => exec_zxb ..) (and_mask (by decide) rfl x),
    writesS_of_alu1 h (fun _ => exec_zxh ..) (and_mask (by decide) rfl x),
    writesS_of_alu1 h (fun _ => exec_zxw ..) (and_mask (by decide) rfl x)⟩
  · rw [hones, clzN_word]
  · rw [hones, ctzN_eq]
  · rw [hones, popN_eq]
  · rw [hones, ffsN_eq]

end

/-! ## The scalar words with an immediate (06_core_scalar R117 to R119, 04_encoding R73, R79) -/

section

open Sys2Proof Sys2Proof.Machine

namespace Sys2Proof.Machine

/-! ### Immediates -/

/-- The 40 bits that an I word has with the 25 bits of the word before it (04_encoding R79). -/
theorem ofNat_prefixed (p : Nat) {i : Nat} (hi : i < 32768) :
    BitVec.ofNat 40 (p * 32768 + i) = BitVec.ofNat 25 p ++ BitVec.ofNat 15 i := by
  apply BitVec.eq_of_toNat_eq
  have hlow : i < 2 ^ 15 := hi
  rw [BitVec.toNat_append, BitVec.toNat_ofNat, BitVec.toNat_ofNat, BitVec.toNat_ofNat, Nat.mod_eq_of_lt hlow,
    ← Nat.shiftLeft_add_eq_or_of_lt hlow, Nat.shiftLeft_eq]
  omega

theorem imm_eq (s : State) (b : Barge) (r : Run) {i : Nat} (hi : i < 32768) : (ctxOf s b r).imm i = Machine.immOf r i := by
  have hr : (ctxOf s b r).r = r := rfl
  unfold WCtx.imm Machine.immOf
  rw [hr]
  cases r.pfx with
  | none => simp only [sextW_eq (show 0 < 15 by decide)]
  | some p => simp only [sextW_eq (show 0 < 40 by decide), ofNat_prefixed p.1 hi]

theorem arithmeticImmediates : Machine.ArithmeticImmediates := by
  intro s b r h d p i hi x m
  have hm : (ctxOf s b r).imm i = m := imm_eq s b r hi
  refine ⟨writesS_of_aluI h (fun _ => exec_addi ..) ?_, writesS_of_aluI h (fun _ => exec_andi ..) ?_,
    writesS_of_aluI h (fun _ => exec_ori ..) ?_, writesS_of_aluI h (fun _ => exec_xori ..) ?_,
    writesS_of_aluI h (fun _ => exec_slti ..) ?_, writesS_of_aluI h (fun _ => exec_sltiu ..) ?_⟩ <;> rw [hm] <;> rfl

theorem mul_two_pow_eq_shiftLeft (x : Word) (k : Nat) : x * BitVec.ofNat 64 (2 ^ k) = x <<< k := by
  apply BitVec.eq_of_toNat_eq
  rw [BitVec.toNat_mul, BitVec.toNat_ofNat, Nat.mul_mod_mod, BitVec.toNat_shiftLeft, Nat.shiftLeft_eq]

theorem upper_eq (i : Nat) : sextW 20 i * 4096 = (BitVec.ofNat 20 i).signExtend 64 <<< 12 := by
  rw [sextW_eq (by decide)]
  exact mul_two_pow_eq_shiftLeft _ 12

theorem shiftsByConstantAndUpperImmediates : Machine.ShiftsByConstantAndUpperImmediates := by
  intro s b r h d p k i hk x v
  refine ⟨writesS_of_alu1 h (fun _ => exec_slli ..) (shiftLeft_eq_ofNat x k),
    writesS_of_alu1 h (fun _ => exec_srli ..) (ushiftRight_eq_ofNat x k),
    writesS_of_alu1 h (fun _ => exec_srai ..) (sshiftRight_eq_ofInt x k),
    writesS_of_alu1 h (fun _ => exec_rori ..) (rotr64_eq x hk),
    writesS_of_issue h (fun _ => exec_lui ..) (upper_eq i), writesS_of_issue h (fun _ => exec_addpc ..) ?_⟩
  exact congrArg (BitVec.ofNat 64 r.here.pc + ·) (upper_eq i)

end Sys2Proof.Machine

/-- Settles O4: an immediate is the sign extension of its 15 or 40 bits, and a shift the multiple or quotient by a power of two. -/
theorem immediates : Obligations.Immediates := ⟨arithmeticImmediates, shiftsByConstantAndUpperImmediates⟩

end

/-! ## Control transfers (06_core_scalar R120 to R123) -/

section

open Sys2Proof Sys2Proof.Machine

namespace Sys2Proof.Machine

/-! ### Transfers -/

section
variable {i : Instr} {s : State} {b : Barge} {r : Run} {l : List Item} {t : Word} {b' : Barge}

theorem transfer_good (ht : Machine.goodTarget t) : transfer l t = .fin l (.next t.toNat) := if_pos ht
theorem transfer_bad (ht : ¬ Machine.goodTarget t) : transfer l t = .exc ⟨2, 0, t⟩ := if_neg ht

theorem endsAt_of_transfer (h : Issuing s b r) {f : WCtx → WOut} (he : exec i s = issue s true f)
    (hf : f (ctxOf s b r) = transfer l t) (ht : Machine.goodTarget t)
    (hp : (s.issued b).putItems s.cur l = (s.issued b).setB s.cur b') (hfr : b'.frame = b.frame) (hfl : b'.rfpfl = b.rfpfl) :
    EndsAt i s b r l b' t.toNat :=
  endsAt_of h (by rw [he, issue_of h, hf, transfer_good ht]) hp hfr hfl

theorem traps_of_transfer (h : Issuing s b r) {f : WCtx → WOut} (he : exec i s = issue s true f)
    (hf : f (ctxOf s b r) = transfer l t) (ht : ¬ Machine.goodTarget t) : Traps i s r 2 0 t :=
  traps_of h (by rw [he, issue_of h, hf, transfer_bad ht])

/-- A jump that leaves the address behind itself in register `d`. -/
theorem endsAt_of_linkedTransfer (h : Issuing s b r) {d : Nat} {v : Word} {f : WCtx → WOut} (he : exec i s = issue s true f)
    (hf : f (ctxOf s b r) = transfer [.sreg d v] t) (ht : Machine.goodTarget t) : EndsAt i s b r [.sreg d v] (b.withS d v) t.toNat :=
  endsAt_of_transfer h he hf ht (putItems_sreg h.issued.1 d v) (b.withS_frame d v) (b.withS_rfpfl d v)

end

/-- Where a relative transfer of `w` bits goes. -/
theorem relative_eq {w : Nat} (hw : 0 < w) (pc : Word) (x : Nat) :
    pc + sextW w x * 4 = pc + (BitVec.ofNat w x).signExtend 64 <<< 2 := by
  rw [sextW_eq hw]
  exact congrArg (pc + ·) (mul_two_pow_eq_shiftLeft _ 2)

/-- What a conditional branch leaves, by its condition and its target. -/
theorem branch_outcomes {i : Instr} {s : State} {b : Barge} {r : Run} (h : Issuing s b r) {a x : Nat} {taken : Word → Bool} {c : Bool}
    (he : exec i s = branch s a x taken) (hc : taken ((ctxOf s b r).x a) = c) :
    let t := BitVec.ofNat 64 r.here.pc + (BitVec.ofNat 17 x).signExtend 64 <<< 2
    (c = false → EndsAt i s b r [] b (r.here.pc + 4)) ∧ (c = true → Machine.goodTarget t → EndsAt i s b r [] b t.toNat) ∧
      (c = true → ¬ Machine.goodTarget t → Traps i s r 2 0 t) := by
  intro t
  subst hc
  have hnone := putItems_nil h.issued.1
  have ht : BitVec.ofNat 64 (ctxOf s b r).pc + sextW 17 x * 4 = t := relative_eq (by decide) _ x
  refine ⟨fun hn => endsAt_of h ?_ hnone rfl rfl, fun hy hg => endsAt_of_transfer h he ?_ hg hnone rfl rfl,
    fun hy hg => traps_of_transfer (l := []) h he ?_ hg⟩
  · rw [he, branch, issue_of h, hn]; rfl
  · rw [hy, ht]; rfl
  · rw [hy, ht]; rfl

theorem toNat_odd (v : Word) : (v.toNat % 2 == 1) = v.getLsbD 0 := by
  rw [← BitVec.testBit_toNat, Nat.testBit_zero]
  rfl

theorem conditionalBranches : Machine.ConditionalBranches := by
  intro s b r h a x v t
  simp only [List.forall_mem_cons, List.not_mem_nil, false_imp_iff, implies_true, and_true]
  refine ⟨branch_outcomes h (exec_beqz s) rfl, branch_outcomes h (exec_bnez s) ?_, branch_outcomes h (exec_bltz s) rfl,
    branch_outcomes h (exec_bgez s) rfl, branch_outcomes h (exec_bgtz s) rfl, branch_outcomes h (exec_blez s) rfl,
    branch_outcomes h (exec_bodd s) (toNat_odd v)⟩
  exact (decide_not (p := v = 0)).symm

theorem jumps : Machine.Jumps := by
  intro s b r h d a i x hi link t u
  have ht : BitVec.ofNat 64 (ctxOf s b r).pc + sextW 25 x * 4 = t := relative_eq (by decide) _ x
  have hu : (ctxOf s b r).x a + (ctxOf s b r).imm i = u := congrArg ((ctxOf s b r).x a + ·) (imm_eq s b r hi)
  have hj := congrArg (transfer []) ht
  have hjl := congrArg (transfer [.sreg 31 link]) ht
  have hjlr := congrArg (transfer [.sreg d link]) hu
  exact ⟨fun hg => ⟨endsAt_of_transfer h (exec_j s) hj hg (putItems_nil h.issued.1) rfl rfl,
      endsAt_of_linkedTransfer h (exec_jl s) hjl hg⟩,
    fun hg => ⟨traps_of_transfer h (exec_j s) hj hg, traps_of_transfer h (exec_jl s) hjl hg⟩,
    endsAt_of_linkedTransfer h (exec_jlr s) hjlr, traps_of_transfer h (exec_jlr s) hjlr⟩

end Sys2Proof.Machine

/-- Settles O5: every transfer is to its target, or to the word behind it, or meets the fault. -/
theorem branchesAndJumps : Obligations.BranchesAndJumps := ⟨conditionalBranches, jumps⟩

end

/-! ## `YIELD`, `END`, and the slot that a `YIELD` leaves kept (06_core_scalar R126, 20_wharf R328, R336) -/

section

open Sys2Proof Sys2Proof.Machine

namespace Sys2Proof.Machine

/-! ### An entry of a table that is replaced in place -/

section
variable {α : Type} {t : Tab α} {k : Nat} {v : α}

theorem tset_of_tget (h : tget t k = some v) : ∃ l r, t = l ++ (k, v) :: r ∧ ∀ w, tset t k w = l ++ (k, w) :: r := by
  induction t with
  | nil => simp [tget] at h
  | cons e t ih =>
    obtain ⟨j, x⟩ := e
    by_cases hk : k = j
    · subst hk
      have hx : x = v := by simpa [tget] using h
      exact ⟨[], t, by simp [hx], fun w => by simp [tset]⟩
    · by_cases hlt : k < j
      · simp [tget, hk, hlt] at h
      · obtain ⟨l, r, ht, hset⟩ := ih (by simpa [tget, hk, hlt] using h)
        exact ⟨(j, x) :: l, r, by simp [ht], fun w => by simp [tset, hk, hlt, hset]⟩

theorem mem_of_tget (h : tget t k = some v) : (k, v) ∈ t := by
  obtain ⟨l, r, ht, _⟩ := tset_of_tget h
  simp [ht]

theorem tget_of_mem {lo : Nat} (hs : tsorted t lo = true) (h : (k, v) ∈ t) : tget t k = some v := by
  induction t generalizing lo with
  | nil => simp at h
  | cons e t ih =>
    obtain ⟨j, x⟩ := e
    obtain ⟨_, hrest⟩ : lo ≤ j ∧ tsorted t (j + 1) = true := by simpa [tsorted] using hs
    obtain heq | hmem := List.mem_cons.1 h
    · obtain ⟨rfl, rfl⟩ := Prod.mk.inj heq
      simp [tget]
    · have hget := ih hrest hmem
      have hjk : ¬ k < j + 1 := fun hlt => by simp [tget_below hrest hlt] at hget
      have hne : ¬ k = j := by omega
      have hnlt : ¬ k < j := by omega
      simp [tget, hne, hnlt, hget]

theorem tget_eq_none (h : ∀ e ∈ t, e.1 ≠ k) : tget t k = none := by
  cases hget : tget t k with
  | none => rfl
  | some v => exact absurd rfl (h _ (mem_of_tget hget))

end

/-! ### What a barge that keeps its gang and its window leaves as it was -/

/-- `c` has the gang, the window and the late effects of `b`. -/
structure Barge.Alike (b c : Barge) : Prop where
  gang : c.gang = b.gang
  gmem : c.gmem = b.gmem
  spf : c.spf = b.spf
  late : c.late = b.late

section
variable {s : State} {k : Nat} {b c : Barge}

theorem State.gangOf_setB (h : s.barge? k = some b) (hg : c.gang = b.gang) (j : Nat) : (s.setB k c).gangOf j = s.gangOf j := by
  obtain ⟨l, r, ht, hset⟩ := tset_of_tget h
  have hgang (g : Nat) : ((s.setB k c).barges.filter (fun e => e.2.gang == g)).map (·.1) =
      (s.barges.filter (fun e => e.2.gang == g)).map (·.1) := by
    rw [State.setB_barges, hset, ht]
    by_cases hb : b.gang = g <;> simp [hg, hb]
  unfold State.gangOf
  simp only [hgang]
  by_cases hj : j = k
  · rw [hj, State.barge?_setB, h]; simp only [hg]
  · rw [State.barge?_setB_other s c hj]

theorem State.member_setB (h : s.barge? k = some b) (hg : c.gang = b.gang) (hm : c.gmem = b.gmem) (j m : Nat) :
    (s.setB k c).member j m = s.member j m := by
  obtain ⟨l, r, ht, hset⟩ := tset_of_tget h
  have hfind (g : Nat) : ((s.setB k c).barges.find? (fun e => e.2.gang == g && e.2.gmem == m)).map (·.1) =
      (s.barges.find? (fun e => e.2.gang == g && e.2.gmem == m)).map (·.1) := by
    rw [State.setB_barges, hset, ht, List.find?_append, List.find?_append, List.find?_cons, List.find?_cons]
    simp only [hg, hm]
    cases b.gang == g && b.gmem == m <;> cases l.find? (fun e => e.2.gang == g && e.2.gmem == m) <;> rfl
  unfold State.member
  simp only [hfind]
  by_cases hj : j = k
  · rw [hj, State.barge?_setB, h]; simp only [hg]
  · rw [State.barge?_setB_other s c hj]

theorem State.barge_setB_other (s : State) (c : Barge) {j : Nat} (hj : j ≠ k) : (s.setB k c).barge j = s.barge j := by
  simp [State.barge, tgetD, tget_tset_other _ _ hj]

theorem State.footprint_setB (h : s.barge? k = some b) (hf : c.spf = b.spf) (j : Nat) :
    ((s.setB k c).barge j).footprint = (s.barge j).footprint := by
  by_cases hj : j = k
  · rw [hj, State.barge_setB, State.barge_of h, Barge.footprint, Barge.footprint, hf]
  · rw [State.barge_setB_other s c hj]

theorem State.names_setB (h : s.barge? k = some b) (hc : b.Alike c) (x : Cmd) (j : Nat) : (s.setB k c).names x j = s.names x j := by
  have hspad (i : Nat) (ea : Word) (n : Nat) : (s.setB k c).spad i ea n = s.spad i ea n := by
    simp only [State.spad, State.member_setB h hc.gang hc.gmem, State.footprint_setB h hc.spf]
  have hbar : (s.setB k c).cmdBar x = s.cmdBar x := by simp only [State.cmdBar, hspad]
  simp only [State.names, State.member_setB h hc.gang hc.gmem, hbar]

theorem State.lateCmds_setB (h : s.barge? k = some b) (hl : c.late = b.late) : (s.setB k c).lateCmds = s.lateCmds := by
  obtain ⟨l, r, ht, hset⟩ := tset_of_tget h
  rw [State.lateCmds, State.lateCmds, State.setB_barges, hset, ht]
  simp [hl]

theorem State.inEngine_setB (h : s.barge? k = some b) (hc : b.Alike c) (j : Nat) : (s.setB k c).inEngine j = s.inEngine j := by
  simp only [State.inEngine, State.lateCmds_setB h hc.late, State.names_setB h hc, State.setB_slu, State.setB_arr]

end

/-! ### What the end of a barge leaves as it was on its way -/

/-- `t` has the barges of `s`, the commands in its engines, and the requests that wait. -/
structure EnginesKept (s t : State) : Prop where
  barges : t.barges = s.barges
  cmds : t.slu.cmds = s.slu.cmds
  arr : t.arr = s.arr
  leaseQ : t.mem.leaseQ = s.mem.leaseQ

theorem EnginesKept.refl (s : State) : EnginesKept s s := ⟨rfl, rfl, rfl, rfl⟩

theorem EnginesKept.trans {s t u : State} (h : EnginesKept s t) (h' : EnginesKept t u) : EnginesKept s u :=
  ⟨h'.barges.trans h.barges, h'.cmds.trans h.cmds, h'.arr.trans h.arr, h'.leaseQ.trans h.leaseQ⟩

theorem CachesOnly.enginesKept {s t : State} : CachesOnly s t → EnginesKept s t := by
  rintro ⟨_, _, _, rfl⟩
  exact ⟨rfl, rfl, rfl, rfl⟩

section
variable {s t : State}

theorem EnginesKept.barge? (h : EnginesKept s t) (k : Nat) : t.barge? k = s.barge? k := congrArg (tget · k) h.barges
theorem EnginesKept.barge (h : EnginesKept s t) (k : Nat) : t.barge k = s.barge k := congrArg (tgetD ({} : Barge) · k) h.barges

theorem EnginesKept.inEngine (h : EnginesKept s t) (k : Nat) : t.inEngine k = s.inEngine k := by
  have hmember (j m : Nat) : t.member j m = s.member j m := by simp only [State.member, h.barge?, h.barges]
  have hspad (i : Nat) (ea : Word) (n : Nat) : t.spad i ea n = s.spad i ea n := by simp only [State.spad, hmember, h.barge]
  have hnames (x : Cmd) : t.names x k = s.names x k := by simp only [State.names, State.cmdBar, hmember, hspad]
  simp only [State.inEngine, State.lateCmds, hnames, h.barges, h.cmds, h.arr]

theorem EnginesKept.issuedIn (h : EnginesKept s t) (k : Nat) : t.issuedIn k = s.issuedIn k := by
  simp only [State.issuedIn, h.cmds, h.arr]

end

theorem MemSt.setView_leaseQ (m : MemSt) (d : Nat) (v : Memory) : (m.setView d v).leaseQ = m.leaseQ := by
  unfold MemSt.setView; split <;> rfl

/-- Bytes that enter several views. -/
theorem MemSt.setViews_leaseQ (m : MemSt) (l : List Nat) (pa : Nat) (bs : List Byte) :
    (l.foldl (fun m d => m.setView d (writeTab (m.view d) pa bs)) m).leaseQ = m.leaseQ :=
  foldl_keeps (P := fun x : MemSt => x.leaseQ = m.leaseQ) (fun x d hx => (x.setView_leaseQ d _).trans hx) l rfl

theorem MemSt.enter_leaseQ (m : MemSt) (ds : List Nat) (w : Write) : (m.enter ds w).leaseQ = m.leaseQ := by
  simp only [MemSt.enter, MemSt.setWrite, MemSt.setViews_leaseQ]
  split <;> split <;> rfl

theorem MemSt.bring_leaseQ (m : MemSt) (ds : List Nat) (p : Write → Bool) : (m.bring ds p).leaseQ = m.leaseQ :=
  foldl_keeps (P := fun x : MemSt => x.leaseQ = m.leaseQ) (fun x w hx => (x.enter_leaseQ _ w).trans hx) _ rfl

theorem State.drainAll_enginesKept (s : State) : EnginesKept s s.drainAll := ⟨rfl, rfl, rfl, MemSt.bring_leaseQ _ _ _⟩

theorem MemSt.put_leaseQ (m : MemSt) (pa : Nat) (bs : List Byte) : (m.put pa bs).leaseQ = m.leaseQ :=
  (MemSt.setViews_leaseQ _ allDies pa bs).trans (MemSt.bring_leaseQ ..)

theorem State.writeMem_enginesKept (s : State) (vc pa : Nat) (bs : List Byte) : EnginesKept s (s.writeMem vc pa bs) := by
  unfold State.writeMem
  split
  · exact EnginesKept.refl s
  · exact (State.touchWrite_cachesOnly ..).enginesKept.trans ⟨rfl, rfl, rfl, MemSt.put_leaseQ ..⟩

/-- No barge holds a granule leased, and no request waits. -/
structure NoLeases (s : State) : Prop where
  leases : ∀ e ∈ s.barges, e.2.leases = []
  leaseQ : s.mem.leaseQ = []

theorem EnginesKept.noLeases {s t : State} (h : EnginesKept s t) (hs : NoLeases s) : NoLeases t :=
  ⟨by rw [h.barges]; exact hs.leases, h.leaseQ.trans hs.leaseQ⟩

theorem NoLeases.setB {s : State} (hs : NoLeases s) {k : Nat} {c : Barge} (hc : c.leases = []) : NoLeases (s.setB k c) := by
  refine ⟨fun e he => ?_, hs.leaseQ⟩
  obtain rfl | hmem := mem_tset he
  · exact hc
  · exact hs.leases e hmem

theorem NoLeases.granLeased {s : State} (hs : NoLeases s) (g : Nat) : s.granLeased g = false := by
  simp only [State.granLeased, List.any_eq_false]
  intro e he
  simp [hs.leases e he]

theorem NoLeases.ownWrite {s : State} (hs : NoLeases s) (k vc pa : Nat) (bs : List Byte) : EnginesKept s (s.ownWrite k vc pa bs) := by
  refine foldl_keeps (P := EnginesKept s) (fun t e ht => ?_) _ (EnginesKept.refl s)
  have htl := ht.noLeases hs
  have hserve (r : LeaseReq) : t.request r = t.serveReq r := by simp [State.request, htl.granLeased, htl.leaseQ]
  rw [hserve]
  exact ht.trans (State.writeMem_enginesKept ..)

theorem NoLeases.writeBack {s : State} (hs : NoLeases s) (k : Nat) (b : Barge) : EnginesKept s (s.writeBack k b) := by
  unfold State.writeBack
  split
  · exact hs.ownWrite ..
  · exact ⟨rfl, rfl, rfl, rfl⟩

/-! ### The end of a barge -/

/-- A barge as its end leaves it until its record is written (20_wharf R328). -/
def Barge.ending (b : Barge) (faulted : Bool) : Barge := { b.sealed with
  commit := none, st := .ended, faulted := faulted, run := none, frame := none, eff := [], used := [], leases := [], held := none,
  fpx := none, preempt := false, kept := false, unanswered := none, faultToken := 0, sreg := [], vreg := [], owes := true }

/-- The tokens and the places in channels of barge `k`, which was `b`, are gone, and its end is counted (R301, R364). -/
def State.forgotten (s : State) (k : Nat) (b : Barge) (faulted : Bool) : State :=
  let s := if b.faultToken = 0 then s else s.useToken b.faultToken
  let s : State := { s with map := { s.map with
    tokens := s.map.tokens.filter (fun e => e.2.barge != k)
    chans := s.map.chans.map (fun e => (e.1, { e.2 with
      waiters := e.2.waiters.erase k, heldFaults := e.2.heldFaults.filter (fun h => h.bid != k) })) } }
  let s := s.count (b.ending faulted).ctx 4 1
  match (b.ending faulted).packet with
  | some (qi, n) => if faulted then s.updPacket qi n (fun p => { p with faulted := true }) else s
  | none => s

theorem State.endBarge_of {s : State} {k : Nat} {b : Barge} (h : s.barge? k = some b) (faulted : Bool) :
    s.endBarge k faulted =
      let u := (((s.drainAll.setB k (b.ending faulted)).writeBack k (b.ending faulted)).forgotten k b faulted).leaveQueue k
      if u.endWaits k then u else u.ended k := by
  unfold State.endBarge
  rw [h]
  rfl

theorem State.forgotten_enginesKept (s : State) (k : Nat) (b : Barge) (faulted : Bool) : EnginesKept s (s.forgotten k b faulted) := by
  have htoken : EnginesKept s (if b.faultToken = 0 then s else s.useToken b.faultToken) := by
    split <;> exact ⟨rfl, rfl, rfl, rfl⟩
  unfold State.forgotten
  generalize (if b.faultToken = 0 then s else s.useToken b.faultToken) = u at htoken ⊢
  split
  · split <;> exact htoken.trans ⟨rfl, rfl, rfl, rfl⟩
  · exact htoken.trans ⟨rfl, rfl, rfl, rfl⟩

/-- The state in which the rest of a barge's end takes place: nothing of it waits where nobody holds a lease. -/
theorem State.endBarge_noLeases {s : State} {k : Nat} {b : Barge} (h : s.barge? k = some b) (hs : NoLeases s)
    (hl : (b.ending faulted).late = []) :
    ∃ u, EnginesKept (s.setB k (b.ending faulted)) u ∧ s.endBarge k faulted = u.ended k := by
  have hdrain : EnginesKept (s.setB k (b.ending faulted)) (s.drainAll.setB k (b.ending faulted)) :=
    ⟨rfl, rfl, rfl, s.drainAll_enginesKept.leaseQ⟩
  have hset : NoLeases (s.drainAll.setB k (b.ending faulted)) := (s.drainAll_enginesKept.noLeases hs).setB rfl
  have hu := (hset.writeBack k (b.ending faulted)).trans (State.forgotten_enginesKept _ k b faulted)
  have hq := (hu.noLeases hset).leaseQ
  refine ⟨_, hdrain.trans hu, ?_⟩
  rw [State.endBarge_of h, leaveQueue_none hq]
  refine if_neg ?_
  have hbarge := hu.barge k
  rw [State.barge_setB] at hbarge
  simp [State.endWaits, State.recordDue, State.coreWaits, hq, hbarge, hl]

/-- An ended barge that nothing keeps leaves no entry (05_core_state R102). -/
theorem State.reap_gone {s : State} {k : Nat} {b : Barge} (h : s.barge? k = some b) (hsort : tsorted s.barges 0 = true)
    (hend : b.st = .ended) (howes : b.owes = false) (hgang : b.gang = 0) (hin : s.inEngine k = false) (hiss : s.issuedIn k = false) :
    s.reap.barge? k = none := by
  refine tget_eq_none fun e he hk => ?_
  obtain ⟨x, hx, rfl⟩ := List.mem_map.1 he
  obtain ⟨hmem, hstays⟩ := List.mem_filter.1 hx
  have hkey : x.1 = k := by split at hk <;> exact hk
  obtain ⟨j, y⟩ := x
  subst hkey
  have hy : y = b := Option.some.inj ((tget_of_mem hsort hmem).symm.trans h)
  have hteam : s.gangOf j = [j] := by simp [State.gangOf, h, hgang]
  simp [hy, hend, howes, hteam, State.barge_of h, hin, hiss] at hstays

/-- A barge without successors is gone once its record has reached memory, where nothing else keeps it. -/
theorem State.ended_gone {s : State} {k : Nat} {b : Barge} (h : s.barge? k = some b) (hsort : tsorted s.barges 0 = true)
    (hend : b.st = .ended) (hsucc : b.succ = []) (hgang : b.gang = 0) (hin : s.inEngine k = false) (hiss : s.issuedIn k = false) :
    (s.ended k).barge? k = none := by
  have hd : s.drainAll.barge? k = some b := h
  have hu : s.drainAll.updB k (fun b => { b with owes := false }) = s.drainAll.setB k { b with owes := false } := State.updB_some hd _
  have hended : s.ended k = (s.drainAll.setB k { b with owes := false }).reap := by
    simp only [State.ended, hu, State.barge_setB, hsucc, List.foldl_nil, ite_self]
  have hkept := s.drainAll_enginesKept
  have halike : b.Alike { b with owes := false } := ⟨rfl, rfl, rfl, rfl⟩
  rw [hended]
  refine State.reap_gone (State.barge?_setB ..) (tsorted_tset _ hsort (Nat.zero_le k)) hend rfl hgang ?_ ?_
  · rw [State.inEngine_setB hd halike, hkept.inEngine, hin]
  · exact (hkept.issuedIn k).trans hiss

theorem State.endBarge_gone {s : State} {k : Nat} {b : Barge} (h : s.barge? k = some b) (hs : NoLeases s)
    (hsort : tsorted s.barges 0 = true) (hc : b.commit = none) (hl : b.late = []) (hgang : b.gang = 0) (hsucc : b.succ = [])
    (hin : s.inEngine k = false) (hiss : s.issuedIn k = false) (faulted : Bool) : (s.endBarge k faulted).barge? k = none := by
  have hsealed : b.sealed = b := by simp [Barge.sealed, hc]
  have halike : b.Alike (b.ending faulted) := by simp only [Barge.ending, hsealed]; exact ⟨rfl, rfl, rfl, rfl⟩
  have hsucc' : (b.ending faulted).succ = [] := by simp only [Barge.ending, hsealed, hsucc]
  obtain ⟨u, hu, heq⟩ := State.endBarge_noLeases h hs (halike.late.trans hl)
  rw [heq]
  refine State.ended_gone ((hu.barge? k).trans (State.barge?_setB ..)) ?_ rfl hsucc' (halike.gang.trans hgang) ?_ ?_
  · rw [hu.barges]; exact tsorted_tset _ hsort (Nat.zero_le k)
  · rw [hu.inEngine, State.inEngine_setB h halike, hin]
  · exact (hu.issuedIn k).trans hiss

/-! ### A commit of nothing, with no lease -/

/-- The barge after a commit of nothing that is complete. -/
def Barge.recorded (b : Barge) (n : Nat) : Barge := { Machine.committed b n with commit := none }

theorem Barge.alike_recorded (b : Barge) (n : Nat) : b.Alike (b.recorded n) := ⟨rfl, rfl, rfl, rfl⟩

theorem commits_noLease {s : State} {b : Barge} (hl : b.leases = []) (hq : s.mem.leaseQ = []) (n : Nat) (f : Follow) :
    Machine.commits b n f s = s.setB s.cur (b.recorded n) := by
  have hmem : s.setMem s.mem = s := rfl
  simp only [Machine.commits, hl, List.foldl_nil, hmem]
  rw [leaveQueue_none (s := s.setB _ _) hq, State.updB_setB]
  rfl

@[simp] theorem State.barge?_doneWaiting (s : State) (k j : Nat) : (s.doneWaiting k).barge? j = s.barge? j := by
  unfold State.doneWaiting
  split <;> simp

theorem State.issued_enginesKept (s : State) (b : Barge) : EnginesKept s (s.issued b) := ⟨rfl, rfl, rfl, rfl⟩

theorem endReleasesTheBarge : Machine.EndReleasesTheBarge := by
  intro s b r h he hq hgang hsucc hin hiss hsort hleases hlate
  have hb : (s.issued b).barge? s.cur = some b := h.1.1
  have hl : b.leases = [] := hleases _ (mem_of_tget h.1.1)
  have hs : NoLeases (s.issued b) := (s.issued_enginesKept b).noLeases ⟨hleases, hq⟩
  obtain ⟨_, _, _, _, hend⟩ := commitsOfNothing s b r h he hlate 0 0 0
  refine ⟨_, hend, ?_⟩
  rw [State.doing, State.barge?_doneWaiting, commits_noLease hl hs.leaseQ]
  refine State.endBarge_gone (b := b.recorded (r.here.pc + 4)) (State.barge?_setB ..) (hs.setB rfl)
    (tsorted_tset _ hsort (Nat.zero_le _)) rfl hlate hgang hsucc ?_ ?_ false
  · exact (State.inEngine_setB hb (b.alike_recorded _) _).trans (((s.issued_enginesKept b).inEngine _).trans hin)
  · exact hiss

/-! ### The slot that a `YIELD` leaves kept -/

theorem State.seat_kept_slot {s : State} {k : Nat} {b : Barge} (h : s.barge? k = some b) (hk : s.keeps k b = true) (core : Nat) :
    ((s.seat k core).barge k).slot = b.slot := by
  have hmem (m : MemSt) : (s.setMem m).keeps k b = true := hk
  simp only [State.seat, State.barge_of h]
  simp only [State.barge, State.setB, tgetD, tget_tset_same, Option.getD_some]
  refine if_pos ?_
  split
  · exact hmem _
  · exact hk

theorem State.allowed_kept {s : State} {k : Nat} {b : Barge} (hk : s.keeps k b = true) {core : Nat} (h : s.allowed k b core = true) :
    core = b.core := by
  simp only [State.allowed, hk, if_true, Bool.and_eq_true, beq_iff_eq] at h
  tauto

theorem State.kept_not_free {s : State} {k : Nat} {b : Barge} (h : s.barge? k = some b) (hk : s.keeps k b = true) :
    b.slot ∉ s.freeSlots b.core := by
  intro hfree
  have hmem : (k, b) ∈ s.occupants b.core := List.mem_filter.2 ⟨mem_of_tget h, by simp [hk]⟩
  have hnone := (List.mem_filter.1 hfree).2
  simp only [Bool.not_eq_true', List.any_eq_false] at hnone
  simpa using hnone _ hmem

theorem keptSlots : Machine.KeptSlots := fun _ _ _ h hk =>
  ⟨fun core hallowed => ⟨State.allowed_kept hk hallowed, State.seat_kept_slot h hk core⟩, State.kept_not_free h hk⟩

/-! ### `YIELD` -/

/-- Is another member of a barge's gang resident? -/
def State.mateResident (s : State) (k : Nat) : Bool := (s.gangOf k).any (fun m => m != k && (s.barge m).st == .resident)

theorem State.mateResident_iff (s : State) (k : Nat) :
    s.mateResident k = true ↔ ∃ m ∈ s.gangOf k, m ≠ k ∧ (s.barge m).st = .resident := by
  simp [State.mateResident]

/-- The barge that a `YIELD` makes READY, the `n`-th to become so. -/
def Barge.yielded (b : Barge) (n : Nat) (more : Bool) : Barge :=
  { b with st := .ready, readySeq := n, preempt := false, kept := more && !b.preempt }

theorem State.yieldBarge_of {s : State} {k : Nat} {b : Barge} (h : s.barge? k = some b) :
    s.yieldBarge k =
      { s.setB k (b.yielded s.whf.readySeq (s.mateResident k)) with whf := { s.whf with readySeq := s.whf.readySeq + 1 } } := by
  simp only [State.yieldBarge, State.makeReady, State.updB_some h]
  simp [State.updB, State.setB, Barge.yielded, State.mateResident]

theorem State.mateResident_setB {s : State} {k : Nat} {b c : Barge} (h : s.barge? k = some b) (hg : c.gang = b.gang) :
    (s.setB k c).mateResident k = s.mateResident k := by
  simp only [State.mateResident, State.gangOf_setB h hg]
  refine congrArg (fun p => (s.gangOf k).any p) (funext fun m => ?_)
  by_cases hm : m = k
  · simp [hm]
  · rw [State.barge_setB_other s c hm]

theorem State.follow_yield {s : State} {k : Nat} {b : Barge} (h : s.barge? k = some b) (fpx : Option Fpx) :
    s.follow k (.yield fpx) =
      { s.setB k ({ b with fpx := fpx }.yielded s.whf.readySeq (s.mateResident k)) with
        whf := { s.whf with readySeq := s.whf.readySeq + 1 } } := by
  rw [State.follow, State.updB_some h, State.yieldBarge_of (State.barge?_setB ..), State.setB_setB,
    State.mateResident_setB (c := { b with fpx := fpx }) h rfl]
  rfl

/-- The state that a `YIELD` leaves that commits nothing and whose barge holds no lease. -/
def State.yieldedTo (s : State) (b : Barge) (n : Nat) : State :=
  { (s.issued b).setB s.cur ({ b.recorded n with fpx := none }.yielded s.whf.readySeq (s.mateResident s.cur)) with
    whf := { s.whf with readySeq := s.whf.readySeq + 1 } }

theorem exec_yield_noLease {s : State} {b : Barge} {r : Run} (h : Alone s b r) (he : b.eff = []) (hlate : b.late = [])
    (hl : b.leases = []) (hq : s.mem.leaseQ = []) : exec .yield s = .next (s.yieldedTo b (r.here.pc + 4)) := by
  have hb : (s.issued b).barge? s.cur = some b := h.1.1
  have hcommit : Machine.commits b (r.here.pc + 4) (.yield none) (s.issued b) = (s.issued b).setB s.cur (b.recorded (r.here.pc + 4)) :=
    commits_noLease (s := s.issued b) hl hq _ _
  have hfollow : (Machine.commits b (r.here.pc + 4) (.yield none) (s.issued b)).follow s.cur (.yield none) =
      s.yieldedTo b (r.here.pc + 4) := by
    rw [hcommit, State.follow_yield (State.barge?_setB ..), State.setB_setB]
    simp only [State.mateResident_setB hb (b.alike_recorded _).gang]
    rfl
  rw [exec_yield, execYield, issue_of h.1, leave_commit_nothing h he hlate]
  exact congrArg Host.Outcome.next
    ((congrArg (State.doneWaiting · s.cur) hfollow).trans (State.doneWaiting_none (s := s.yieldedTo b _) hq s.cur))

theorem yield : Machine.Yield := by
  intro s b r h he hlate hl hq
  refine ⟨_, _, exec_yield_noLease h he hlate hl hq, State.barge?_setB (s.issued b) s.cur _, rfl, rfl, rfl, rfl, rfl, rfl, ?_,
    fun k hk => State.barge?_setB_other (s.issued b) _ hk, rfl, rfl⟩
  rw [Barge.yielded, Bool.and_eq_true, State.mateResident_iff, Bool.not_eq_true', and_comm]
  rfl

end Sys2Proof.Machine

/-- Settles O27: a `YIELD` leaves the barge READY with its slot kept or not, and an `END` that nothing holds up leaves no barge. -/
theorem yieldAndEnd : Obligations.YieldAndEnd := ⟨yield, endReleasesTheBarge, keptSlots⟩

end

/-! ## The elements of a vector register, and the words that write them (04_encoding R77, R78, 07_core_vector R129) -/

section

open Sys2Proof Sys2Proof.Machine

namespace Sys2Proof.Machine

/-! ### Elements -/

theorem elem_lt (v : VReg) (w k : Nat) : elem v w k < 2 ^ w := Nat.mod_lt _ (Nat.two_pow_pos w)

@[simp] theorem elem_mod (v : VReg) (w k : Nat) : elem v w k % 2 ^ w = elem v w k := Nat.mod_mod ..

@[simp] theorem toNat_ofNat_elem (v : VReg) (w k : Nat) : (BitVec.ofNat w (elem v w k)).toNat = elem v w k := by
  rw [BitVec.toNat_ofNat, elem_mod]

theorem elem_one (v : VReg) (k : Nat) : elem v 1 k = (v.getLsbD k).toNat := by
  rw [elem, bits, Nat.one_mul, Nat.pow_one, ← BitVec.testBit_toNat, Nat.toNat_testBit]

theorem elem_one_eq_one (v : VReg) (k : Nat) : elem v 1 k = 1 ↔ v.getLsbD k = true := by
  rw [elem_one]
  exact Bool.toNat_eq_one

theorem elem_one_beq_one (v : VReg) (k : Nat) : (elem v 1 k == 1) = v.getLsbD k := by
  rw [Bool.eq_iff_iff, beq_iff_eq, elem_one_eq_one]

theorem getLsbD_of_elem {v : VReg} {k : Nat} {c : Bool} (h : elem v 1 k = c.toNat) : v.getLsbD k = c := by
  rw [← elem_one_beq_one, h]
  cases c <;> rfl

theorem packElems_div (w : Nat) (l : List Nat) (k : Nat) : packElems w l / 2 ^ (w * k) % 2 ^ w = l.getD k 0 % 2 ^ w := by
  induction l generalizing k with
  | nil => simp [packElems]
  | cons x l ih =>
    have hpos : 0 < 2 ^ w := Nat.two_pow_pos w
    cases k with
    | zero => simp [packElems]
    | succ k =>
      have hrest : (x % 2 ^ w + 2 ^ w * packElems w l) / 2 ^ w = packElems w l := by
        rw [Nat.add_mul_div_left _ _ hpos, Nat.div_eq_of_lt (Nat.mod_lt _ hpos), Nat.zero_add]
      rw [packElems, Nat.mul_succ, Nat.add_comm (w * k), Nat.pow_add, ← Nat.div_div_eq_div_mul, hrest, ih, List.getD_cons_succ]

/-- A part of a register that lies within it is that part of the number it was made from. -/
theorem elem_ofNat {w k : Nat} (h : w * (k + 1) ≤ 1024) (x : Nat) : elem (BitVec.ofNat 1024 x) w k = x / 2 ^ (w * k) % 2 ^ w := by
  obtain ⟨e, he⟩ := Nat.exists_eq_add_of_le h
  rw [elem, bits, BitVec.toNat_ofNat, he, Nat.mul_succ, Nat.add_assoc, Nat.pow_add, Nat.mod_mul_right_div_self, Nat.pow_add,
    Nat.mod_mul_right_mod]

theorem elem_packElems {w k : Nat} (h : w * (k + 1) ≤ 1024) (l : List Nat) :
    elem (BitVec.ofNat 1024 (packElems w l)) w k = l.getD k 0 % 2 ^ w := by
  rw [elem_ofNat h, packElems_div]

/-- Element `k` of a register made of the first `n` values of a function. -/
theorem elem_packElems_range {w k : Nat} (h : w * (k + 1) ≤ 1024) (n : Nat) (g : Nat → Nat) :
    elem (BitVec.ofNat 1024 (packElems w ((List.range n).map g))) w k = if k < n then g k % 2 ^ w else 0 := by
  rw [elem_packElems h, List.getD_eq_getElem?_getD, List.getElem?_map]
  by_cases hk : k < n <;> simp [hk]

/-! ### Active and inactive elements -/

theorem inactive_mod (c : WCtx) (d w : Nat) (m : Mask) (k : Nat) :
    c.inactive d w m k % 2 ^ w = if m = .zero then 0 else elem (c.v d) w k := by
  cases m <;> simp [WCtx.inactive]

@[simp] theorem active_all (c : WCtx) (k : Nat) : c.active .all k = true := rfl

theorem foldl_or_init {α : Type} (l : List α) (f : α → Nat) (a : Nat) :
    l.foldl (fun a e => a ||| f e) a = a ||| l.foldl (fun a e => a ||| f e) 0 := by
  induction l generalizing a with
  | nil => exact (Nat.or_zero a).symm
  | cons e l ih => rw [List.foldl_cons, List.foldl_cons, ih, ih (0 ||| f e), Nat.zero_or, Nat.or_assoc]

/-- The flags of a list of elements, the inactive ones raising none, are those that the active ones raise. -/
theorem foldl_active (c : WCtx) (m : Mask) (n : Nat) (f h : Nat → Nat × Nat) (hh : ∀ k, (h k).2 = 0) :
    ((List.range n).map (fun k => if c.active m k then f k else h k)).foldl (fun a e => a ||| e.2) 0 =
      Machine.flagsOf c m n (fun k => (f k).2) := by
  rw [Machine.flagsOf, List.foldl_map, List.foldl_filter]
  refine congrArg (fun g => List.foldl g 0 (List.range n)) (funext fun a => funext fun k => ?_)
  by_cases ha : c.active m k = true <;> simp [ha, hh]

theorem flagsOf_congr {c : WCtx} {m : Mask} {n : Nat} {f g : Nat → Nat} (h : ∀ k < n, f k = g k) :
    Machine.flagsOf c m n f = Machine.flagsOf c m n g := by
  refine List.foldl_ext _ _ _ fun a k hk => ?_
  rw [h k (List.mem_range.1 (List.mem_of_mem_filter hk))]

/-! ### A word whose meaning is `vmapN` -/

section
variable {i : Bool → Instr} {s : State} {b : Barge} {r : Run} {d p q w n : Nat} {m : Mask} {t : ETy}

theorem writesV_of_issue (h : Issuing s b r) {F : WCtx → WOut} (he : ∀ st, exec (i st) s = issue s st F) {v : VReg} {fl : Nat}
    (hF : F (ctxOf s b r) = .items [.vreg d v] fl) : WritesV i s b r d v fl :=
  writesV_of h fun st => by rw [he, issue_of h, hF]

/-- An element-wise word, its results known up to their low `w` bits. -/
theorem elementwise_of_vmapN (h : Issuing s b r) {F : WCtx → WOut} (he : ∀ st, exec (i st) s = issue s st F)
    {f g : Nat → Nat × Nat} (hF : F (ctxOf s b r) = (ctxOf s b r).vmapN n d w m f)
    (hcode : ∀ k < n, (f k).1 % 2 ^ w = (g k).1 % 2 ^ w) (hfl : ∀ k < n, (f k).2 = (g k).2) :
    Machine.Elementwise i s b r d w n m g := by
  rw [WCtx.vmapN, foldl_active _ _ _ _ _ (fun _ => rfl), flagsOf_congr hfl] at hF
  refine ⟨_, writesV_of_issue h he hF, fun k hk => ?_⟩
  rw [List.map_map, elem_packElems_range hk]
  refine if_ctx_congr Iff.rfl (fun hkn => ?_) (fun _ => rfl)
  rw [Function.comp_apply, apply_ite Prod.fst, apply_ite (· % 2 ^ w), hcode k hkn, inactive_mod]

/-- An element-wise word that gives what its function gives. -/
theorem elementwise_of_issue (h : Issuing s b r) {F : WCtx → WOut} (he : ∀ st, exec (i st) s = issue s st F)
    {f : Nat → Nat × Nat} (hF : F (ctxOf s b r) = (ctxOf s b r).vmapN n d w m f) : Machine.Elementwise i s b r d w n m f :=
  elementwise_of_vmapN h he hF (fun _ _ => rfl) (fun _ _ => rfl)

/-- An element-wise word of two sources that raises nothing, its function on numbers being `f` on bit vectors. -/
theorem elementwise2_of_vec2 (h : Issuing s b r) {g : Nat → Nat → Nat}
    (he : ∀ st, exec (i st) s = vec2 s st d p q m t (fun x y => quietRes (g x y)))
    {f : BitVec t.width → BitVec t.width → BitVec t.width}
    (hf : ∀ x y : BitVec t.width, BitVec.ofNat t.width (g x.toNat y.toNat) = f x y) :
    Machine.Elementwise2 i s b r d p q m t f := by
  refine elementwise_of_vmapN h he rfl (fun k _ => ?_) (fun _ _ => rfl)
  rw [← hf, toNat_ofNat_elem, toNat_ofNat_elem, BitVec.toNat_ofNat, Nat.mod_mod]
  rfl

theorem elementwise2_of_vec1 (h : Issuing s b r) {g : Nat → Nat}
    (he : ∀ st, exec (i st) s = vec1 s st d p m t (fun x => quietRes (g x))) {f : BitVec t.width → BitVec t.width}
    (hf : ∀ x : BitVec t.width, BitVec.ofNat t.width (g x.toNat) = f x) :
    Machine.Elementwise2 i s b r d p p m t (fun x _ => f x) :=
  elementwise2_of_vec2 h (g := fun x _ => g x) he fun x _ => hf x

end

end Sys2Proof.Machine

end

/-! ## The integer forms of the two-source vector words (07_core_vector R131, R134, R135) -/

section

open Sys2Proof Sys2Proof.Machine

namespace Sys2Proof.Machine

/-! ### Integer elements as bit vectors -/

theorem width_pos (t : ETy) : 0 < t.width := by cases t <;> decide

section
variable {w : Nat}

theorem ofNat_toNat_self (x : BitVec w) : BitVec.ofNat w x.toNat = x := by simp

theorem sintOf_toNat (hw : 0 < w) (x : BitVec w) : sintOf w x.toNat = x.toInt := by
  have hpow : 2 ^ w = 2 * 2 ^ (w - 1) := by rw [← Nat.pow_succ', Nat.succ_eq_add_one, Nat.sub_add_cancel hw]
  have hsign : 2 ^ (w - 1) ≤ x.toNat % 2 ^ w ↔ ¬ 2 * x.toNat < 2 ^ w := by rw [Nat.mod_eq_of_lt x.isLt]; omega
  rw [sintOf, BitVec.toInt_eq_toNat_cond, if_congr hsign rfl rfl, ite_not, Nat.mod_eq_of_lt x.isLt]
  push_cast
  rfl

theorem ofNat_ofSint (w : Nat) (x : Int) : BitVec.ofNat w (ofSint w x) = BitVec.ofInt w x := by
  apply BitVec.eq_of_toNat_eq
  have hpos : (0 : Int) < 2 ^ w := by positivity
  have hlt : ofSint w x < 2 ^ w := by
    have := Int.emod_lt_of_pos x hpos
    rw [ofSint, Int.toNat_lt (Int.emod_nonneg x hpos.ne')]
    push_cast
    exact this
  rw [BitVec.toNat_ofNat, BitVec.toNat_ofInt, Nat.mod_eq_of_lt hlt, ofSint]
  push_cast
  rfl

theorem ofNat_sub (x y : BitVec w) : BitVec.ofNat w (x.toNat + 2 ^ w - y.toNat) = x - y := by
  apply BitVec.eq_of_toNat_eq
  have hy := y.isLt
  rw [BitVec.toNat_ofNat, BitVec.toNat_sub]
  congr 1
  omega

theorem minInt_toNat (hw : 0 < w) (x y : BitVec w) : minInt w x.toNat y.toNat = (if x.sle y then x else y).toNat := by
  rw [minInt, sintOf_toNat hw, sintOf_toNat hw, apply_ite BitVec.toNat, BitVec.sle_eq_decide]
  simp only [decide_eq_true_eq]

theorem maxInt_toNat (hw : 0 < w) (x y : BitVec w) : maxInt w x.toNat y.toNat = (if y.sle x then x else y).toNat := by
  rw [maxInt, sintOf_toNat hw, sintOf_toNat hw, apply_ite BitVec.toNat, BitVec.sle_eq_decide]
  simp only [decide_eq_true_eq]

theorem ofNat_shiftLeft (x : BitVec w) (k : Nat) : BitVec.ofNat w (x.toNat * 2 ^ k) = x <<< k := by
  apply BitVec.eq_of_toNat_eq
  rw [BitVec.toNat_shiftLeft, BitVec.toNat_ofNat, Nat.shiftLeft_eq]

theorem ofNat_ushiftRight (x : BitVec w) (k : Nat) : BitVec.ofNat w (x.toNat / 2 ^ k) = x >>> k := by
  rw [← Nat.shiftRight_eq_div_pow, ← BitVec.toNat_ushiftRight, ofNat_toNat_self]

theorem ofNat_sraInt (hw : 0 < w) (x : BitVec w) (k : Nat) : BitVec.ofNat w (sraInt w x.toNat k) = x.sshiftRight k := by
  rw [sraInt, ofNat_ofSint, sintOf_toNat hw, BitVec.sshiftRight, Int.shiftRight_eq_div_pow]
  rfl

/-- `sat` of R135, as `Obligations.VectorIntegerPairs` writes it. -/
theorem ofNat_satInt (w : Nat) (x : Int) :
    BitVec.ofNat w (satInt w x) = BitVec.ofInt w (max (-2 ^ (w - 1)) (min x (2 ^ (w - 1) - 1))) := ofNat_ofSint w _

end

/-! ### Words whose meaning depends on the class -/

theorem byClass_int {t : ETy} (ht : t.cls = .I) (F : Fmt → Nat → Nat → Res) (G : Nat → Nat → Nat → Nat) :
    byClass t F G = fun x y => quietRes (G t.width x y) := by
  funext x y
  rw [byClass, ht]
  rfl

theorem byClass_float {t : ETy} (ht : t.cls = .F) (F : Fmt → Nat → Nat → Res) (G : Nat → Nat → Nat → Nat) :
    byClass t F G = fun x y => (F (etyFmt t) x y).pair := by
  funext x y
  rw [byClass, if_pos ht]

/-- The class I form of a word of two sources. -/
theorem elementwise2_of_byClass {i : Bool → Instr} {s : State} {b : Barge} {r : Run} {d p q : Nat} {m : Mask} {t : ETy}
    (h : Issuing s b r) (ht : t.cls = .I) {F : Fmt → Nat → Nat → Res} {G : Nat → Nat → Nat → Nat}
    (he : ∀ st, exec (i st) s = vec2 s st d p q m t (fun x y => byClass t F G x y))
    {f : BitVec t.width → BitVec t.width → BitVec t.width}
    (hf : ∀ x y : BitVec t.width, BitVec.ofNat t.width (G t.width x.toNat y.toNat) = f x y) :
    Machine.Elementwise2 i s b r d p q m t f :=
  elementwise2_of_vec2 h (fun st => by rw [he, byClass_int ht]) hf

end Sys2Proof.Machine

/-- Settles O12: each word's function on the numbers of its elements is the table's on bit vectors. -/
theorem vectorIntegerPairs : Obligations.VectorIntegerPairs := by
  intro s b r h d p q m t w E sat
  have hw : 0 < w := width_pos t
  refine ⟨fun ht => ⟨elementwise2_of_byClass h ht (fun _ => exec_vadd ..) fun x y => ?vadd,
      elementwise2_of_byClass h ht (fun _ => exec_vsub ..) ofNat_sub,
      elementwise2_of_byClass h ht (fun _ => exec_vmul ..) fun x y => ?vmul,
      elementwise2_of_byClass h ht (fun _ => exec_vmin ..) fun x y => ?vmin,
      elementwise2_of_byClass h ht (fun _ => exec_vmax ..) fun x y => ?vmax,
      elementwise2_of_vec2 h (fun _ => exec_vsll ..) fun x y => ofNat_shiftLeft x _,
      elementwise2_of_vec2 h (fun _ => exec_vsrl ..) fun x y => ofNat_ushiftRight x _,
      elementwise2_of_vec2 h (fun _ => exec_vsra ..) fun x y => ofNat_sraInt hw x _,
      elementwise2_of_vec2 h (fun _ => exec_vadds ..) fun x y => ?vadds,
      elementwise2_of_vec2 h (fun _ => exec_vsubs ..) fun x y => ?vsubs,
      elementwise2_of_vec2 h (fun _ => exec_vmulh ..) fun x y => ?vmulh⟩,
    elementwise2_of_vec2 h (fun _ => exec_vand ..) fun x y => ?vand,
    elementwise2_of_vec2 h (fun _ => exec_vor ..) fun x y => ?vor,
    elementwise2_of_vec2 h (fun _ => exec_vxor ..) fun x y => ?vxor⟩
  case vadd => rw [BitVec.ofNat_add, ofNat_toNat_self, ofNat_toNat_self]
  case vmul => rw [BitVec.ofNat_mul, ofNat_toNat_self, ofNat_toNat_self]
  case vmin => rw [minInt_toNat hw, ofNat_toNat_self]
  case vmax => rw [maxInt_toNat hw, ofNat_toNat_self]
  case vadds => rw [ofNat_satInt, sintOf_toNat hw, sintOf_toNat hw]
  case vsubs => rw [ofNat_satInt, sintOf_toNat hw, sintOf_toNat hw]
  case vmulh => rw [ofNat_ofSint, sintOf_toNat hw, sintOf_toNat hw]
  case vand => rw [← BitVec.toNat_and, ofNat_toNat_self]
  case vor => rw [← BitVec.toNat_or, ofNat_toNat_self]
  case vxor => rw [← BitVec.toNat_xor, ofNat_toNat_self]

end

/-! ## The sign, copy and bit-count vector words (07_core_vector R133, R136) -/

section

open Sys2Proof Sys2Proof.Machine

namespace Sys2Proof.Machine

section
variable {w : Nat}

/-- The sign bit cleared (R133). -/
theorem ofNat_mod_signBit (hw : 0 < w) (x : BitVec w) :
    BitVec.ofNat w (x.toNat % 2 ^ (w - 1)) = x &&& ~~~(BitVec.twoPow w (w - 1)) := by
  apply BitVec.eq_of_getLsbD_eq
  intro k hk
  rw [BitVec.getLsbD_ofNat, Nat.testBit_mod_two_pow, BitVec.testBit_toNat, BitVec.getLsbD_and, BitVec.getLsbD_not,
    BitVec.getLsbD_twoPow]
  have htop : k < w - 1 ↔ ¬ w - 1 = k := by omega
  simp [hk, hw, htop, Bool.and_comm]

/-- The sign bit inverted (R133). -/
theorem ofNat_xor_signBit (hw : 0 < w) (x : BitVec w) :
    BitVec.ofNat w (x.toNat ^^^ 2 ^ (w - 1)) = x ^^^ BitVec.twoPow w (w - 1) := by
  rw [← BitVec.toNat_twoPow_of_lt (show w - 1 < w by omega), ← BitVec.toNat_xor, ofNat_toNat_self]

theorem ofNat_absInt (hw : 0 < w) (x : BitVec w) : BitVec.ofNat w (absInt w x.toNat) = if x.msb then -x else x := by
  rw [absInt, ofNat_ofSint, sintOf_toNat hw, BitVec.msb_eq_toInt]
  by_cases hneg : x.toInt < 0
  · have habs : (x.toInt.natAbs : Int) = -x.toInt := Int.ofNat_natAbs_of_nonpos hneg.le
    rw [habs, BitVec.ofInt_neg, BitVec.ofInt_toInt, if_pos (decide_eq_true hneg)]
  · have habs : (x.toInt.natAbs : Int) = x.toInt := Int.natAbs_of_nonneg (not_lt.1 hneg)
    rw [habs, BitVec.ofInt_toInt, if_neg (by simpa using hneg)]

theorem ofNat_neg (x : BitVec w) : BitVec.ofNat w (2 ^ w - x.toNat) = -x := by
  apply BitVec.eq_of_toNat_eq
  rw [BitVec.toNat_ofNat, BitVec.toNat_neg]

theorem clzN_eq_sub (w n : Nat) : clzN w n = w - ((onesOf w n).getLast?.map (· + 1)).getD 0 := by
  have h := clzN_eq w n
  cases hl : (onesOf w n).getLast? with
  | none =>
    rw [hl] at h
    simp only [Option.map_none, Option.getD_none] at h ⊢
    omega
  | some j =>
    rw [hl] at h
    simp only [Option.map_some, Option.getD_some, Int.ofNat_eq_natCast] at h ⊢
    omega

end

end Sys2Proof.Machine

/-- Settles O13: the sign is one bit or the integer's, and the counts are those of the positions of the one bits. -/
theorem vectorSingleSource : Obligations.VectorSingleSource := by
  intro s b r h d p m t w E ones
  have hw : 0 < w := width_pos t
  have hones (x : BitVec w) : ones x = onesOf w x.toNat := rfl
  refine ⟨elementwise2_of_vec1 h (fun _ => exec_vmv ..) ofNat_toNat_self,
    fun ht => ⟨elementwise2_of_vec1 h (fun _ => exec_vabs ..) fun x => ?fabs,
      elementwise2_of_vec1 h (fun _ => exec_vneg ..) fun x => ?fneg⟩,
    fun ht => ⟨elementwise2_of_vec1 h (fun _ => exec_vabs ..) fun x => ?iabs,
      elementwise2_of_vec1 h (fun _ => exec_vneg ..) fun x => ?ineg,
      elementwise2_of_vec1 h (fun _ => exec_vclz ..) fun x => ?clz,
      elementwise2_of_vec1 h (fun _ => exec_vpopc ..) fun x => ?popc,
      elementwise2_of_vec1 h (fun _ => exec_vffs ..) fun x => ?ffs⟩⟩
  case fabs => rw [if_pos ht, ofNat_mod_signBit hw]
  case fneg => rw [if_pos ht, ofNat_xor_signBit hw]
  case iabs => rw [if_neg (by rw [ht]; decide), ofNat_absInt hw]
  case ineg => rw [if_neg (by rw [ht]; decide), ofNat_neg]
  case clz => rw [clzN_eq_sub, hones]
  case popc => rw [popN_eq, hones]
  case ffs => rw [ffsN_eq, hones]

end

/-! ## The floating-point vector words (07_core_vector R130 to R132, R137) -/

section

open Sys2Proof Sys2Proof.Machine

namespace Sys2Proof.Machine

section
variable {i : Bool → Instr} {s : State} {b : Barge} {r : Run} {d p q : Nat} {m : Mask} {t : ETy}

/-- A word that gives each active element what an operation gives its elements of va, vb and vd. -/
theorem elementwise_of_vec3 (h : Issuing s b r) {f : Nat → Nat → Nat → Res}
    (he : ∀ st, exec (i st) s = vec3 s st d p q m t (fun x y z => (f x y z).pair)) :
    Machine.Elementwise i s b r d t.width (b.rvl32 * 32 / t.width) m (Machine.floatAt (ctxOf s b r) d p q t.width f) :=
  elementwise_of_issue h he rfl

/-- The class F form of a word of two sources. -/
theorem elementwise_of_byClass (h : Issuing s b r) (ht : t.cls = .F) {F : Fmt → Nat → Nat → Res} {G : Nat → Nat → Nat → Nat}
    (he : ∀ st, exec (i st) s = vec2 s st d p q m t (fun x y => byClass t F G x y)) :
    Machine.Elementwise i s b r d t.width (b.rvl32 * 32 / t.width) m
      (Machine.floatAt (ctxOf s b r) d p q t.width (fun x y _ => F (etyFmt t) x y)) :=
  elementwise_of_vec3 h fun st => by rw [he, byClass_float ht]; rfl

end

end Sys2Proof.Machine

/-- Settles O14: each word maps its operation of 02_numbers over the active elements. -/
theorem vectorFloatingPoint : Obligations.VectorFloatingPoint := by
  intro s b r h d p q m t ht
  simp only [Machine.floatWords, List.forall_mem_cons, List.not_mem_nil, false_imp_iff, implies_true, and_true]
  exact ⟨elementwise_of_byClass h ht fun _ => exec_vadd .., elementwise_of_byClass h ht fun _ => exec_vsub ..,
    elementwise_of_byClass h ht fun _ => exec_vmul .., elementwise_of_vec3 h fun _ => exec_vdiv ..,
    elementwise_of_byClass h ht fun _ => exec_vmin .., elementwise_of_byClass h ht fun _ => exec_vmax ..,
    elementwise_of_vec3 h fun _ => exec_vsqrt .., elementwise_of_vec3 h fun _ => exec_vexp2 ..,
    elementwise_of_vec3 h fun _ => exec_vlog2 .., elementwise_of_vec3 h fun _ => exec_vfma ..,
    elementwise_of_vec3 h fun _ => exec_vfms .., elementwise_of_vec3 h fun _ => exec_vfnma ..,
    elementwise_of_vec3 h fun _ => exec_vfnms ..⟩

end

/-! ## The vector compare words (07_core_vector R138) -/

section

open Sys2Proof Sys2Proof.Machine

namespace Sys2Proof.Machine

/-! ### Words that write a mask -/

section
variable {i : Bool → Instr} {s : State} {b : Barge} {r : Run} {d p q : Nat} {m : Mask} {t : ETy}

/-- What an inactive bit of a mask becomes (R78). -/
theorem inactive_one (c : WCtx) (d : Nat) (m : Mask) (k : Nat) :
    c.inactive d 1 m k = (if m = .zero then false else (c.v d).getLsbD k).toNat := by
  cases m <;> simp [WCtx.inactive, elem_one]

/-- A word that writes a mask gives what its function gives, bit by bit. -/
theorem maskResult_of_issue (h : Issuing s b r) {F : WCtx → WOut} (he : ∀ st, exec (i st) s = issue s st F) {w : Nat}
    {f : Nat → Bool × Nat} (hF : F (ctxOf s b r) = (ctxOf s b r).vmask d w m f) :
    Machine.MaskResult i s b r d (b.rvl32 * 32 / w) m f := by
  have hfl := foldl_active (ctxOf s b r) m ((ctxOf s b r).vl w) (fun k => ((f k).1.toNat, (f k).2))
    (fun k => ((ctxOf s b r).inactive d 1 m k, 0)) (fun _ => rfl)
  refine ⟨_, writesV_of_issue h he (hF.trans (congrArg (WOut.items _) hfl)), fun k hk => getLsbD_of_elem ?_⟩
  have hbit (c : Bool) : c.toNat % 2 ^ 1 = c.toNat := Nat.mod_eq_of_lt (Bool.toNat_lt c)
  rw [List.map_map, elem_packElems_range (by omega), apply_ite Bool.toNat]
  refine if_ctx_congr Iff.rfl (fun _ => ?_) (fun _ => rfl)
  rw [Function.comp_apply, apply_ite Prod.fst, inactive_one, ← apply_ite Bool.toNat, hbit]

theorem maskResult_of_vcmp (h : Issuing s b r) {f : Nat → Nat → Bool × Nat} (he : ∀ st, exec (i st) s = vcmp s st d p q m t f) :
    Machine.MaskResult i s b r d (b.rvl32 * 32 / t.width) m (fun k =>
      f (elem ((ctxOf s b r).v p) t.width k) (elem ((ctxOf s b r).v q) t.width k)) :=
  maskResult_of_issue h he rfl

/-- A compare of integers, its function on numbers being `f` on bit vectors. -/
theorem maskResult_of_intCompare (h : Issuing s b r) {g : Nat → Nat → Bool × Nat}
    (he : ∀ st, exec (i st) s = vcmp s st d p q m t g) {f : BitVec t.width → BitVec t.width → Bool}
    (hg : ∀ x y : BitVec t.width, g x.toNat y.toNat = (f x y, 0)) :
    Machine.MaskResult i s b r d (b.rvl32 * 32 / t.width) m (fun k =>
      (f (BitVec.ofNat t.width (elem ((ctxOf s b r).v p) t.width k))
        (BitVec.ofNat t.width (elem ((ctxOf s b r).v q) t.width k)), 0)) := by
  simp only [← hg, toNat_ofNat_elem]
  exact maskResult_of_vcmp h he

end

/-! ### Compares by class -/

theorem toNat_beq_toNat {w : Nat} (x y : BitVec w) : (x.toNat == y.toNat) = (x == y) := by
  rw [Bool.eq_iff_iff, beq_iff_eq, beq_iff_eq, BitVec.toNat_inj]

section
variable {t : ETy} {nan any : Bool} {f : Int → Bool} {g : Nat → Nat → Nat → Bool}

theorem cmpBy_int (ht : t.cls = .I) (x y : Nat) : cmpBy t nan any f g x y = (g t.width x y, 0) := by
  rw [cmpBy, ht]
  rfl

theorem cmpBy_float (ht : t.cls = .F) (x y : Nat) : cmpBy t nan any f g x y = cmpF (etyFmt t) nan any f x y := if_pos ht

end

/-- A compare of values as R138 gives it. -/
theorem cmpF_eq (g : Fmt) (nan any : Bool) (f : Int → Bool) (x y : Nat) :
    cmpF g nan any f x y =
      if g.isNan x ∨ g.isNan y then (nan, if any = true ∨ g.isSNan x ∨ g.isSNan y then flNV else 0) else (f (fpCmp g x y), 0) := by
  have hflag : (if any then flNV else snanFlag g [x, y]) = if any = true ∨ g.isSNan x ∨ g.isSNan y then flNV else 0 := by
    cases any <;> simp [snanFlag]
  rw [cmpF, hflag, if_congr Bool.or_eq_true_iff rfl rfl]

/-- The compares of class F by the model's function. -/
theorem floatCompares_eq (d p q : Nat) (m : Mask) (t : ETy) :
    let F (nan any : Bool) (f : Int → Bool) (x y : Nat) : Bool × Nat := cmpF (etyFmt t) nan any f x y
    Machine.floatCompares d p q m t =
      [((.vceq · d p q m t), F false false (fun o => o = 0)), ((.vcne · d p q m t), F true false (fun o => o ≠ 0)),
       ((.vclt · d p q m t), F false true (fun o => o = -1)), ((.vcle · d p q m t), F false true (fun o => o ≠ 1)),
       ((.vcun · d p q m t), F true false (fun _ => false))] := by
  simp only [Machine.floatCompares, cmpF_eq]

theorem maskResult_of_cmpBy {i : Bool → Instr} {s : State} {b : Barge} {r : Run} {d p q : Nat} {m : Mask} {t : ETy}
    (h : Issuing s b r) (ht : t.cls = .F) {nan any : Bool} {f₀ f : Int → Bool} {g : Nat → Nat → Nat → Bool}
    (he : ∀ st, exec (i st) s = vcmp s st d p q m t (fun x y => cmpBy t nan any f₀ g x y)) (hf : f₀ = f) :
    Machine.MaskResult i s b r d (b.rvl32 * 32 / t.width) m (fun k =>
      cmpF (etyFmt t) nan any f (elem ((ctxOf s b r).v p) t.width k) (elem ((ctxOf s b r).v q) t.width k)) := by
  subst hf
  exact maskResult_of_vcmp h fun st => by simp only [he, cmpBy_float ht]

end Sys2Proof.Machine

/-- Settles O16: an integer compare is that of the bit vectors, and a NaN decides a floating-point one before the order does. -/
theorem vectorCompares : Obligations.VectorCompares := by
  intro s b r h d p q m t c w n x y I
  have hw : 0 < w := width_pos t
  refine ⟨fun ht => ⟨maskResult_of_intCompare h (fun _ => exec_vceq ..) fun x y => ?eq,
    maskResult_of_intCompare h (fun _ => exec_vcne ..) fun x y => ?ne,
    maskResult_of_intCompare h (fun _ => exec_vclt ..) fun x y => ?lt,
    maskResult_of_intCompare h (fun _ => exec_vcle ..) fun x y => ?le,
    maskResult_of_intCompare h (fun _ => exec_vcltu ..) fun x y => rfl,
    maskResult_of_intCompare h (fun _ => exec_vcleu ..) fun x y => rfl⟩, fun ht => ?float⟩
  case eq => rw [cmpBy_int ht, toNat_beq_toNat]
  case ne => rw [cmpBy_int ht, bne, toNat_beq_toNat]; rfl
  case lt => rw [cmpBy_int ht, sintOf_toNat hw, sintOf_toNat hw]; rfl
  case le => rw [cmpBy_int ht, sintOf_toNat hw, sintOf_toNat hw]; rfl
  case float =>
    rw [floatCompares_eq]
    simp only [List.forall_mem_cons, List.not_mem_nil, false_imp_iff, implies_true, and_true]
    exact ⟨maskResult_of_cmpBy h ht (fun _ => exec_vceq ..) rfl,
      maskResult_of_cmpBy h ht (fun _ => exec_vcne ..) (funext fun o => (decide_not (p := o = 0)).symm),
      maskResult_of_cmpBy h ht (fun _ => exec_vclt ..) rfl,
      maskResult_of_cmpBy h ht (fun _ => exec_vcle ..) (funext fun o => (decide_not (p := o = 1)).symm),
      maskResult_of_vcmp h fun _ => exec_vcun ..⟩

end

/-! ## Select, conversion and permutation (07_core_vector R139 to R143) -/

section

open Sys2Proof Sys2Proof.Machine

namespace Sys2Proof.Machine

/-- The indices that v0 selects. -/
theorem selected_eq (c : WCtx) (w : Nat) : c.selected w = (List.range (c.vl w)).filter (fun k => (c.v 0).getLsbD k) := by
  simp only [WCtx.selected, elem_one_beq_one]

theorem filter_range_lt {n k : Nat} (h : k ≤ n) : (List.range n).filter (fun j => decide (j < k)) = List.range k := by
  obtain ⟨e, rfl⟩ := Nat.exists_eq_add_of_le h
  rw [List.range_add, List.filter_append, List.filter_eq_self.2 (by simp), List.filter_eq_nil_iff.2 (by simp), List.append_nil]

/-- How many selected elements stand below element `k`: the place in `va` that `VEXPAND` takes it from (R141). -/
theorem length_selected_below (c : WCtx) {w k : Nat} (h : k ≤ c.vl w) :
    ((c.selected w).filter (fun j => decide (j < k))).length = (List.range k).countP (fun j => (c.v 0).getLsbD j) := by
  rw [selected_eq, List.filter_comm, filter_range_lt h, List.countP_eq_length_filter]

/-- What `VEXTR` delivers by the class of its type (R143). -/
theorem extracted_eq (t : ETy) (n : Nat) :
    (if t.cls = .I then sextW t.width n else BitVec.ofNat 64 n) =
      if t.cls = .I then (BitVec.ofNat t.width n).signExtend 64 else BitVec.ofNat 64 n := by
  rw [sextW_eq (width_pos t)]

section
variable {i : Bool → Instr} {s : State} {b : Barge} {r : Run} {d w n : Nat} {m : Mask}

/-- An element-wise word that raises nothing. -/
theorem elementwise_of_quiet (h : Issuing s b r) {F : WCtx → WOut} (he : ∀ st, exec (i st) s = issue s st F) {g f : Nat → Nat}
    (hF : F (ctxOf s b r) = (ctxOf s b r).vmapN n d w m (fun k => quietRes (g k))) (hg : ∀ k < n, g k = f k) :
    Machine.Elementwise i s b r d w n m (fun k => (f k, 0)) :=
  elementwise_of_vmapN h he hF (fun k hk => congrArg (· % 2 ^ w) (hg k hk)) (fun _ _ => rfl)

end

theorem getD_map_elem_mod (v : VReg) (w : Nat) (l : List Nat) (j : Nat) :
    (l.map (elem v w)).getD j 0 % 2 ^ w = (l[j]?.map (elem v w)).getD 0 := by
  rw [List.getD_eq_getElem?_getD, List.getElem?_map]
  cases l[j]? <;> simp

end Sys2Proof.Machine

/-- Settles O17: each element is taken from the place that its rule names, the selected elements being counted from the lowest. -/
theorem vectorSelectAndPermute : Obligations.VectorSelectAndPermute := by
  intro s b r h d p q m t u rnd c w n x y on E shift
  refine ⟨elementwise_of_quiet h (fun _ => exec_vsel ..) rfl fun k _ => ?sel,
    elementwise_of_issue h (fun _ => exec_vperm ..) rfl, elementwise_of_issue h (fun _ => exec_vslideup ..) rfl,
    elementwise_of_issue h (fun _ => exec_vslidedn ..) rfl, elementwise_of_issue h (fun _ => exec_vbcast ..) rfl,
    elementwise_of_issue h (fun _ => exec_vidx ..) rfl,
    elementwise_of_quiet h (fun _ => exec_vexpand ..) rfl fun k hk => ?expand,
    ⟨_, writesV_of_issue h (fun _ => exec_vcompress ..) rfl, fun j hj => ?compress⟩,
    writesS_of_issue h (fun _ => exec_vextr ..) (extracted_eq t _), elementwise_of_issue h (fun _ => exec_vcvt ..) rfl⟩
  case sel => exact if_congr (elem_one_eq_one _ k) rfl rfl
  case expand => exact if_congr (elem_one_eq_one _ k) (congrArg x (length_selected_below c hk.le)) rfl
  case compress => rw [elem_packElems hj, getD_map_elem_mod, selected_eq]; rfl

end

/-! ## The mask words (07_core_vector R145) -/

section

open Sys2Proof Sys2Proof.Machine

namespace Sys2Proof.Machine

/-- A bit of a mask made of the low bits of two masks. -/
theorem testBit_maskOp {g : Nat → Nat → Nat} {f : Bool → Bool → Bool}
    (hg : ∀ x y k, (g x y).testBit k = f (x.testBit k) (y.testBit k)) (n k : Nat) (u v : VReg) :
    (g (u.toNat % 2 ^ n) (v.toNat % 2 ^ n) % 2 ^ n).testBit k = (decide (k < n) && f (u.getLsbD k) (v.getLsbD k)) := by
  by_cases hk : k < n <;> simp [hg, hk, BitVec.testBit_toNat]

theorem testBit_maskNot (n k : Nat) (u : VReg) :
    (2 ^ n - 1 - u.toNat % 2 ^ n).testBit k = (decide (k < n) && !u.getLsbD k) := by
  have hlt : u.toNat % 2 ^ n < 2 ^ n := Nat.mod_lt _ (Nat.two_pow_pos n)
  rw [Nat.sub_sub, Nat.add_comm 1, Nat.testBit_two_pow_sub_succ hlt, Nat.testBit_mod_two_pow, BitVec.testBit_toNat]
  by_cases hk : k < n <;> simp [hk]

section
variable {i : Bool → Instr} {s : State} {b : Barge} {r : Run} {d p q : Nat} {t : ETy}

/-- A word that writes a mask of its own, bit by bit. -/
theorem writesMask_of_issue (h : Issuing s b r) {F : WCtx → WOut} (he : ∀ st, exec (i st) s = issue s st F) {x : Nat}
    (hF : F (ctxOf s b r) = .items [.vreg d (BitVec.ofNat 1024 x)] 0) {g : Nat → Bool} (hg : ∀ k, x.testBit k = g k) :
    ∃ v : VReg, WritesV i s b r d v 0 ∧ ∀ k < 1024, v.getLsbD k = g k :=
  ⟨_, writesV_of_issue h he hF, fun k hk => by rw [BitVec.getLsbD_ofNat, hg, decide_eq_true hk, Bool.true_and]⟩

theorem writesMask_of_maskOp (h : Issuing s b r) {g : Nat → Nat → Nat} (he : ∀ st, exec (i st) s = maskOp s st d p q t g)
    {f : Bool → Bool → Bool} (hg : ∀ x y k, (g x y).testBit k = f (x.testBit k) (y.testBit k)) :
    ∃ v : VReg, WritesV i s b r d v 0 ∧ ∀ k < 1024, v.getLsbD k =
      (decide (k < b.rvl32 * 32 / t.width) && f (((ctxOf s b r).v p).getLsbD k) (((ctxOf s b r).v q).getLsbD k)) :=
  writesMask_of_issue h he rfl fun k => testBit_maskOp hg _ k _ _

end

end Sys2Proof.Machine

/-- Settles O19: each word is its operation on every bit below n, and the counts are those of the positions of the one bits. -/
theorem maskWords : Obligations.MaskWords := by
  intro s b r h d p q t c n B ones
  have hones : ones = onesOf n (c.v p).toNat := rfl
  refine ⟨writesMask_of_maskOp h (fun _ => exec_vmand ..) Nat.testBit_and,
    writesMask_of_maskOp h (fun _ => exec_vmor ..) Nat.testBit_or,
    writesMask_of_maskOp h (fun _ => exec_vmxor ..) Nat.testBit_xor,
    writesMask_of_maskOp h (f := fun x y => x && !y) (fun _ => exec_vmandn ..) fun x y k => ?andn,
    writesMask_of_issue h (fun _ => exec_vmnot ..) rfl fun k => testBit_maskNot _ k _,
    writesS_of_issue h (fun _ => exec_vmpopc ..) ?popc, writesS_of_issue h (fun _ => exec_vmffs ..) ?ffs⟩
  case andn =>
    rw [Nat.testBit_xor, Nat.testBit_and]
    cases x.testBit k <;> cases y.testBit k <;> rfl
  case popc => rw [popN_eq, hones]; rfl
  case ffs => rw [ffsN_eq, hones]; rfl

end

/-! ## The reductions (07_core_vector R144, 02_numbers R40) -/

section

open Sys2Proof Sys2Proof.Machine

namespace Sys2Proof.Machine

/-! ### The model's tree over a list is the tree of the statement -/

/-- One level of the tree, by the model's own step. -/
theorem markedTree_succ (f : Nat → Nat → Res) (k : Nat) (g : Nat → Option Nat) :
    let step (i : Nat) := combine (fun x y => (f x y).pair) (g i) (g (i + 2 ^ k))
    let rest := Machine.markedTree f k (fun i => (step i).1)
    Machine.markedTree f (k + 1) g = (rest.1, (List.range (2 ^ k)).foldl (fun a i => a ||| (step i).2) rest.2) := by
  intro step rest
  rw [Machine.markedTree]
  refine congrArg (fun u : Nat → Option Nat × Nat => ((Machine.markedTree f k (fun i => (u i).1)).1,
    (List.range (2 ^ k)).foldl (fun a i => a ||| (u i).2) (Machine.markedTree f k (fun i => (u i).1)).2)) (funext fun i => ?_)
  dsimp only [step]
  cases g i <;> cases g (i + 2 ^ k) <;> rfl

theorem zipWith_halves {α β : Type} (f : α → α → β) (g : Nat → α) (n : Nat) :
    List.zipWith f (((List.range (n + n)).map g).take n) (((List.range (n + n)).map g).drop n) =
      (List.range n).map (fun i => f (g i) (g (i + n))) := by
  apply List.ext_getElem
  · simp
  · intro i h₁ h₂
    simp [Nat.add_comm]

theorem treeReduce_eq (f : Nat → Nat → Res) (k : Nat) (g : Nat → Option Nat) (fl : Nat) :
    treeReduce (fun x y => (f x y).pair) k ((List.range (2 ^ k)).map g) fl =
      ((Machine.markedTree f k g).1, fl ||| (Machine.markedTree f k g).2) := by
  induction k generalizing g fl with
  | zero => exact Prod.ext rfl (Nat.or_zero fl).symm
  | succ k ih =>
    rw [treeReduce, Nat.pow_succ, Nat.mul_two, zipWith_halves, List.map_map, List.foldl_map]
    refine (ih _ _).trans ?_
    rw [markedTree_succ, foldl_or_init, foldl_or_init (List.range _) _ (Prod.snd _), Nat.or_assoc, Nat.or_comm (List.foldl ..)]
    rfl

/-- Where every value is present and no step raises a flag, the marked tree is the plain one. -/
theorem markedTree_some (G : Nat → Nat → Nat) (k : Nat) (g : Nat → Nat) :
    Machine.markedTree (fun x y => ⟨G x y, 0⟩) k (fun j => some (g j)) = (some (Machine.pairTree G k g), 0) := by
  induction k generalizing g with
  | zero => rfl
  | succ k ih =>
    rw [markedTree_succ]
    refine (congrArg (fun rest : Option Nat × Nat => (rest.1, (List.range (2 ^ k)).foldl (fun a _ => a ||| 0) rest.2))
      (ih _)).trans ?_
    exact congrArg (some (Machine.pairTree G (k + 1) g), ·) (List.foldl_fixed' (fun _ => Nat.or_zero 0) _)

/-- A tree over numbers below `2 ^ w` whose step is one of bit vectors. -/
theorem pairTree_toNat {w : Nat} {G : Nat → Nat → Nat} {f : BitVec w → BitVec w → BitVec w}
    (hG : ∀ x y : BitVec w, G x.toNat y.toNat = (f x y).toNat) (k : Nat) {g : Nat → Nat} (hg : ∀ i, g i < 2 ^ w) :
    Machine.pairTree G k g = Machine.pairTree (fun x y => (f (BitVec.ofNat w x) (BitVec.ofNat w y)).toNat) k g ∧
      Machine.pairTree G k g < 2 ^ w := by
  induction k generalizing g with
  | zero => exact ⟨rfl, hg 0⟩
  | succ k ih =>
    have hstep (i j : Nat) : G (g i) (g j) = (f (BitVec.ofNat w (g i)) (BitVec.ofNat w (g j))).toNat := by
      rw [← hG, BitVec.toNat_ofNat, BitVec.toNat_ofNat, Nat.mod_eq_of_lt (hg i), Nat.mod_eq_of_lt (hg j)]
    simp only [Machine.pairTree, hstep]
    exact ih fun i => BitVec.isLt _

/-- The number of levels of a tree over `n` elements, of which a vector has at most `2 ^ 7`. -/
theorem treeLevels_spec (n : Nat) :
    (n ≤ 2 ^ treeLevels n ∨ treeLevels n = 7) ∧ (treeLevels n = 0 ∨ 2 ^ (treeLevels n - 1) < n) := by
  unfold treeLevels
  cases hfind : (List.range 8).find? (fun k => decide (n ≤ 2 ^ k)) with
  | none =>
    have h6 := List.find?_eq_none.1 hfind 6 (by decide)
    exact ⟨.inr rfl, .inr (by simpa using h6)⟩
  | some k =>
    obtain ⟨hk, -, hleast⟩ := List.find?_range_eq_some.1 hfind
    refine ⟨.inl (of_decide_eq_true hk), (Nat.eq_zero_or_pos k).imp_right fun hpos => ?_⟩
    simpa using hleast (k - 1) (by omega)

/-! ### What a reduction word writes -/

/-- The elements that a reduction combines, `z` for those that are inactive or past the vector length. -/
def reduced (c : WCtx) (p : Nat) (m : Mask) (w : Nat) (z : Option Nat) (j : Nat) : Option Nat :=
  if j < c.b.rvl32 * 32 / w ∧ c.active m j = true then some (elem (c.v p) w j) else z

/-- As `reduced`, where the identity is the number `u`. -/
def reducedNum (c : WCtx) (p : Nat) (m : Mask) (w u j : Nat) : Nat :=
  if j < c.b.rvl32 * 32 / w ∧ c.active m j = true then elem (c.v p) w j else u

theorem reduced_some (c : WCtx) (p : Nat) (m : Mask) (w u : Nat) :
    reduced c p m w (some u) = fun j => some (reducedNum c p m w u j) :=
  funext fun _ => (apply_ite some ..).symm

theorem reducedNum_lt (c : WCtx) (p : Nat) (m : Mask) {w u : Nat} (hu : u < 2 ^ w) (j : Nat) : reducedNum c p m w u j < 2 ^ w := by
  rw [reducedNum]
  split
  · exact elem_lt ..
  · exact hu

/-- An integer or bitwise reduction as `Machine.VectorReductions` states it: the step `f` and its identity `u`. -/
def ReducesInt (i : Bool → Instr) (s : State) (b : Barge) (r : Run) (d p : Nat) (m : Mask) (t : ETy)
    (f : BitVec t.width → BitVec t.width → BitVec t.width) (u : BitVec t.width) : Prop :=
  let w := t.width
  let n := b.rvl32 * 32 / w
  ∃ k, (n ≤ 2 ^ k ∨ k = 7) ∧ (k = 0 ∨ 2 ^ (k - 1) < n) ∧
    WritesV i s b r d (BitVec.ofNat 1024 (Machine.pairTree (fun x y => (f (BitVec.ofNat w x) (BitVec.ofNat w y)).toNat) k
      (reducedNum (ctxOf s b r) p m w u.toNat))) 0

section
variable {i : Bool → Instr} {s : State} {b : Barge} {r : Run} {d p e : Nat} {m : Mask} {t : ETy} {z : Option Nat}

theorem writesV_of_vred (h : Issuing s b r) {f : Nat → Nat → Res}
    (he : ∀ st, exec (i st) s = vred s st d p m t (fun x y => (f x y).pair) z e) :
    let y := Machine.markedTree f (treeLevels (b.rvl32 * 32 / t.width)) (reduced (ctxOf s b r) p m t.width z)
    WritesV i s b r d (BitVec.ofNat 1024 (y.1.getD e % 2 ^ t.width)) y.2 := by
  refine writesV_of_issue h he ?_
  have htree := treeReduce_eq f (treeLevels (b.rvl32 * 32 / t.width)) (reduced (ctxOf s b r) p m t.width z) 0
  rw [Nat.zero_or] at htree
  exact congrArg (fun y : Option Nat × Nat => WOut.items [.vreg d (BitVec.ofNat 1024 (y.1.getD e % 2 ^ t.width))] y.2) htree

/-- The floating-point form, as `Obligations.Reductions` states it. -/
theorem reducedTo_of_vred (h : Issuing s b r) {f : Nat → Nat → Res}
    (he : ∀ st, exec (i st) s = vred s st d p m t (fun x y => (f x y).pair) z e) :
    ∃ v fl, Machine.ReducedTo (ctxOf s b r) p m t (f, z, e) v fl ∧ WritesV i s b r d v fl :=
  let ⟨hfit, hleast⟩ := treeLevels_spec (b.rvl32 * 32 / t.width)
  ⟨_, _, ⟨_, hfit, hleast, rfl, rfl⟩, writesV_of_vred h he⟩

/-- The integer and bitwise form: the tree of bit vectors. -/
theorem reducedInt_of_vred (h : Issuing s b r) {G : Nat → Nat → Nat} {f : BitVec t.width → BitVec t.width → BitVec t.width}
    {u : BitVec t.width} (he : ∀ st, exec (i st) s = vred s st d p m t (fun x y => quietRes (G x y)) z e)
    (hz : z = some u.toNat) (hG : ∀ x y : BitVec t.width, G x.toNat y.toNat = (f x y).toNat) :
    ReducesInt i s b r d p m t f u := by
  obtain ⟨hfit, hleast⟩ := treeLevels_spec (b.rvl32 * 32 / t.width)
  obtain ⟨htree, hlt⟩ := pairTree_toNat hG (treeLevels (b.rvl32 * 32 / t.width)) (reducedNum_lt (ctxOf s b r) p m u.isLt)
  have hw := writesV_of_vred (f := fun x y => ⟨G x y, 0⟩) h he
  rw [hz, reduced_some, markedTree_some] at hw
  dsimp only [Option.getD_some] at hw
  rw [Nat.mod_eq_of_lt hlt, htree] at hw
  exact ⟨_, hfit, hleast, hw⟩

theorem reducedInt_of_byClass (h : Issuing s b r) (ht : t.cls = .I) {F : Fmt → Nat → Nat → Res} {G : Nat → Nat → Nat → Nat}
    {f : BitVec t.width → BitVec t.width → BitVec t.width} {u : BitVec t.width}
    (he : ∀ st, exec (i st) s = vred s st d p m t (byClass t F G) z e) (hz : z = some u.toNat)
    (hG : ∀ x y : BitVec t.width, G t.width x.toNat y.toNat = (f x y).toNat) :
    ReducesInt i s b r d p m t f u :=
  reducedInt_of_vred h (fun st => by rw [he, byClass_int ht]) hz hG

end

/-! ### Identities and steps -/

theorem extremeId_int {t : ETy} (ht : t.cls = .I) (neg : Bool) :
    extremeId t neg = some (if neg then 2 ^ (t.width - 1) else 2 ^ (t.width - 1) - 1) := by
  rw [extremeId, ht]
  rfl

theorem toNat_intMin_pos {w : Nat} (hw : 0 < w) : (BitVec.intMin w).toNat = 2 ^ (w - 1) := by
  rw [BitVec.toNat_intMin, Nat.mod_eq_of_lt (Nat.pow_lt_pow_right one_lt_two (by omega))]

theorem signBit_etyFmt {t : ETy} (ht : t.cls = .F) : (etyFmt t).signBit true = 2 ^ (t.width - 1) := by
  revert ht
  cases t <;> decide

/-- Of the types of class F, E4M3 alone has no infinity (R20). -/
theorem extremeId_float {t : ETy} (ht : t.cls = .F) (neg : Bool) :
    extremeId t neg = if t = .e4m3 then none else some ((etyFmt t).infc + (etyFmt t).signBit neg) := by
  revert ht
  cases t <;> cases neg <;> decide

theorem sumId_float {t : ETy} (ht : t.cls = .F) :
    some (if t.cls = .F then (etyFmt t).signBit true else 0) = some (2 ^ (t.width - 1)) := by
  rw [if_pos ht, signBit_etyFmt ht]

theorem maxId_float {t : ETy} (ht : t.cls = .F) :
    extremeId t true = if t = .e4m3 then none else some ((etyFmt t).infc + 2 ^ (t.width - 1)) := by
  rw [extremeId_float ht, signBit_etyFmt ht]

theorem minId_float {t : ETy} (ht : t.cls = .F) :
    extremeId t false = if t = .e4m3 then none else some (etyFmt t).infc := extremeId_float ht false

theorem vectorReductions : Machine.VectorReductions := by
  intro s b r h d p m t c w n T
  refine ⟨fun ht => ⟨reducedInt_of_byClass h ht (fun _ => exec_vredsum ..) ?sum BitVec.toNat_add,
      reducedInt_of_byClass (f := fun x y => if y.sle x then x else y) (u := BitVec.intMin w) h ht (fun _ => exec_vredmax ..) ?max
        (maxInt_toNat (width_pos t)),
      reducedInt_of_byClass (f := fun x y => if x.sle y then x else y) (u := BitVec.intMax w) h ht (fun _ => exec_vredmin ..) ?min
        (minInt_toNat (width_pos t))⟩,
    reducedInt_of_vred h (fun _ => exec_vredand ..) ?and BitVec.toNat_and,
    reducedInt_of_vred h (fun _ => exec_vredor ..) ?or BitVec.toNat_or,
    reducedInt_of_vred h (fun _ => exec_vredxor ..) ?xor BitVec.toNat_xor⟩
  case sum => exact congrArg some ((if_neg (by rw [ht]; decide)).trans BitVec.toNat_zero.symm)
  case max => rw [extremeId_int ht, toNat_intMin_pos (width_pos t)]; rfl
  case min => rw [extremeId_int ht, BitVec.toNat_intMax]; rfl
  case and => rw [BitVec.toNat_allOnes]
  case or => exact congrArg some BitVec.toNat_zero.symm
  case xor => exact congrArg some BitVec.toNat_zero.symm

theorem floatingReductions : Machine.FloatingReductions := by
  intro s b r h d p m t ht
  simp only [Machine.floatReductions, List.forall_mem_cons, List.not_mem_nil, false_imp_iff, implies_true, and_true]
  refine ⟨reducedTo_of_vred h fun st => (exec_vredsum ..).trans ?_, reducedTo_of_vred h fun st => (exec_vredmax ..).trans ?_,
    reducedTo_of_vred h fun st => (exec_vredmin ..).trans ?_⟩
  · rw [execVredsum, byClass_float ht, sumId_float ht]
  · rw [execVredmax, byClass_float ht, maxId_float ht]
  · rw [execVredmin, byClass_float ht, minId_float ht]

end Sys2Proof.Machine

/-- Settles O18: the model's tree over the list of elements is the statement's, and its identities are those of R40 and R144. -/
theorem reductions : Obligations.Reductions := ⟨vectorReductions, floatingReductions⟩

end

section
/-! # Every step keeps memory in its canonical form (notes/assumptions/5.md)

`h.f`, for a proof `h` that a state has the form, is the proof that `s.f` has it: one lemma for each operation of the model, in the
order of the model's files, so that the proof of an operation reads as its definition does. An operation that changes no field of
memory needs none: its result has the form by definition. -/

namespace Sys2Proof.Machine

variable {s : State}

/-! ## Results that hold a state -/

/-- The state of an outcome, where it has one, has the form. -/
def OutWf (o : Out) : Prop := ∀ t, o = .next t → t.MemWf

/-- The state of an answer, where there is one, has the form. -/
def OptWf (o : Option State) : Prop := ∀ t, o = some t → t.MemWf

/-- The state that an attempt at a held operation leaves has the form. -/
def Try.Wf : Try → Prop
  | .done s _ => s.MemWf
  | .wait s => s.MemWf

theorem State.MemWf.toNext (h : s.MemWf) : OutWf (.next s) := fun _ e => (Host.Outcome.next.inj e) ▸ h
theorem OutWf.fault (f : Fault) : OutWf (.fault f) := nofun
theorem State.MemWf.toSome (h : s.MemWf) : OptWf (some s) := fun _ e => (Option.some.inj e) ▸ h
theorem OptWf.none : OptWf none := nofun

theorem OptWf.getD {o : Option State} (ho : OptWf o) (h : s.MemWf) : (o.getD s).MemWf := by
  cases o with
  | none => exact h
  | some t => exact ho t rfl

theorem OptWf.findSome? {α : Type} {f : α → Option State} (hf : ∀ a, OptWf (f a)) (l : List α) : OptWf (l.findSome? f) := by
  intro t e
  obtain ⟨a, _, ha⟩ := List.exists_of_findSome?_eq_some e
  exact hf a t ha

theorem OptWf.map {α : Type} {f : α → State} (hf : ∀ a, (f a).MemWf) (o : Option α) : OptWf (o.map f) := by
  cases o with
  | none => exact .none
  | some a => exact (hf a).toSome

theorem OptWf.ite {c : Prop} [Decidable c] {o p : Option State} (ho : OptWf o) (hp : OptWf p) : OptWf (if c then o else p) := by
  split <;> assumption

theorem State.MemWf.ite {c : Prop} [Decidable c] {t : State} (hs : s.MemWf) (ht : t.MemWf) : (if c then s else t).MemWf := by
  split <;> assumption

theorem State.MemWf.foldl {α : Type} {f : State → α → State} (h : s.MemWf) (hf : ∀ {s : State} (a : α), s.MemWf → (f s a).MemWf)
    (l : List α) : (l.foldl f s).MemWf := foldl_keeps (P := State.MemWf) (fun _ a h => hf a h) l h

/-! ## Barges, numbers, requests -/

theorem State.MemWf.updB {k : Nat} {f : Barge → Barge} (h : s.MemWf) : (s.updB k f).MemWf :=
  State.memWf_of_eq h (State.updB_mem ..)

theorem State.MemWf.restand {k : Nat} {r : Run} {l : List Nat} {w : Bool} (h : s.MemWf) : (s.restand k r l w).MemWf :=
  (State.memWf_enqueue k l h).updB

theorem State.MemWf.noAnswer {k t : Nat} (h : s.MemWf) : (s.noAnswer k t).MemWf := h.updB (k := k)

theorem State.MemWf.finish {k n code pgran done : Nat} (h : s.MemWf) : (s.finish k n code pgran done).MemWf := h.ite h

theorem State.MemWf.voidNumbers (h : s.MemWf) (l : List Effect) : (voidNumbers s l).MemWf := by
  induction l generalizing s with
  | nil => exact h
  | cons e r ih =>
    cases e with
    | cmd k n c => exact ih h.finish
    | _ => exact ih h

theorem State.MemWf.abortRegion {k : Nat} (h : s.MemWf) : (s.abortRegion k).MemWf := by
  unfold State.abortRegion
  split
  · exact h
  next b _ => exact h.ite (State.memWf_leaveQueue k (h.voidNumbers b.eff))

theorem State.MemWf.writeBack {k : Nat} {b : Barge} (h : s.MemWf) : (s.writeBack k b).MemWf := by
  unfold State.writeBack
  split
  · exact State.memWf_ownWrite _ _ _ _ h
  · exact h

/-! ## Messages -/

theorem State.MemWf.received {m : Msg} {c : Nat} (h : s.MemWf) : (s.received m c).MemWf := by
  unfold State.received
  split
  · exact h
  · split <;> exact h

theorem State.MemWf.makeReady {k : Nat} (h : s.MemWf) : (s.makeReady k).MemWf := h.updB (k := k)

theorem State.MemWf.qualify {k : Nat} (h : s.MemWf) : (s.qualify k).MemWf :=
  (h.foldl (fun _ h => h.makeReady) _).ite h

theorem State.MemWf.deliver {k : Nat} {m : Msg} (h : s.MemWf) : (s.deliver k m).MemWf := by
  unfold State.deliver
  split
  · exact h
  · dsimp only
    split
    · exact h.received.updB.updB
    · exact h.received.updB.qualify

theorem State.MemWf.requestMsg {c k : Nat} (h : s.MemWf) : (s.requestMsg c k).MemWf := by
  unfold State.requestMsg
  split
  · exact State.MemWf.deliver h
  · exact h

theorem State.MemWf.seekReady {k : Nat} (h : s.MemWf) : (s.seekReady k).MemWf :=
  ((h.requestMsg.ite h.updB.qualify).ite h.qualify).ite h

theorem State.MemWf.decPred {k : Nat} (h : s.MemWf) : (s.decPred k).MemWf :=
  ((h.foldl (fun _ h => h.updB) _).foldl (fun _ h => h.seekReady) _).ite h

theorem State.MemWf.post {c : Nat} {m : Msg} (h : s.MemWf) : (s.post c m).MemWf := by
  unfold State.post
  split
  · exact h
  · exact State.MemWf.deliver h

theorem State.MemWf.sendFault {k c : Nat} {p : Word} {m : Msg} (h : s.MemWf) : (s.sendFault k c p m).MemWf := h.post.ite h

/-! ## The end of a barge, and exceptions -/

theorem State.MemWf.reap (h : s.MemWf) : s.reap.MemWf := h

theorem State.MemWf.ended {k : Nat} (h : s.MemWf) : (s.ended k).MemWf :=
  have h' := (State.memWf_drainAll h).updB (k := k)
  ((h'.foldl (fun _ h => h.decPred) _).ite h').reap

theorem State.MemWf.forgotten {k : Nat} {b : Barge} {f : Bool} (h : s.MemWf) : (s.forgotten k b f).MemWf := by
  have h' : (if b.faultToken = 0 then s else s.useToken b.faultToken).MemWf := h.ite h
  unfold State.forgotten
  dsimp only
  split
  · split <;> exact h'
  · exact h'

theorem State.MemWf.endBarge {k : Nat} {f : Bool} (h : s.MemWf) : (s.endBarge k f).MemWf := by
  cases hb : s.barge? k with
  | none => rw [State.endBarge, hb]; exact h
  | some b =>
    rw [State.endBarge_of hb]
    have h1 : (s.drainAll.setB k (b.ending f)).MemWf := State.memWf_drainAll h
    extract_lets u
    have hu : u.MemWf := State.memWf_leaveQueue k h1.writeBack.forgotten
    exact hu.ite hu.ended

theorem State.MemWf.freshOf {k : Nat} {t : Token} (h : s.MemWf) : (s.freshOf k t).2.MemWf := h.updB (k := k)

theorem State.MemWf.takeExc {k : Nat} {x : Exc} (h : s.MemWf) : (s.takeExc k x).MemWf := by
  unfold State.takeExc
  split
  · exact h
  · extract_lets s1 s2
    have h2 : s2.MemWf := State.MemWf.ite h h.abortRegion
    clear_value s2
    split
    · exact h2.endBarge
    · exact h2.freshOf.updB.sendFault

/-! ## The results of a run -/

theorem State.MemWf.sysWrite {k n : Nat} {v : Word} (h : s.MemWf) : (s.sysWrite k n v).MemWf := by
  unfold State.sysWrite
  dsimp only
  split
  · exact h
  · exact h.updB
  all_goals exact h

theorem State.MemWf.countNarrow {c : Nat} {sc : Scope} (h : s.MemWf) : (s.countNarrow c sc).MemWf := by
  unfold State.countNarrow
  split <;> exact h

theorem State.MemWf.putItem {k : Nat} {i : Item} (h : s.MemWf) : (s.putItem k i).MemWf := by
  unfold State.putItem
  split
  · exact h.ite h.updB
  · exact h.updB
  · exact h.sysWrite
  · exact h.updB
  · exact h.countNarrow.updB
  · exact h.updB
  next d tl c =>
    have h' : (s.reserve tl c.ctx).2.MemWf := h
    exact h'.updB.ite h'.updB.updB

theorem State.MemWf.putItems {k : Nat} (h : s.MemWf) (l : List Item) : (s.putItems k l).MemWf := by
  induction l generalizing s with
  | nil => exact h
  | cons i r ih => exact ih h.putItem

/-! ## Held operations -/

theorem State.MemWf.unhold {k : Nat} {f : Barge → Barge} (h : s.MemWf) : (s.unhold k f).MemWf := h.updB

theorem State.MemWf.performSpan {c : Nat} (h : s.MemWf) : (s.performSpan c).MemWf := MemSt.wf_spread _ _ h

theorem State.MemWf.emptyReceipt {k w o n : Nat} (h : s.MemWf) : (s.emptyReceipt k w o n).MemWf := h.updB.updB

theorem State.MemWf.tryLoadFull {k pc d w o ea : Nat} {keep : Bool} (h : s.MemWf) : (s.tryLoadFull k pc d w o ea keep).Wf := by
  unfold State.tryLoadFull
  dsimp only
  split
  · exact h
  · split
    · exact h.unhold
    · exact (h.ite h.updB).unhold

theorem State.MemWf.tryStoreEmpty {k w o : Nat} {v : Word} (h : s.MemWf) : (s.tryStoreEmpty k w o v).Wf := by
  unfold State.tryStoreEmpty
  split
  · exact h
  · exact h.performSpan.updB.unhold

theorem State.MemWf.tryAtomic {k pc op d ea pa vc : Nat} {z : Bool} {sc : Scope} {x c : Word} (h : s.MemWf) :
    (s.tryAtomic k pc op z sc d ea pa vc x c).Wf := by
  unfold State.tryAtomic
  extract_lets b n poison result r s1 old new s2
  have hr : r.1.MemWf := State.memWf_lastAt _ _ _ _ (State.memWf_performAt _ _ _ h)
  have h1 : s1.MemWf := State.memWf_touchLoad _ _ _ _ hr.countNarrow
  have h2 : s2.MemWf := .ite h1 (State.memWf_mergeMem _ _ _ _ h1)
  clear_value s2 r
  split
  · exact State.memWf_enqueue _ _ h
  · split
    · exact h.unhold
    · split
      · exact h
      · split
        · exact h.noAnswer
        · split
          · exact hr.unhold
          · exact h2.unhold

theorem State.MemWf.tryRecv {k w o : Nat} {c : Option Nat} {poll : Bool} (h : s.MemWf) : (s.tryRecv k c w o poll).Wf := by
  unfold State.tryRecv
  dsimp only
  split
  · exact h.emptyReceipt
  · split
    · exact State.MemWf.emptyReceipt h
    · split
      · split
        · exact h.emptyReceipt
        · exact h.requestMsg
      · exact h.requestMsg

theorem State.MemWf.tryCall {k w o : Nat} {e : Word} {ws : List Word} {t : Option Nat} (h : s.MemWf) :
    (s.tryCall k e w o ws t).Wf := by
  unfold State.tryCall
  dsimp only
  split
  · exact h
  · split
    · exact h.emptyReceipt
    · split
      · exact h
      · exact (State.MemWf.freshOf (State.memWf_drainAll h)).updB.post

theorem State.MemWf.tryHeld {k : Nat} {x : Held} (h : s.MemWf) : (s.tryHeld k x).Wf := by
  have hwait {c : Prop} [Decidable c] : (if c then Try.done (s.unhold k id) none else .wait s).Wf := by
    split
    · exact h.unhold
    · exact h
  unfold State.tryHeld
  split
  · exact h.tryLoadFull
  · exact h.tryLoadFull
  · exact h.tryStoreEmpty
  · split
    · exact h
    · exact h.unhold
  · exact hwait
  · exact hwait
  · exact h.tryRecv
  · exact h.tryCall
  · exact h.tryAtomic

theorem State.MemWf.wakeHeld {k : Nat} (h : s.MemWf) : (s.wakeHeld k).MemWf := by
  unfold State.wakeHeld
  split
  · exact h
  · split
    · exact h
    next x _ =>
      have ht := h.tryHeld (k := k) (x := x)
      split
      · exact h
      · split
        next t e => rw [e] at ht; exact ht
        next t y e =>
          rw [e] at ht
          have ht' := State.memWf_leaveQueue k (s := t) ht
          dsimp only
          split
          · exact ht'.takeExc
          · exact ht'.takeExc
          · exact ht'

/-! ## Commits -/

theorem State.MemWf.yieldBarge {k : Nat} (h : s.MemWf) : (s.yieldBarge k).MemWf := h.makeReady.updB

theorem State.MemWf.follow {k : Nat} {f : Follow} (h : s.MemWf) : (s.follow k f).MemWf := by
  unfold State.follow
  split
  · exact h
  · exact h.takeExc
  · exact State.MemWf.wakeHeld (State.MemWf.updB h)
  · exact h.updB.yieldBarge
  · exact h.endBarge

theorem State.MemWf.endLeases {k : Nat} {f : Barge → Barge} (h : s.MemWf) : (s.endLeases k f).MemWf :=
  have h' : (s.setMem ((s.barge k).leases.foldl (fun m l => m.settle allDies (64 * l.granule) 64) s.mem)).MemWf :=
    foldl_keeps (P := fun m : MemSt => m.wf = true) (fun _ _ h => MemSt.wf_settle _ _ _ h) _ h
  State.memWf_leaveQueue k h'.updB

theorem State.MemWf.goCommit {k : Nat} (h : s.MemWf) : (s.goCommit k).MemWf := by
  unfold State.goCommit
  split
  · exact h
  · have h' := h.endLeases (k := k) (f := Barge.sealed)
    dsimp only
    split
    · exact State.MemWf.ite h'.updB.follow h'
    · exact State.MemWf.ite h.updB.follow h

end Sys2Proof.Machine
end

section
namespace Sys2Proof.Machine

variable {s : State}

theorem State.MemWf.setB {k : Nat} {b : Barge} (h : s.MemWf) : (s.setB k b).MemWf := h

/-! ## Commands that their engines accept -/

theorem State.MemWf.resetCmds {f q n : Nat} (h : s.MemWf) (l : List SCmd) : (resetCmds s f q n l).MemWf := by
  induction l with
  | nil => exact h
  | cons c r ih =>
    unfold Machine.resetCmds
    extract_lets s1 st s2 s3
    have h3 : s3.MemWf := by
      unfold s3
      split
      · exact (State.MemWf.finish ih).updB
      · exact State.MemWf.finish ih
    clear_value s3
    split
    · split
      · exact h3.updB
      · exact h3
    · exact ih

theorem State.MemWf.acceptSluice {k n : Nat} {c : Cmd} (h : s.MemWf) : (s.acceptSluice k n c).MemWf := by
  have hd := State.memWf_drainAll h
  unfold State.acceptSluice
  dsimp only
  split
  · split
    · exact State.MemWf.finish hd
    · exact State.MemWf.finish hd
  · exact State.MemWf.finish (State.MemWf.resetCmds hd _)
  · exact State.MemWf.updB (.ite h.updB h)

theorem State.MemWf.acceptMatrix {n : Nat} {c : Cmd} (h : s.MemWf) : (s.acceptMatrix n c).MemWf := State.MemWf.ite h.updB h

theorem State.MemWf.touchRecs (h : s.MemWf) (l : List RecAt) : (s.touchRecs l).MemWf :=
  h.foldl (fun r h => by split; exacts [State.memWf_touchRead _ _ _ h, h]) l

theorem State.MemWf.create {c : Nat} {g : Bool} {d : List Word} {p : Option (Nat × Nat)} (h : s.MemWf) :
    (s.create c g d p).2.MemWf := by
  unfold State.create
  extract_lets recVa n recs succW succ st s0 ctl first ids s1 s2 s3
  have h0 : s0.MemWf := h.touchRecs recs
  have h1 : s1.MemWf := State.MemWf.foldl (s := { s0 with nextBid := s0.nextBid + n }) h0 (fun ⟨_, _⟩ h => h.setB) _
  have h2 : s2.MemWf := h1.foldl (fun _ h => h.seekReady) _
  have h3 : s3.MemWf := h2.foldl (fun _ h => State.memWf_ownWrite _ _ _ _ h) _
  clear_value s3 s0
  split
  · exact h0
  · exact h3

theorem State.MemWf.spawnCmd {g : Bool} {c : Cmd} (h : s.MemWf) : (s.spawnCmd g c).MemWf := by
  have h' := h.create (c := c.ctx) (g := g) (d := c.args) (p := (s.barge c.barge).packet)
  unfold State.spawnCmd
  dsimp only
  split
  · exact h'.updB
  · exact h'

theorem State.MemWf.pdecCmd {c : Cmd} (h : s.MemWf) : (s.pdecCmd c).MemWf := by
  unfold State.pdecCmd
  split
  · exact State.MemWf.ite h.decPred h
  · exact h

theorem State.MemWf.affinCmd {c : Cmd} (h : s.MemWf) : (s.affinCmd c).MemWf := by
  unfold State.affinCmd
  split
  · exact h.foldl (fun _ h => h.updB) _
  · exact h

theorem State.MemWf.accept {k n : Nat} {c : Cmd} (h : s.MemWf) : (s.accept k n c).MemWf := by
  unfold State.accept
  extract_lets s1
  have h1 : s1.MemWf := by
    unfold s1
    split
    · exact State.MemWf.ite h h
    · exact h
  clear_value s1
  have hd := State.memWf_drainAll h1
  split
  iterate 7 exact h1.acceptSluice
  iterate 11 exact h1.acceptMatrix
  iterate 14 exact h1
  · exact hd.spawnCmd
  · exact hd.spawnCmd
  · exact hd.pdecCmd
  · exact hd.updB
  · exact hd.affinCmd

/-! ## The release of effects, and commits -/

theorem State.MemWf.perform {k : Nat} {e : Effect} (h : s.MemWf) : (s.perform k e).MemWf := by
  unfold State.perform
  dsimp only
  split
  · exact State.memWf_releaseStore _ _ _ _ h
  · exact h.updB
  · exact h.updB
  · exact State.memWf_releaseMerge _ _ _ (State.memWf_performAt _ _ _ h.countNarrow)
  · exact State.memWf_releaseMerge _ _ _ (State.memWf_performAt _ _ _ h.countNarrow)
  · exact State.memWf_performAt _ _ _ h
  · exact h.performSpan.updB
  · exact h.updB
  · exact h.updB
  · exact h.accept

theorem State.MemWf.performAll {k : Nat} (h : s.MemWf) (l : List Effect) : (performAll k s l).MemWf := by
  induction l generalizing s with
  | nil => exact h
  | cons e r ih => exact State.MemWf.ite h (ih h.updB.perform)

theorem State.MemWf.goLate {k : Nat} (h : s.MemWf) : (s.goLate k).MemWf := (h.performAll _).goCommit

theorem State.MemWf.commitRegion {k a : Nat} {f : Follow} (h : s.MemWf) : (s.commitRegion k a f).MemWf := by
  unfold State.commitRegion
  split
  · exact h
  · exact State.MemWf.goLate h

theorem State.MemWf.endRun {k : Nat} {r : Run} {f : Finish} (h : s.MemWf) : (s.endRun k r f).MemWf := by
  unfold State.endRun
  extract_lets en x site fx s1 s2 a
  have h2 : s2.MemWf := (h.putItems r.items).updB
  clear_value s2 fx
  split
  · split
    · exact h2.updB
    · exact h2.commitRegion
  · split
    · exact h2.updB
    · exact h2.commitRegion
  · split
    case h_4 =>
      split
      · exact h2.commitRegion
      · exact h2.commitRegion
    all_goals exact h2.commitRegion

theorem State.MemWf.leave {k : Nat} {st : Bool} {o : WOut} (h : s.MemWf) : (s.leave k st o).MemWf := by
  unfold State.leave
  split
  · exact h
  next b _ =>
    have hi : (s.issued b).MemWf := h
    split
    · exact h
    · split
      · exact h.restand
      · exact h.restand.noAnswer
      · exact hi.takeExc
      · exact hi.updB
      · extract_lets fx r'
        exact .ite (State.memWf_doneWaiting _ hi.endRun) (State.memWf_doneWaiting _ hi.updB)
      · exact State.memWf_doneWaiting _ hi.endRun

/-! ## Words that issue -/

theorem State.MemWf.issue {st : Bool} {f : WCtx → WOut} (h : s.MemWf) : OutWf (issue s st f) := by
  obtain ⟨_, _, _, e⟩ | e := issue_cases s st f
  · exact e ▸ h.leave.toNext
  · exact e ▸ .fault _

theorem State.MemWf.issueWith {st : Bool} {f : WCtx → State × WOut} (h : s.MemWf)
    (hf : ∀ c : WCtx, c.s.MemWf → (f c).1.MemWf) : OutWf (issueWith s st f) := by
  obtain ⟨b, r, _, e⟩ | e := issueWith_cases s st f
  · exact e ▸ (hf _ h).leave.toNext
  · exact e ▸ .fault _

/-! ## What a word leaves where it issues: caches, translations, a lease -/

theorem State.MemWf.fillOne {p : Nat} {l : List Nat} (h : s.MemWf) : (s.fillOne p l).MemWf := State.MemWf.ite h h

theorem State.MemWf.fill {p : Nat} {l : List Nat} (h : s.MemWf) : (s.fill p l).MemWf := by
  unfold State.fill
  extract_lets t miss
  split
  · exact h
  · split
    · exact h.fillOne.fillOne
    · exact h.fillOne

theorem State.MemWf.useNodes {k : Nat} {l : List Nat} (h : s.MemWf) : (s.useNodes k l).MemWf := h.fill.updB

theorem State.MemWf.readSeg {c : Nat} {home : Bool} {g : Seg} (h : s.MemWf) : (s.readSeg c home g).1.MemWf := by
  unfold State.readSeg
  split
  · exact MemSt.wf_atHome _ _ _ _ h
  · exact h

theorem State.MemWf.readSegs {c : WCtx} {home : Bool} (h : s.MemWf) (l : List Seg) : (c.readSegs home s l).1.MemWf := by
  induction l generalizing s with
  | nil => exact h
  | cons g gs ih => exact ih h.readSeg

theorem State.MemWf.touchSegs {c : Nat} {spc : Space} (h : s.MemWf) (l : List Seg) : (s.touchSegs c spc l).MemWf :=
  h.foldl (fun _ h => h.foldl (fun _ h => State.memWf_touchLoad _ _ _ _ h) _) l

section
variable {c : WCtx}

theorem WCtx.load_wf {ea : Word} {n : Nat} {spc : Space} {bs : List Byte} (h : c.s.MemWf) (e : c.load ea n spc = .got s bs) :
    s.MemWf := by
  unfold WCtx.load at e
  split at e
  · split at e
    · exact absurd e nofun
    · exact (Load.got.inj e).1 ▸ h
  · split at e
    · exact absurd e nofun
    · split at e
      · exact absurd e nofun
      · exact (Load.got.inj e).1 ▸ (State.MemWf.readSegs h _).useNodes.touchSegs _

/-- A word whose granule has been checked uses its node, and leaves the rest to its commit. -/
theorem WCtx.checked_wf {g : Except WOut Seg} {f : Seg → WOut} (h : c.s.MemWf) :
    (match g with | .error o => (c.s, o) | .ok g => (c.s.useNodes c.bid [g.node], f g)).1.MemWf := by
  split
  · exact h
  · exact h.useNodes

theorem WCtx.store_wf (h : c.s.MemWf) (ea : Word) (bs : List Byte) (spc : Space) : (c.store ea bs spc).1.MemWf := by
  unfold WCtx.store
  split
  · split <;> exact h
  · split
    · exact h
    · exact h.useNodes

theorem WCtx.loadScalar_wf (h : c.s.MemWf) (d base lg x : Nat) (spc : Space) (sign : Bool) :
    (c.loadScalar d base lg x spc sign).1.MemWf := by
  unfold WCtx.loadScalar
  extract_lets ea
  split
  · split
    · exact h
    next e => exact WCtx.load_wf h e
  · exact h

theorem WCtx.storeScalar_wf (h : c.s.MemWf) (d base lg x : Nat) (spc : Space) : (c.storeScalar d base lg x spc).1.MemWf := by
  unfold WCtx.storeScalar
  extract_lets ea
  split
  · exact WCtx.store_wf h _ _ _
  · exact h

end

theorem State.MemWf.atomic {op d a b : Nat} {z : Bool} {sc : Scope} (h : s.MemWf) : OutWf (atomic s op d a b z sc) :=
  h.issueWith fun _ h => WCtx.checked_wf h

theorem State.MemWf.reduction {st : Bool} {op a b : Nat} {z : Bool} {sc : Scope} (h : s.MemWf) :
    OutWf (reduction s st op a b z sc) :=
  h.issueWith fun _ h => WCtx.checked_wf h

theorem State.MemWf.execXaadd {st : Bool} {a b : Nat} {sc : Scope} {t : XTy} (h : s.MemWf) : OutWf (execXaadd st a b sc t s) :=
  h.issueWith fun _ h => WCtx.checked_wf h

theorem State.MemWf.execXard {st : Bool} {d a : Nat} {r : Rnd} {f : Bool} (h : s.MemWf) : OutWf (execXard st d a r f s) :=
  h.issueWith fun c h => by
    dsimp only
    split
    · split
      · exact h
      next e => exact WCtx.load_wf h e
    · exact h

theorem State.MemWf.execVld {st : Bool} {d b x : Nat} {spc : Space} (h : s.MemWf) : OutWf (execVld st d b spc x s) :=
  h.issueWith fun c h => by
    dsimp only
    split
    · split
      · exact h
      next e => exact WCtx.load_wf h e
    · exact h

theorem State.MemWf.execVst {st : Bool} {d b x : Nat} {spc : Space} (h : s.MemWf) : OutWf (execVst st d b spc x s) :=
  h.issueWith fun c h => by
    dsimp only
    split
    · exact WCtx.store_wf h _ _ _
    · exact h

theorem State.MemWf.execFence {st : Bool} {sc : Scope} (h : s.MemWf) : OutWf (execFence st sc s) :=
  h.issueWith fun c h => by
    split
    · exact h
    · exact State.memWf_performAt _ _ _ h

theorem State.MemWf.execLease {st : Bool} {a : Nat} (h : s.MemWf) : OutWf (execLease st a s) :=
  h.issueWith fun c h => by
    extract_lets ea
    split
    · exact h
    next g _ =>
      extract_lets k s1 s2 s3 st
      have h1 : s1.MemWf := State.memWf_giveBack _ h
      have h2 : s2.MemWf := (State.MemWf.useNodes (State.memWf_touchRead _ _ _ h1)).updB
      have h3 : s3.MemWf := MemSt.wf_settle _ _ _ h2
      clear_value s3
      split
      · exact h
      · split
        · exact h
        · split
          · exact h
          · split
            · exact h
            · split
              · exact h
              · exact State.memWf_useL1 _ _ (State.memWf_setL1 _ h3)

end Sys2Proof.Machine
end

section
namespace Sys2Proof.Machine

variable {s : State}

/-! ## Registers that an event writes, and held operations that go on -/

theorem State.MemWf.sysStep {k n : Nat} {v : Word} (h : s.MemWf) : (s.sysStep k n v).MemWf := by
  unfold State.sysStep
  split
  · exact h
  · split
    · exact h
    · split
      · exact h.takeExc
      · exact State.MemWf.ite h h.sysWrite

theorem State.MemWf.goOn {k : Nat} (h : s.MemWf) : (s.goOn k).MemWf := by
  unfold State.goOn
  split
  · exact h
  · split
    · exact h
    · exact h.wakeHeld.ite h

/-! ## Matrix arrays -/

theorem State.MemWf.setArr {a : ArraySt} (h : s.MemWf) : (s.setArr a).MemWf := h

theorem State.MemWf.matrixBegin {f : Nat} (h : s.MemWf) : (s.matrixBegin f).MemWf := by
  unfold State.matrixBegin
  split
  · exact h
  · split
    · exact h
    · extract_lets s1 st arr s2
      have h2 : s2.MemWf := State.MemWf.setArr (MemSt.wf_spread _ _ h)
      clear_value s2 st
      split
      · exact State.MemWf.ite h2 h2
      · exact State.MemWf.ite h2 h2
      · exact h2

theorem State.MemWf.matrixEffect {r : MRun} (h : s.MemWf) : (s.matrixEffect r).2.MemWf := by
  unfold State.matrixEffect
  extract_lets core c a f
  split
  case h_2 => dsimp only; split <;> exact h
  case h_5 =>
    split
    · exact h
    · exact h.updB
  all_goals exact h

theorem State.MemWf.refusal {c n : Nat} (h : s.MemWf) : (s.refusal c n).MemWf := State.MemWf.ite h h

theorem State.MemWf.matrixComplete {f : Nat} (h : s.MemWf) : (s.matrixComplete f).MemWf := by
  unfold State.matrixComplete
  split
  · exact h
  next r _ =>
    extract_lets c e s1 arr s2 s3
    have h1 : e.2.MemWf := by
      unfold e
      split
      · exact h.matrixEffect
      · exact h
    have h2 : s2.MemWf := State.MemWf.setArr h1
    have h3 : s3.MemWf := .ite h2.updB h2
    exact h3.refusal.finish.reap

theorem State.MemWf.releaseTurn {core : Nat} (h : s.MemWf) : (s.releaseTurn core).MemWf := by
  unfold State.releaseTurn
  split
  · exact h
  · extract_lets f a b
    split
    · split
      · exact (State.MemWf.finish h.setArr).reap
      · exact h
    · exact h

/-! ## Sluices -/

theorem State.MemWf.setSluice {f : Nat} {l : List SCmd} (h : s.MemWf) : (s.setSluice f l).MemWf := h
theorem State.MemWf.updSc {f q n : Nat} {g : SCmd → SCmd} (h : s.MemWf) : (s.updSc f q n g).MemWf := h

theorem State.MemWf.slTouch (h : s.MemWf) (l : List Piece) : (s.slTouch l).MemWf :=
  h.foldl (fun _ h => .ite (State.memWf_touchRead _ _ _ h) h) l

theorem State.MemWf.sendLink {f j : Nat} {c : SCmd} {r : Resolved} (h : s.MemWf) : (s.sendLink f c j r).MemWf :=
  h.slTouch _

theorem State.MemWf.slBegin {f q : Nat} (h : s.MemWf) : (s.slBegin f q).MemWf := by
  unfold State.slBegin
  split
  · exact h
  next sc _ =>
    extract_lets s1 cr w same slu s2 r v peer s3
    have h1 : s1.MemWf := State.memWf_drainAll h
    have h2 : s2.MemWf := h1
    have h3 : s3.MemWf := h2.updSc.fill
    clear_value s3 peer
    split
    · exact h3
    · exact .ite h3.sendLink h3

theorem State.MemWf.slFinish {f code pgran done : Nat} {sc : SCmd} (h : s.MemWf) : (s.slFinish f sc code pgran done).MemWf := by
  unfold State.slFinish
  extract_lets c s1 s2 s3 s4
  have h1 : s1.MemWf := h
  have h2 : s2.MemWf := by
    unfold s2
    split
    · exact h1.updB
    · exact h1
  have h3 : s3.MemWf := .ite h2.updB h2
  have h4 : s4.MemWf := State.memWf_serveLeaseQ (State.memWf_unqueue _ h3)
  have h5 : (s4.count c.ctx 3 done).MemWf := h4
  exact h5.refusal.finish.reap

theorem State.MemWf.warm {vc pa n : Nat} (h : s.MemWf) : (s.warm vc pa n).MemWf :=
  .ite h (h.foldl (fun _ h => State.memWf_touchLine _ _ _ _ _ h) _)

theorem State.MemWf.cool {vc pa n : Nat} (h : s.MemWf) : (s.cool vc pa n).MemWf := by
  unfold State.cool
  split
  · exact h
  · exact State.memWf_setLines _ h

theorem State.MemWf.hint {c : Cmd} {r : Resolved} (h : s.MemWf) : (s.hint c r).MemWf :=
  h.foldl (fun _ h => .ite h (.ite h.warm (.ite h.cool h))) _

theorem State.MemWf.slWrite {c : Cmd} {fe : Bool} {p : Piece} {bs : List PByte} (h : s.MemWf) : (s.slWrite c fe p bs).MemWf := by
  unfold State.slWrite
  extract_lets raw zeroed s1 s2
  have h1 : s1.MemWf := State.memWf_touchWrite _ _ _ _ h
  have h2 : s2.MemWf := .ite h1.warm h1
  clear_value s2
  split
  · split
    · exact h
    · exact State.memWf_putMem _ _ h2
  · split
    · exact h.updB
    · split <;> exact h

theorem State.MemWf.unpoison (h : s.MemWf) (l : List Piece) : (s.unpoison l).MemWf :=
  State.MemWf.foldl (State.MemWf.setArr (State.memWf_setPoison _ h)) (fun _ h => h.updB) _

theorem State.MemWf.markGran {g : Nat × Nat × Nat} (h : s.MemWf) : (s.markGran g).MemWf :=
  .ite (State.memWf_poisonRange _ _ h) (.ite h.updB h.setArr)

theorem State.MemWf.deliver2 {c : Cmd} {w : List (List (Piece × List PByte))} (h : s.MemWf) : (s.deliver2 c w).1.MemWf :=
  have hw := h.foldl (fun _ h => h.foldl (fun _ h => h.slWrite) _) _
  (hw.unpoison _).foldl (fun _ h => h.markGran) _

theorem State.MemWf.slWhole {f : Nat} {sc : SCmd} {r : Resolved} {src : List (List PByte)} (h : s.MemWf) :
    (s.slWhole f sc r src).MemWf :=
  State.MemWf.slFinish (State.memWf_drainAll (State.MemWf.deliver2 (h.slTouch _)))

theorem State.MemWf.deliverPart {c : Cmd} {r : Resolved} {src : List (List PByte)} {u k : Piece → Nat → Bool} (h : s.MemWf) :
    (s.deliverPart c r src u k).1.MemWf := h.deliver2

theorem State.MemWf.slPartly {f code : Nat} {sc : SCmd} {r : Resolved} {src : List (List PByte)} (h : s.MemWf) :
    (s.slPartly f sc code r src).MemWf := by
  unfold State.slPartly
  extract_lets d t
  have ht : t.MemWf := State.memWf_drainAll (State.MemWf.deliverPart (h.slTouch _))
  exact State.MemWf.slFinish ht

theorem State.MemWf.slAnswered {f st : Nat} {sc : SCmd} {r : Resolved} {data : List PByte} (h : s.MemWf) :
    (s.slAnswered f sc r data st).MemWf := by
  unfold State.slAnswered
  extract_lets src w n s1
  have h1 : s1.MemWf := State.memWf_drainAll (h.foldl (fun _ h => State.memWf_unpoisoned _ _ h) _)
  clear_value s1
  split
  · split
    · exact h.slWhole
    · exact .ite h.slPartly h.slFinish
  · exact .ite h1.slFinish h.slFinish

theorem State.MemWf.slComplete {f q n : Nat} (h : s.MemWf) : (s.slComplete f q n).MemWf := by
  unfold State.slComplete
  split
  · exact h
  next sc _ =>
    extract_lets r w v src
    clear_value r w v src
    split
    · exact h
    · split
      · exact h.slFinish
      · split
        · exact h.slFinish
        · split
          · split
            · exact h.sendLink
            · exact h
          · split
            · exact State.memWf_enqueue _ _ h
            · split
              · exact State.MemWf.slFinish (.ite h.hint h)
              · split
                · exact .ite h.slAnswered h.slPartly
                · exact .ite h.slWhole h.slPartly

theorem State.MemWf.logBoth {code src d : Nat} (h : s.MemWf) : (s.logBoth code src d).MemWf :=
  State.memWf_logEvent _ _ _ _ (State.memWf_logEvent _ _ _ _ h)

theorem State.MemWf.isolate {t : Nat} (h : s.MemWf) : (s.isolate t).MemWf := h

theorem State.MemWf.isolateFor {t c : Nat} (h : s.MemWf) : (s.isolateFor t c).MemWf :=
  .ite h (.ite h.isolate.logBoth (State.memWf_logEvent _ _ _ _ h.isolate))

theorem State.MemWf.slTimeout {f q n : Nat} (h : s.MemWf) : (s.slTimeout f q n).MemWf := by
  unfold State.slTimeout
  split
  · exact h
  · extract_lets r w hung
    split
    · exact h
    · extract_lets mine d u
      have hu : u.MemWf := State.memWf_drainAll (State.MemWf.deliverPart (h.slTouch _))
      clear_value u d
      split
      · exact h
      · split
        · exact State.memWf_enqueue _ _ h
        · exact State.MemWf.slFinish (State.MemWf.isolateFor hu)

/-! ## Cache composers -/

theorem State.MemWf.comFinish {v code : Nat} (h : s.MemWf) : (s.comFinish v code).MemWf := by
  unfold State.comFinish
  split
  · exact h
  · exact State.MemWf.finish (State.MemWf.refusal h)

theorem State.MemWf.markShares {d k : Nat} {l : List Nat} (h : s.MemWf) : (s.markShares d k l).MemWf := h
theorem State.MemWf.updUsed {p d : Nat} {f : Nat → Nat} (h : s.MemWf) : (s.updUsed p d f).MemWf := h
theorem State.MemWf.setVc {k : Nat} {v : VCache} (h : s.MemWf) : (s.setVc k v).MemWf := h

theorem State.MemWf.retire {k : Nat} {v : VCache} (h : s.MemWf) : (s.retire k v).MemWf :=
  .ite h (State.MemWf.comFinish h.markShares.updUsed.setVc)

theorem State.MemWf.behindLeases {k : Nat} {w : List Nat} {go : State → State} (h : s.MemWf)
    (hgo : ∀ {t : State}, t.MemWf → (go t).MemWf) : OptWf (s.behindLeases k w go) := by
  unfold State.behindLeases
  split
  · exact (State.memWf_serveLeaseQ (hgo (State.memWf_unqueue _ h))).toSome
  · split
    · exact (State.memWf_enqueue _ _ h).toSome
    · exact .none

theorem State.MemWf.flushLines {c k b n : Nat} {v : VCache} {drop : Bool} (h : s.MemWf) : (s.flushLines c k b n v drop).MemWf := by
  unfold State.flushLines
  extract_lets s1 hit l1 mine m s2
  have h1 : s1.MemWf := State.memWf_giveBack _ h
  have h2 : s2.MemWf := by
    unfold s2
    split
    · exact h1
    · exact h1
  exact State.memWf_setLines _ (State.memWf_setL1 _ h2)

theorem State.MemWf.maintain {c w n : Nat} {drop : Bool} (h : s.MemWf) : (s.maintain c w n drop).MemWf := by
  unfold State.maintain
  extract_lets vcid base
  split
  · exact h
  · extract_lets used t
    have ht : t.MemWf := .ite (State.memWf_wipe _ h) h.flushLines
    exact ht.fill

theorem State.MemWf.takeShares {k n : Nat} {v : VCache} (h : s.MemWf) : (s.takeShares k v n).2.MemWf := h

theorem State.MemWf.define {k n : Nat} {c : Cmd} (h : s.MemWf) : (s.define k n c).MemWf := by
  unfold State.define
  extract_lets w0 v r s1
  have h1 : s1.MemWf := State.MemWf.setVc h.takeShares
  exact .ite (State.memWf_wipe _ h1) h1

theorem State.MemWf.beginResize {k n m : Nat} {v : VCache} (h : s.MemWf) : (s.beginResize k n m v).MemWf := by
  unfold State.beginResize
  extract_lets len r v' s1
  have hr : r.2.MemWf := by
    unfold r
    split <;> exact h
  exact State.memWf_setLines _ (hr.setVc (k := k) (v := v'))

theorem State.MemWf.dropVc {k : Nat} {v : VCache} (h : s.MemWf) : (s.dropVc k v).MemWf := by
  unfold State.dropVc
  extract_lets mine s1 s2 s3
  have h2 : s2.MemWf := State.memWf_setLines _ h.markShares.updUsed
  have h3 : s3.MemWf := .ite (State.memWf_wipe _ h2) h2
  exact h3

theorem State.MemWf.comNext {k : Nat} (h : s.MemWf) : OptWf (s.comNext k) := by
  unfold State.comNext
  extract_lets v s1
  have h1 : s1.MemWf := State.memWf_drainAll h
  split
  · exact .none
  · split
    · split
      · exact h.retire.toSome
      · exact .none
    · split
      · exact .none
      next n c _ _ =>
        extract_lets code upkeep m
        have hup (drop : Bool) : OptWf (upkeep drop) := h1.behindLeases fun h => h.maintain.comFinish
        clear_value s1 upkeep
        split
        · exact .none
        · split
          · exact h1.comFinish.toSome
          · split
            · exact h1.define.comFinish.toSome
            · split
              · exact h1.comFinish.toSome
              · split
                · exact h1.beginResize.comFinish.toSome
                · exact h1.beginResize.toSome
            · exact h1.setVc.comFinish.toSome
            · split
              · exact h1.behindLeases fun h => h.dropVc.comFinish
              · exact h1.setVc.toSome
            · exact hup _
            · exact hup _
            · exact .none

theorem State.MemWf.moveLine {k : Nat} (h : s.MemWf) : (s.moveLine k).MemWf := by
  unfold State.moveLine
  split
  · exact .ite (h.foldl (fun _ h => State.memWf_lastInLine _ h) _) (State.memWf_shiftLine _ _ _ _ h)
  · exact h

theorem State.MemWf.shiftAgain {k : Nat} {v w : VCache} (h : s.MemWf) : (s.shiftAgain k v w).MemWf :=
  State.MemWf.foldl (State.memWf_setLines _ h) (fun _ h => .ite h (State.memWf_shiftLine _ _ _ _ h)) _

theorem State.MemWf.shrinkBy {k n : Nat} {v : VCache} (h : s.MemWf) : (s.shrinkBy k v n).MemWf := by
  unfold State.shrinkBy
  extract_lets v' s1
  have h1 : s1.MemWf := h.setVc.updUsed
  exact .ite (.ite h1.shiftAgain h1) (State.memWf_setLines _ h1)

theorem State.MemWf.loseLines {k n : Nat} {v : VCache} (h : s.MemWf) : (s.loseLines k v n).MemWf :=
  State.memWf_setLines _ (h.foldl (fun _ h => State.memWf_poisonRange _ _ h) _)

theorem State.MemWf.replaceShare {k a b : Nat} {v : VCache} (h : s.MemWf) : (s.replaceShare k v a b).MemWf :=
  State.memWf_poisonRange _ _ h.markShares.setVc

theorem State.MemWf.withdrawShare {d k : Nat} (h : s.MemWf) : (s.withdrawShare d k).MemWf := by
  unfold State.withdrawShare
  extract_lets t s1 s0
  have h0 : s0.MemWf := h.logBoth.markShares
  clear_value s0
  split
  · exact h
  · split
    · exact h0
    · extract_lets id s2
      split
      · exact h0.loseLines.shrinkBy
      · split
        · exact h0.replaceShare
        · split
          · exact h0.shrinkBy.replaceShare
          · exact State.MemWf.logBoth h0

end Sys2Proof.Machine
end

section
namespace Sys2Proof.Machine

variable {s : State}

/-! ## The mapping engine -/

theorem State.MemWf.mapFinish {c code : Nat} (h : s.MemWf) : (s.mapFinish c code).MemWf := by
  unfold State.mapFinish
  split
  · exact h
  · exact State.MemWf.finish (State.MemWf.refusal h)

theorem State.MemWf.carve {p : MapPiece} {n : Nat} (h : s.MemWf) : (s.carve p n).2.MemWf := by
  unfold State.carve
  extract_lets r
  have hr : r.2.MemWf := by
    unfold r
    split <;> exact h
  split
  · exact hr
  · exact hr

theorem State.MemWf.unmapStep {c : Cmd} {ex : Bool} (h : s.MemWf) : (s.unmapStep c ex).2.2.MemWf := by
  unfold State.unmapStep
  extract_lets l gone map seq s1 r
  have hr : r.2.MemWf := by
    refine foldl_keeps (P := fun a : List Nat × State => a.2.MemWf) (fun a p h => ?_) _ h
    exact h.carve
  clear_value r
  split
  · exact State.MemWf.ite h h
  · exact hr

theorem State.MemWf.shoot {c n : Nat} {l k : List Nat} {z : List (Nat × Nat)} (h : s.MemWf) : (s.shoot c n l k z).MemWf := h
theorem State.MemWf.withdraw {l : List Nat} (h : s.MemWf) : (s.withdraw l).MemWf := h
theorem State.MemWf.useToken {n : Nat} (h : s.MemWf) : (s.useToken n).MemWf := h

theorem State.MemWf.updCtx {c : Nat} {f : Ctx → Ctx} (h : s.MemWf) : (s.updCtx c f).MemWf := h

theorem State.MemWf.callsDead {c : Nat} (h : s.MemWf) : (s.callsDead c).MemWf := by
  refine h.foldl (fun e h => ?_) _
  dsimp only
  split
  · exact h.useToken.emptyReceipt
  · exact h.useToken

theorem State.MemWf.dying {c : Nat} {z : List (Nat × Nat)} (h : s.MemWf) : (s.dying c z).2.MemWf := by
  unfold State.dying
  extract_lets s1 bs s2 map s3 s4 gone hit zero map' s5
  have h2 : s2.MemWf := State.MemWf.foldl (State.MemWf.updCtx h) (fun _ h => h.abortRegion.endBarge) _
  have h3 : s3.MemWf := h2
  have h5 : s5.MemWf := State.MemWf.ite h3.callsDead h3.callsDead
  exact h5.withdraw.shoot

theorem State.MemWf.tdiErrors {c n : Nat} (h : s.MemWf) : (s.tdiErrors c n).MemWf := by
  refine h.foldl (fun k h => ?_) _
  exact State.memWf_logEvent _ _ _ _ h

theorem State.MemWf.kill {f c : Nat} {z : List (Nat × Nat)} (h : s.MemWf) : (State.kill f s c z).MemWf := by
  induction f generalizing s c z with
  | zero => exact h
  | succ f ih => exact .ite h (h.dying.foldl (fun _ h => ih h.tdiErrors) _)

theorem State.MemWf.killCtx {c : Nat} {z : List (Nat × Nat)} (h : s.MemWf) : (s.killCtx c z).MemWf := h.kill

theorem State.MemWf.withdrawStep {c n : Nat} {l k : List Nat} (h : s.MemWf) : (s.withdrawStep c n l k).MemWf :=
  h.withdraw.shoot.foldl (fun _ h => h.tdiErrors.killCtx) _

theorem State.MemWf.replyFault {k : Nat} {w : List Word} (h : s.MemWf) : OptWf (s.replyFault k w) := by
  unfold State.replyFault
  extract_lets r s1
  have h1 : s1.MemWf := h.updB
  split
  · exact .none
  · split
    · exact h1.endBarge.toSome
    · exact h1.makeReady.toSome

theorem State.MemWf.replyCmd {c : Cmd} (h : s.MemWf) : (s.replyCmd c).2.MemWf := by
  unfold State.replyCmd
  extract_lets tok s1
  have h1 : s1.MemWf := h
  split
  · exact h
  · split
    · exact h
    · split
      · exact h
      · split
        · split
          · exact h
          next e => exact (h.replyFault _ e).useToken
        · split
          · exact h1.updB.updB
          · exact h

theorem State.MemWf.epdropCmd {c : Cmd} (h : s.MemWf) : (s.epdropCmd c).2.MemWf := by
  unfold State.epdropCmd
  split <;> exact h

theorem State.MemWf.unbind {c : Nat} {p : Bool} (h : s.MemWf) : (s.unbind c p).MemWf := h

theorem State.MemWf.chbindCmd {c : Cmd} (h : s.MemWf) : (s.chbindCmd c).2.MemWf := by
  unfold State.chbindCmd
  extract_lets a b t role
  split
  · exact h
  · split
    · exact h
    · split
      · exact h
      · exact State.MemWf.updCtx (.ite h.unbind (.ite h.unbind h))

theorem State.MemWf.setNode {k : Nat} {n : Node} (h : s.MemWf) : (s.setNode k n).MemWf := h

theorem State.MemWf.mapStep {c : Nat} {it : MapItem} {l : List MapPiece} (h : s.MemWf) : (s.mapStep c it l).MemWf := by
  refine foldl_keeps (P := fun a : State × Nat => a.1.MemWf) (fun a p h => ?_) _ ?_
  · exact h.setNode
  · exact h

theorem State.MemWf.grantStep {c : Nat} {it : MapItem} {l : List MapPiece} (h : s.MemWf) : (s.grantStep c it l).2.MemWf :=
  foldl_keeps (P := fun a : (List Nat × State) × Nat => a.1.2.MemWf)
    (fun _ _ h => (State.MemWf.setNode (State.MemWf.carve h)).foldl (fun _ h => h.setNode) _) _ (show s.MemWf from h)

theorem State.MemWf.mapNext {c : Nat} (h : s.MemWf) : OptWf (s.mapNext c) := by
  unfold State.mapNext
  split
  · exact .none
  next n cmd _ _ =>
    split
    · exact .none
    · extract_lets s1 ex st r1 r2 r3 r4 st' it l
      have h1 : s1.MemWf := State.memWf_drainAll h
      have hr1 : r1.2.2.MemWf := h1.unmapStep
      have hr2 : r2.2.MemWf := h1.replyCmd
      have hr3 : r3.2.MemWf := h1.epdropCmd
      have hr4 : r4.2.MemWf := h1.chbindCmd
      have hun : OptWf (if st ≠ 0 then some (s1.mapFinish c st)
          else if r1.1.isEmpty then some (r1.2.2.mapFinish c 0) else some (r1.2.2.withdrawStep c n r1.1 r1.2.1)) := by
        split
        · exact h1.mapFinish.toSome
        · split
          · exact hr1.mapFinish.toSome
          · exact hr1.withdrawStep.toSome
      clear_value s1 r1 r2 r3 r4
      split
      · exact hun
      · exact hun
      · exact hr2.mapFinish.toSome
      · exact hr3.mapFinish.toSome
      · exact hr4.mapFinish.toSome
      · split
        · exact h1.mapFinish.toSome
        · split
          · exact h1.mapFinish.toSome
          · extract_lets r5
            have hr5 : r5.2.MemWf := h1.grantStep
            split
            · exact h1.post.mapFinish.toSome
            · exact h1.mapStep.post.mapFinish.toSome
            · exact hr5.shoot.post.toSome

theorem State.MemWf.zeroRanges {l : List (Nat × Nat)} (h : s.MemWf) : (s.zeroRanges l).MemWf := .ite h (State.memWf_wipe _ h)

theorem State.MemWf.settle {p : Pending} (h : s.MemWf) : (s.settle p).MemWf :=
  State.MemWf.zeroRanges (State.memWf_drainAll h)

theorem State.MemWf.mapComplete {c : Nat} (h : s.MemWf) : (s.mapComplete c).MemWf := by
  unfold State.mapComplete
  split
  · exact h
  · exact h.settle.mapFinish

theorem State.MemWf.ctxFree {c : Nat} (h : s.MemWf) : (s.ctxFree c).MemWf := by
  unfold State.ctxFree
  split
  · exact h
  · exact State.MemWf.settle h

theorem State.MemWf.updChan {c : Nat} {f : Channel → Channel} (h : s.MemWf) : (s.updChan c f).MemWf := h

theorem State.MemWf.heldNext {c : Nat} (h : s.MemWf) : OptWf (s.heldNext c) := by
  unfold State.heldNext
  extract_lets l
  clear_value l
  split
  · exact h.endBarge.toSome
  · split
    · exact .none
    · split
      · exact h.updChan.post.toSome
      · exact .none

/-! ## Leases, pre-emptions, translations -/

theorem State.MemWf.expire {k : Nat} (h : s.MemWf) : (s.expire k).MemWf := .ite h (.ite h.endLeases.goCommit h.abortRegion)

theorem State.MemWf.unwait {k : Nat} (h : s.MemWf) : (s.unwait k).MemWf := h

theorem State.MemWf.leaveSlot {k : Nat} (h : s.MemWf) : (s.leaveSlot k).MemWf := h.unwait.updB (k := k)

theorem State.MemWf.preempted {k : Nat} (h : s.MemWf) : (s.preempted k).MemWf :=
  .ite h (.ite h.leaveSlot h.abortRegion.updB.makeReady)

theorem State.MemWf.setTcache {c : Nat} {l : List TEntry} (h : s.MemWf) : (s.setTcache c l).MemWf := h

theorem State.MemWf.abortUsers {c : Nat} {l : List Nat} (h : s.MemWf) : (s.abortUsers c l).MemWf :=
  h.foldl (fun _ h => h.abortRegion) _

theorem State.MemWf.shootdown {c : Nat} (h : s.MemWf) : (s.shootdown c).MemWf := h.setTcache.abortUsers

theorem State.MemWf.ack {c : Nat} (h : s.MemWf) : (s.ack c).MemWf := by
  unfold State.ack
  split
  · exact State.memWf_drainAll h
  · exact h

theorem State.MemWf.walk {k c a : Nat} (h : s.MemWf) : (s.walk k c a).MemWf := by
  unfold State.walk
  split
  · exact h
  · exact h.fill

theorem State.MemWf.tleaseEnd {p k : Nat} (h : s.MemWf) : (s.tleaseEnd p k).MemWf := by
  unfold State.tleaseEnd
  split
  · exact h
  · exact .ite h.setTcache.abortUsers (.ite h.setTcache h.setTcache)

/-! ## The wharf -/

theorem State.MemWf.seat {k c : Nat} (h : s.MemWf) : (s.seat k c).MemWf :=
  State.MemWf.ite (MemSt.wf_follow _ _ h) h

theorem State.MemWf.seatAll {cs : List Nat} (h : s.MemWf) (l : List Nat) : OptWf (s.seatAll cs l) := by
  induction l generalizing s with
  | nil => exact h.toSome
  | cons m r ih =>
    unfold State.seatAll
    split
    · exact .none
    · exact ih h.seat

theorem State.MemWf.placeOn {k d : Nat} (h : s.MemWf) : OptWf (s.placeOn k d) := by
  unfold State.placeOn
  extract_lets l s1
  have h1 : s1.MemWf := .ite h (h.foldl (fun _ h => h.updB) _)
  split
  · exact .none
  · split
    · exact h.seatAll _
    · exact .findSome? (fun _ => h1.seatAll _) _

theorem State.MemWf.dispatch {d : Nat} (h : s.MemWf) : OptWf (s.dispatch d) := by
  unfold State.dispatch
  extract_lets go
  have hgo (w : Bool) : OptWf (go w) := by
    intro t e
    obtain ⟨x, _, e⟩ := Option.bind_eq_some_iff.1 e
    obtain ⟨u, hu, rfl⟩ := Option.map_eq_some_iff.1 e
    exact State.memWf_of_eq (h.placeOn u hu) rfl
  clear_value go
  split
  · exact .none
  · split
    next e => exact e ▸ hgo false
    · exact hgo true

theorem State.MemWf.moveOut {d : Nat} (h : s.MemWf) : OptWf (s.moveOut d) := by
  unfold State.moveOut
  split
  · exact .none
  · refine .findSome? (fun c => ?_) _
    split
    · split
      · exact .none
      · extract_lets t
        split
        · exact h.leaveSlot.toSome
        · exact .none
    · exact .none

theorem State.MemWf.stageNext {d : Nat} (h : s.MemWf) : OptWf (s.stageNext d) := by
  unfold State.stageNext
  split
  next t e => exact e ▸ h.dispatch
  · exact h.moveOut

theorem State.MemWf.requestPreempt {k : Nat} (h : s.MemWf) : (s.requestPreempt k).MemWf := h.foldl (fun _ h => h.updB) _

theorem State.MemWf.startMove {f d : Nat} {o : Option Nat} (h : s.MemWf) : (s.startMove f o d).MemWf := by
  unfold State.startMove
  extract_lets w s1
  have h1 : s1.MemWf := h
  split
  · exact h1
  · exact h1.foldl (fun _ h => h.requestPreempt) _

theorem State.MemWf.weirMoves {d n : Nat} {w : List (Nat × Int)} (h : s.MemWf) : (s.weirMoves d w n).MemWf := by
  induction n generalizing s with
  | zero => exact h
  | succ n ih =>
    unfold State.weirMoves
    split
    · exact h
    · split
      · exact ih h.startMove
      · split
        · exact ih h.startMove
        · exact h

theorem State.MemWf.weir {d : Nat} (h : s.MemWf) : (s.weir d).MemWf := State.MemWf.weirMoves h

theorem State.MemWf.urgent {d : Nat} (h : s.MemWf) : OptWf (s.urgent d) := by
  unfold State.urgent
  split
  · exact .none
  · split
    · exact h.startMove.toSome
    · exact .findSome? (fun _ => .ite (.map (fun _ => h.startMove) _) .none) _

theorem State.MemWf.join {f : Nat} (h : s.MemWf) : (s.join f).MemWf := by
  unfold State.join
  split
  · exact h
  · exact State.memWf_drainAll h

theorem State.MemWf.slotTurn (h : s.MemWf) : s.slotTurn.MemWf := by
  refine State.MemWf.foldl ?_ (fun _ h => h.requestPreempt) _
  exact h

end Sys2Proof.Machine
end

section
namespace Sys2Proof.Machine

variable {s : State}

/-! ## The host edge: queues, packets, interrupts -/

theorem State.MemWf.setHq {k : Nat} {q : HQueue} (h : s.MemWf) : (s.setHq k q).MemWf := h
theorem State.MemWf.atsUse {p i a : Nat} (h : s.MemWf) : (s.atsUse p i a).MemWf := h
theorem State.MemWf.setPackets {l : List Packet} (h : s.MemWf) : (s.setPackets l).MemWf := h

theorem State.MemWf.notify {p o n : Nat} {v : Word} (h : s.MemWf) : (s.notify p o n v).MemWf :=
  .ite h (.ite (State.memWf_logEvent _ _ _ _ h) h.setHq)

theorem State.MemWf.interrupt {k : Nat} (h : s.MemWf) : (s.interrupt k).MemWf := by
  unfold State.interrupt
  extract_lets q port r
  split
  · exact h
  · exact State.memWf_logEvent _ _ _ _ h

theorem State.MemWf.sendIrqs {k n : Nat} (h : s.MemWf) : (s.sendIrqs k n).MemWf := by
  induction n generalizing s with
  | zero => exact h
  | succ n ih =>
    unfold State.sendIrqs
    split
    · exact h
    · extract_lets hst s1
      have h1 : s1.MemWf := h
      exact .ite (ih h1.interrupt) h

theorem State.MemWf.completePacket {k n st x : Nat} (h : s.MemWf) : (s.completePacket k n st x).MemWf := by
  unfold State.completePacket
  extract_lets s1 s2 q a s3 s4
  have h1 : s1.MemWf := State.memWf_drainAll h
  have h2 : s2.MemWf := .ite (State.memWf_logEvent _ _ _ _ h1) h1
  have h3 : s3.MemWf := State.memWf_hostWrite _ _ _ h2.atsUse
  exact h3.setPackets.finish.sendIrqs

/-! ## The work of ADMIN packets -/

theorem State.MemWf.ctxcreate {w : List Word} (h : s.MemWf) : (s.ctxcreate w).2.MemWf := by
  unfold State.ctxcreate
  extract_lets x c r s1 tls ps s2 whf tru
  have h2 : s2.MemWf := h
  split
  · exact h
  · exact h2

theorem State.MemWf.ctxdestroy {c : Nat} (h : s.MemWf) : (s.ctxdestroy c).2.MemWf := by
  unfold State.ctxdestroy
  split
  · exact h
  · exact h.killCtx

theorem State.MemWf.tdiError {k c : Nat} (h : s.MemWf) : (s.tdiError k c).MemWf :=
  (State.memWf_logEvent _ _ _ _ h.setHq).killCtx

theorem State.MemWf.frozen {k : Nat} (h : s.MemWf) {r : Nat × State} (e : s.frozen k = some r) : r.2.MemWf := by
  unfold State.frozen at e
  split at e
  · exact absurd e nofun
  · exact (Option.some.inj e) ▸ h
  · exact (Option.some.inj e) ▸ h.tdiError

theorem State.MemWf.bindQ {w : List Word} (h : s.MemWf) : (s.bindQ w).2.MemWf := by
  unfold State.bindQ
  extract_lets x port qi q c y
  split
  next e => exact h.frozen e
  · split
    · exact h
    · exact h.setHq

theorem State.MemWf.resetLapped {k n : Nat} (h : s.MemWf) : (s.resetLapped k n).MemWf := by
  induction n generalizing s with
  | zero => exact h
  | succ n ih => exact ih (State.MemWf.completePacket h)

theorem State.MemWf.resetLine {k : Nat} (h : s.MemWf) : (s.resetLine k).MemWf := h.foldl (fun _ h => h.completePacket) _

theorem State.MemWf.resetQ {p k : Nat} (h : s.MemWf) : (s.resetQ p k).2.MemWf := by
  unfold State.resetQ
  extract_lets qi s1 q s2 there diff s3
  have h2 : s2.MemWf := h.resetLine.resetLapped.setHq
  have h3 : s3.MemWf := .ite h2 (State.memWf_logEvent _ _ _ _ h2)
  clear_value s3
  split
  · exact h
  · exact State.memWf_hostWrite _ _ _ h3

theorem State.MemWf.unbindQ {p k : Nat} (h : s.MemWf) : (s.unbindQ p k).2.MemWf := by
  unfold State.unbindQ
  extract_lets qi
  split
  next e => exact h.frozen e
  · split
    · exact h.setHq
    · exact h

theorem State.MemWf.setLimit {p d n : Nat} (h : s.MemWf) : (s.setLimit p d n).2.MemWf := h
theorem State.MemWf.setWhf {w : WharfSt} (h : s.MemWf) : ({ s with whf := w } : State).MemWf := h
theorem State.MemWf.setSlot {k : Nat} {w : List Word} (h : s.MemWf) : (s.setSlot k w).2.MemWf := h.setWhf
theorem State.MemWf.unisolate {t : Nat} (h : s.MemWf) : (s.unisolate t).MemWf := h
theorem State.MemWf.peerset {i j p m : Nat} {en : Bool} (h : s.MemWf) : (s.peerset i j p m en).2.MemWf := h

theorem State.MemWf.setTenant {p v : Nat} (h : s.MemWf) : (s.setTenant p v).2.MemWf := by
  unfold State.setTenant
  extract_lets r ts sum
  split <;> exact h

theorem State.MemWf.epSet {c k v : Nat} {b : Word} (h : s.MemWf) : (s.epSet c k v b).2.MemWf := by
  unfold State.epSet
  split <;> exact h

theorem State.MemWf.chown {c o : Nat} (h : s.MemWf) : (s.chown c o).2.MemWf := h.updChan.foldl (fun _ h => h.seekReady) _

theorem State.MemWf.setBias {a n st : Nat} (h : s.MemWf) : (s.setBias a n st).2.MemWf := by
  unfold State.setBias
  split
  · exact h
  · extract_lets b hst s1 s2
    have h1 : s1.MemWf := h
    exact .ite h1 (State.memWf_setLines _ (State.memWf_setL1 _ h1))

theorem State.MemWf.intrset {w : List Word} (h : s.MemWf) : (s.intrset w).2.MemWf := by
  unfold State.intrset
  extract_lets x used
  split
  · exact h.foldl (fun _ h => .ite h.tdiError h) _
  · exact h

theorem State.MemWf.setRing {p : Nat} {r : EvRing} (h : s.MemWf) : (s.setRing p r).MemWf := h

theorem State.MemWf.evring {p b n : Nat} (h : s.MemWf) : (s.evring p b n).2.MemWf := by
  unfold State.evring
  split
  · exact h
  · exact State.MemWf.setRing (State.memWf_hostWrite _ _ _ h)

theorem State.MemWf.injectOp {t a k d : Nat} (h : s.MemWf) : (s.injectOp t a k d).2.MemWf := by
  unfold State.injectOp
  split <;> exact h

theorem State.MemWf.exportSet {w : List Word} (h : s.MemWf) : (s.exportSet w).2.MemWf := by
  unfold State.exportSet
  extract_lets x nchan e
  split <;> exact h

theorem State.MemWf.admin {w : List Word} (h : s.MemWf) : (s.admin w).2.2.MemWf := by
  unfold State.admin
  extract_lets x no
  clear_value x
  split
  · exact h.ctxcreate
  · exact h.ctxdestroy
  · exact h.bindQ
  · exact h.resetQ
  · exact h.unbindQ
  · exact h.setLimit
  · exact h.setTenant
  · exact h.setSlot
  · exact h.epSet
  · exact h.chown
  · exact h.unisolate
  · exact h.setBias
  · exact h.intrset
  · exact h.evring
  · exact h.injectOp
  · exact h.peerset
  · exact h.exportSet

/-! ## Packets that pass, and what the host edge does next -/

theorem State.MemWf.passNow {p : Packet} (h : s.MemWf) : (s.passNow p).MemWf := by
  unfold State.passNow
  extract_lets q mark s1 s2 r1 r2 drop v len st r3
  have h1 : s1.MemWf := State.memWf_drainAll h
  have h2 : s2.MemWf := h1
  have hr1 : r1.2.MemWf := h2.create
  have hr2 : r2.2.MemWf := h2.create
  have hr3 : r3.2.2.MemWf := h2.admin
  clear_value s1 r1 r2 r3
  split
  · exact .ite hr1 hr1.completePacket
  · exact .ite hr2 hr2.completePacket
  · exact h1.completePacket
  · exact State.MemWf.completePacket (.ite h1.maintain h1)
  · exact .ite hr3 hr3.completePacket

theorem State.MemWf.pass {p : Packet} (h : s.MemWf) : (s.pass p).MemWf := (h.behindLeases fun h => h.passNow).getD h

theorem State.MemWf.consume {k : Nat} (h : s.MemWf) : (s.consume k).MemWf := by
  unfold State.consume
  extract_lets q w s1 hst s2 r n u hst' s3 st
  have h3 : s3.MemWf := by
    have hr : r.2.MemWf := h
    unfold s3
    split <;> exact hr
  exact .ite h3.completePacket h3.setPackets

theorem State.MemWf.hostStep {k p q : Nat} (h : s.MemWf) : (s.hostStep k p q).MemWf := by
  unfold State.hostStep
  extract_lets qi
  split
  · exact h.pass
  · exact .ite h.consume h

theorem State.MemWf.packetEnd {k n : Nat} (h : s.MemWf) : (s.packetEnd k n).MemWf := by
  unfold State.packetEnd
  split
  · exact h
  · exact h.completePacket.ite h

theorem State.MemWf.passHead {k : Nat} (h : s.MemWf) : (s.passHead k).MemWf := by
  unfold State.passHead
  split
  · exact h.pass.ite h
  · exact h

theorem State.MemWf.accessTimeout {k : Nat} (h : s.MemWf) : (s.accessTimeout k).MemWf := by
  unfold State.accessTimeout
  split
  · exact h
  · exact h.isolateFor.updB.goOn

theorem State.MemWf.hostRequests {p a : Nat} {wr : Bool} {bs : List Byte} (h : s.MemWf) : (s.hostRequests p wr a bs).MemWf :=
  h.foldl (fun _ h => State.memWf_request _ h) _

theorem State.MemWf.backInvalidate {a n : Nat} (h : s.MemWf) : (s.backInvalidate a n).MemWf :=
  h.foldl (fun _ h => State.memWf_request _ h) _

theorem State.MemWf.hostTouch {p a : Nat} {wr : Bool} {bs : List Byte} (h : s.MemWf) : (s.hostTouch p wr a bs).MemWf := by
  unfold State.hostTouch
  extract_lets s1 hst
  have h1 : s1.MemWf := State.memWf_logEvent _ _ _ _ h
  clear_value s1
  split
  · split <;> exact h1
  · exact State.MemWf.hostRequests (.ite h h.backInvalidate)

theorem State.MemWf.hostAccess {p a : Nat} {wr : Bool} {bs : List Byte} (h : s.MemWf) : (s.hostAccess p wr a bs).MemWf := by
  unfold State.hostAccess
  split
  · exact h
  · split
    · exact h.hostRequests
    · split
      · exact h
      · refine foldl_keeps (P := fun a : State × List Byte => a.1.MemWf) (fun a r h => ?_) _ h
        exact h.hostTouch

theorem State.MemWf.atsInvalidate {p b n : Nat} (h : s.MemWf) : (s.atsInvalidate p b n).MemWf := MemSt.wf_settle _ _ _ h

theorem State.MemWf.addExpander {e p : Nat} (h : s.MemWf) : (s.addExpander e p).MemWf := by
  unfold State.addExpander
  split <;> exact h

/-! ## The security core, starts, power -/

theorem State.MemWf.writeImage {l : List Byte} (h : s.MemWf) : (s.writeImage l).MemWf := by
  unfold State.writeImage
  split
  · exact h
  · split <;> exact h

theorem State.MemWf.touchMeasured {c : Nat} (h : s.MemWf) : (s.touchMeasured c).MemWf :=
  h.foldl (fun _ h => State.memWf_touchRead _ _ _ h) _

theorem State.MemWf.lock {k : Nat} (h : s.MemWf) : (s.lock k).MemWf := by
  unfold State.lock
  extract_lets q s1 t tru s2
  have h1 : s1.MemWf := State.memWf_drainAll h
  have h2 : s2.MemWf := by
    have ht : t.MemWf := h1.touchMeasured
    unfold s2
    split
    · exact ht
    · exact h1
  exact .ite h2.setHq h

theorem State.MemWf.startRun {k : Nat} (h : s.MemWf) : (s.startRun k).MemWf := .ite h.setHq h
theorem State.MemWf.unlock {k : Nat} (h : s.MemWf) : (s.unlock k).MemWf := .ite h.setHq h
theorem State.MemWf.toError {k c : Nat} (h : s.MemWf) : (s.toError k c).MemWf := .ite h.tdiError h

theorem State.MemWf.refresh {t : Nat} (h : s.MemWf) : (s.refresh t).MemWf := h

theorem State.MemWf.window (h : s.MemWf) : s.window.MemWf := h.foldl (fun _ h => h.refresh) _

theorem State.MemWf.warmStart (h : s.MemWf) : s.warmStart.MemWf := .ite (State.memWf_start true h) h

theorem State.MemWf.power {n : Nat} (h : s.MemWf) : (s.power n).MemWf := by
  unfold State.power
  split <;> exact h

theorem State.MemWf.heat {d l : Nat} (h : s.MemWf) : (s.heat d l).MemWf := State.MemWf.logBoth h

/-! ## Links -/

theorem State.MemWf.peerFails {f : Nat} {c : SCmd} (h : s.MemWf) : (s.peerFails f c).MemWf := .ite h.slPartly h.slFinish

theorem State.MemWf.isolatePeer {j c : Nat} (h : s.MemWf) : (s.isolatePeer j c).MemWf := by
  unfold State.isolatePeer
  extract_lets s1 waits lnk s2
  have h2 : s2.MemWf := h.isolateFor
  exact h2.foldl (fun _ h => h.peerFails) _

theorem State.MemWf.linkOff {l c : Nat} (h : s.MemWf) : (s.linkOff l c).MemWf := by
  unfold State.linkOff
  extract_lets had drop lost lnk s1
  have h1 : s1.MemWf := h
  exact .ite h (h1.logBoth.foldl (fun _ h => h.isolatePeer) _)

theorem State.MemWf.flit {l : Nat} {ok : Bool} {w : Word} (h : s.MemWf) : (s.flit l ok w).MemWf := by
  unfold State.flit
  extract_lets seq here good k lnk s1
  have h1 : s1.MemWf := h
  clear_value s1
  split
  · exact h
  · split
    · exact h
    · exact .ite h (.ite h1.linkOff h1)

theorem State.MemWf.reply {p t st : Nat} {bs : List PByte} (h : s.MemWf) : (s.reply p t bs st).MemWf := by
  unfold State.reply
  split <;> exact h

theorem State.MemWf.respond {p t st : Nat} {bs : List PByte} (h : s.MemWf) : (s.respond p t bs st).MemWf := State.MemWf.reply h

theorem State.MemWf.endWrite {r : LinkIn} {st : Nat} (h : s.MemWf) : (s.endWrite r st).MemWf := by
  unfold State.endWrite
  split
  · exact h
  · exact h.respond

theorem State.MemWf.wrote {r : LinkIn} {st : Nat} (h : s.MemWf) : (s.wrote r st).MemWf := h

theorem State.MemWf.performRequest {r : LinkIn} (h : s.MemWf) : (s.performRequest r).MemWf := by
  unfold State.performRequest
  extract_lets s1 st
  have h1 : s1.MemWf := State.memWf_drainAll (State.memWf_unqueue _ h)
  clear_value s1
  split
  · split
    · exact h1.reply
    · exact h1
  · split
    · exact .ite h1.wrote.endWrite h1.respond
    · extract_lets s2 w s3 b
      have h2 : s2.MemWf := h1.fill
      have h3 : s3.MemWf := h2.foldl (fun _ h => State.memWf_writeMem _ _ _ h) _
      have h4 := State.memWf_drainAll (h3.foldl (f := State.markGran) (fun _ h => h.markGran) (badGrans w))
      exact .ite h4.wrote.endWrite (State.MemWf.respond (h2.slTouch _))

theorem State.MemWf.serveRequest (h : s.MemWf) : s.serveRequest.MemWf := by
  unfold State.serveRequest
  split
  · exact h
  · exact .ite (State.memWf_serveLeaseQ (State.MemWf.performRequest h)) (State.memWf_enqueue _ _ h)

theorem State.MemWf.answer {f q n st : Nat} {l : List PByte} (h : s.MemWf) : (s.answer f q n l st).MemWf := by
  unfold State.answer
  split
  · exact h
  · split
    · exact h
    · split
      · exact State.MemWf.updSc h
      · exact h

theorem State.MemWf.peerTimeout {j c : Nat} (h : s.MemWf) : (s.peerTimeout j c).MemWf := .ite h.isolatePeer h

theorem State.MemWf.injectNow {k : Nat} (h : s.MemWf) : (s.injectNow k).MemWf := by
  unfold State.injectNow
  split
  · exact h
  · split
    · exact h
    · extract_lets hst s1 hst'
      have h1 : s1.MemWf := h
      split
      · exact .ite (State.memWf_poisonRange _ _ h1) h1
      · exact h1

theorem State.MemWf.serveNotice (h : s.MemWf) : s.serveNotice.MemWf := by
  unfold State.serveNotice
  split
  · exact h
  · exact State.MemWf.respond (State.MemWf.post h)

theorem State.MemWf.dropNotice (h : s.MemWf) : s.dropNotice.MemWf := by
  unfold State.dropNotice
  split
  · exact h
  · exact State.MemWf.respond h

end Sys2Proof.Machine
end

section
namespace Sys2Proof.Machine

variable {s : State}

/-! ## The shapes of words (06_core_scalar R110 to R120, 07_core_vector, and the words of the engines) -/

theorem State.MemWf.alu2 {st d a b f} (h : s.MemWf) : OutWf (alu2 s st d a b f) := h.issue
theorem State.MemWf.alu1 {st d a f} (h : s.MemWf) : OutWf (alu1 s st d a f) := h.issue
theorem State.MemWf.aluI {st d a i f} (h : s.MemWf) : OutWf (aluI s st d a i f) := h.issue
theorem State.MemWf.branch {a x f} (h : s.MemWf) : OutWf (branch s a x f) := h.issue
theorem State.MemWf.vec2 {st d a b m t f} (h : s.MemWf) : OutWf (vec2 s st d a b m t f) := h.issue
theorem State.MemWf.vec1 {st d a m t f} (h : s.MemWf) : OutWf (vec1 s st d a m t f) := h.issue
theorem State.MemWf.vec3 {st d a b m t f} (h : s.MemWf) : OutWf (vec3 s st d a b m t f) := h.issue
theorem State.MemWf.vcmp {st d a b m t f} (h : s.MemWf) : OutWf (vcmp s st d a b m t f) := h.issue
theorem State.MemWf.vred {st d a m t f i e} (h : s.MemWf) : OutWf (vred s st d a m t f i e) := h.issue
theorem State.MemWf.maskOp {st d a b t f} (h : s.MemWf) : OutWf (maskOp s st d a b t f) := h.issue
theorem State.MemWf.feWordOp {st b x f} (h : s.MemWf) : OutWf (feWordOp s st b x f) := h.issue
theorem State.MemWf.arrival {st a f} (h : s.MemWf) : OutWf (arrival s st a f) := h.issue
theorem State.MemWf.matrixWord {st o d f g} (h : s.MemWf) : OutWf (matrixWord s st o d f g) := h.issue
theorem State.MemWf.descWord {st o d a q} (h : s.MemWf) : OutWf (descWord s st o d a q) := h.issue
theorem State.MemWf.mapWord {st o d f g six} (h : s.MemWf) : OutWf (mapWord s st o d f g six) := h.issue
theorem State.MemWf.spawnWord {st o a} (h : s.MemWf) : OutWf (spawnWord s st o a) := h.issue
theorem State.MemWf.wharfWord {st o a} (h : s.MemWf) : OutWf (wharfWord s st o a) := h.issue

/-! ## Every instruction and every event -/

theorem State.MemWf.spdm {p : Nat} {f : TrustSt → TrustSt} (h : s.MemWf) : (s.spdm p f).MemWf := h
theorem State.MemWf.measurements {p : Nat} {l : List Byte} (h : s.MemWf) : (s.measurements p l).MemWf := h

theorem State.MemWf.execFpflagsWrite {b : Nat} {v : Word} (h : s.MemWf) : OutWf (execFpflagsWrite b v s) := by
  refine State.MemWf.toNext ?_
  split
  · exact h
  · exact h.sysStep.updB

theorem State.MemWf.execLinkRequest {p t o n : Nat} {wr : Bool} {l : List PByte} {w : Option (List Word)} (h : s.MemWf) :
    OutWf (execLinkRequest p t wr o n l w s) := by
  refine State.MemWf.toNext ?_
  split
  · exact State.MemWf.serveRequest h
  · exact h

theorem State.MemWf.exec (i : Instr) (h : s.MemWf) : OutWf (exec i s) := by
  dsimp only [Machine.exec]
  cases i with
  -- words that leave results, effects or a commit
  | add | sub | and | or | xor | andn | orn | sll | srl | sra | rol | ror | slt | sltu | seq | sne | min | max | minu | maxu | mul | mulh
  | mulhu | mulhsu | div | divu | rem | remu => exact h.alu2
  | clz | ctz | popc | ffs | brev | bswap | sxb | sxh | sxw | zxb | zxh | zxw | slli | srli | srai | rori => exact h.alu1
  | addi | andi | ori | xori | slti | sltiu => exact h.aluI
  | beqz | bnez | bltz | bgez | bgtz | blez | bodd => exact h.branch
  | vadd | vsub | vmul | vdiv | vmin | vmax | vand | vor | vxor | vsll | vsrl | vsra | vadds | vsubs | vmulh => exact h.vec2
  | vsqrt | vexp2 | vlog2 | vabs | vneg | vmv | vclz | vpopc | vffs => exact h.vec1
  | vfma | vfms | vfnma | vfnms => exact h.vec3
  | vceq | vcne | vclt | vcle | vcltu | vcleu | vcun => exact h.vcmp
  | vredsum | vredmax | vredmin | vredand | vredor | vredxor => exact h.vred
  | vmand | vmor | vmxor | vmandn => exact h.maskOp
  | ldf | ldfn | ste | stf => exact h.feWordOp
  | barv | barvx => exact h.arrival
  | mturn | mtend | mringcfg | mringadv | mzero | mma | mmax | mrec | mldprog | maccrd => exact h.matrixWord
  | scopy | scopy2d | sfill | scvt | shint => exact h.descWord
  | map | grant | unmap | unmapx | send | reply | epdrop | chbind => exact h.mapWord
  | spawn | spawng => exact h.spawnWord
  | pdec | chpri | affin => exact h.wharfWord
  -- words that change the state where they issue
  | ldb | ldh | ldw | ldd | ldbu | ldhu | ldwu => exact h.issueWith fun _ h => WCtx.loadScalar_wf h _ _ _ _ _ _
  | stb | sth | stw | std => exact h.issueWith fun _ h => WCtx.storeScalar_wf h _ _ _ _ _
  | vld => exact h.execVld
  | vst => exact h.execVst
  | amoswap | amocas | amoadd | amoand | amoor | amoxor | amomin | amomax | amominu | amomaxu => exact h.atomic
  | redadd | redand | redor | redxor | redmin | redmax | redminu | redmaxu | redfmin | redfmax => exact h.reduction
  | xaadd => exact h.execXaadd
  | xard => exact h.execXard
  | lease => exact h.execLease
  | fence => exact h.execFence
  -- cores
  | leasemaxWrite | tleaseWrite | slotcfgWrite | sysregWrite => exact h.sysStep.toNext
  | fpflagsWrite => exact h.execFpflagsWrite
  | feHeldPerform => exact h.goOn.toNext
  | leaseExpiry => exact h.expire.toNext
  | preemption => exact h.preempted.toNext
  | hostAccessTimeout => exact h.accessTimeout.toNext
  -- engines
  | matrixCommandBegin => exact h.matrixBegin.toNext
  | matrixCommandComplete => exact h.matrixComplete.toNext
  | turnRelease => exact h.releaseTurn.toNext
  | sluiceCommandBegin => exact h.slBegin.toNext
  | sluiceCommandComplete => exact h.slComplete.toNext
  | sluiceTimeout => exact h.slTimeout.toNext
  | composerCommandComplete => exact (h.comNext.getD h).toNext
  | resizeLineMove => exact h.moveLine.toNext
  | bankShareFault => exact h.withdrawShare.toNext
  | mappingCommandBegin => exact (h.mapNext.getD h).toNext
  | mappingCommandComplete => exact h.mapComplete.toNext
  | contextFree => exact h.ctxFree.toNext
  | heldFaultQueue => exact (h.heldNext.getD h).toNext
  -- translations and views
  | shootdown => exact h.shootdown.toNext
  | shootdownAck => exact h.ack.toNext
  | backInvalidate => exact (State.memWf_request _ h).toNext
  | translationWalk => exact h.walk.toNext
  | translationLeaseExpiry => exact h.tleaseEnd.toNext
  | viewAppliesWrite => exact (State.memWf_setMem (MemSt.wf_move _ _ h)).toNext
  -- the wharf
  | slotDispatch => exact (h.stageNext.getD h).toNext
  | weirPeriod => exact (State.MemWf.ite h.weir (h.urgent.getD h)).toNext
  | flightJoin => exact h.join.toNext
  | slotBoundary => exact (h.ite h.slotTurn).toNext
  -- the host edge
  | notifyWrite => exact h.notify.toNext
  | dispatch | dispatchg | order | maint | ctxcreate | ctxdestroy | bindq | resetq | unbindq | setlimit | tenant | slotset | epset | chown
  | unisolate | bias | intrset | evring | inject | peerset | exportOp => exact h.hostStep.toNext
  | packetCompletion => exact h.packetEnd.toNext
  | hostMemoryAccess => exact h.hostAccess.toNext
  | atsInvalidation => exact h.atsInvalidate.toNext
  | expanderHotAdd => exact h.addExpander.toNext
  | injectionTakesEffect => exact h.injectNow.toNext
  -- the security core, starts and power
  | imageWrite => exact h.writeImage.toNext
  | getVersion | getCapabilities | negotiateAlgorithms | getDigests | getCertificate | challenge | keyExchange | finish | endSession =>
    exact h.spdm.toNext
  | getMeasurements => exact h.measurements.toNext
  | configLocked => exact h.lock.toNext
  | run => exact h.startRun.toNext
  | error | ideIntegrityFailure => exact h.toError.toNext
  | configUnlocked => exact h.unlock.toNext
  | counterWindow => exact (h.ite h.window).toNext
  | coldStart => exact (State.memWf_start false h).toNext
  | warmStart => exact h.warmStart.toNext
  | powerLimit => exact h.power.toNext
  | throttle | trip => exact h.heat.toNext
  -- links
  | linkFlitReceive => exact h.flit.toNext
  | linkRequest => exact h.execLinkRequest
  | linkResponse => exact h.answer.toNext
  | linkDown => exact h.linkOff.toNext
  | peerTimeout => exact h.peerTimeout.toNext
  -- every other word
  | _ => exact h.issue

/-! ## Acts and steps -/

theorem State.MemWf.openRun {k : Nat} {b : Barge} (h : s.MemWf) : (s.openRun k b).MemWf := by
  unfold State.openRun
  split
  · exact h.takeExc
  · exact h.noAnswer
  · exact h
  · extract_lets s1
    have h1 : s1.MemWf := by
      refine State.MemWf.foldl h.fill (fun w h => ?_) _
      split
      · exact State.memWf_useIcache _ _ (.ite h (State.memWf_touchRead _ _ _ h))
      · exact h
    exact h1.setB

theorem State.MemWf.issueWord {k : Nat} (h : s.MemWf) : OutWf (s.issueWord k) := by
  unfold State.issueWord
  extract_lets s1 s2 b
  have h1 : s1.MemWf := h.updB
  have h2 : s2.MemWf := .ite h1.openRun.updB h1
  clear_value s2
  split
  · exact h2.toNext
  next r _ =>
    split
    · exact h2.toNext
    next w ws _ =>
      have hp : (s2.present k b r w ws).MemWf := h2
      exact hp.exec _

theorem State.MemWf.trapFp {k : Nat} (h : s.MemWf) : (s.trapFp k).MemWf := by
  unfold State.trapFp
  split
  · exact h.takeExc
  · exact h

/-- Most acts are events, and so steps of `exec`. -/
theorem State.MemWf.doAct (a : Act) (h : s.MemWf) : OutWf (s.doAct a) := by
  cases a with
  | issue => exact h.issueWord
  | fpTrap => exact h.trapFp.toNext
  | late => exact h.goLate.toNext
  | ended => exact h.ended.toNext
  | packetPass => exact h.passHead.toNext
  | packetRead => exact (h.consume.ite h).toNext
  | packetCompletion => exact h.packetEnd.toNext
  | interrupts => exact h.sendIrqs.toNext
  | linkRequest => exact h.serveRequest.toNext
  | linkNotice => exact h.serveNotice.toNext
  | linkNoticeOut => exact h.dropNotice.toNext
  | idle => exact h.toNext
  | feHeldPerform k => exact h.exec (.feHeldPerform k)
  | preemption k => exact h.exec (.preemption k)
  | leaseExpiry k => exact h.exec (.leaseExpiry k)
  | hostAccessTimeout k => exact h.exec (.hostAccessTimeout k)
  | sluiceBegin f q => exact h.exec (.sluiceCommandBegin f q)
  | sluiceComplete f q n => exact h.exec (.sluiceCommandComplete f q n)
  | sluiceTimeout f q n => exact h.exec (.sluiceTimeout f q n)
  | matrixBegin f => exact h.exec (.matrixCommandBegin f)
  | matrixComplete f => exact h.exec (.matrixCommandComplete f)
  | turnRelease c => exact h.exec (.turnRelease c)
  | composer v => exact h.exec (.composerCommandComplete v)
  | resizeLineMove v => exact h.exec (.resizeLineMove v)
  | mappingBegin c => exact h.exec (.mappingCommandBegin c)
  | mappingComplete c => exact h.exec (.mappingCommandComplete c)
  | contextFree c => exact h.exec (.contextFree c)
  | heldFaultQueue c => exact h.exec (.heldFaultQueue c)
  | shootdown c => exact h.exec (.shootdown c)
  | shootdownAck c => exact h.exec (.shootdownAck c)
  | translationLeaseExpiry c k => exact h.exec (.translationLeaseExpiry c k)
  | slotDispatch d => exact h.exec (.slotDispatch d)
  | weirPeriod d => exact h.exec (.weirPeriod d)
  | flightJoin f => exact h.exec (.flightJoin f)
  | slotBoundary => exact h.exec .slotBoundary
  | viewApplies d k => exact h.exec (.viewAppliesWrite d k)
  | injection k => exact h.exec (.injectionTakesEffect k)
  | counterWindow => exact h.exec .counterWindow
  | peerTimeout j => exact h.exec (.peerTimeout j 3)

theorem State.MemWf.chooseAct (l : List Act) (h : s.MemWf) : (s.chooseAct l).2.MemWf := by
  unfold State.chooseAct
  split <;> exact h

theorem State.MemWf.own (h : s.MemWf) : OutWf s.own := by
  have h' := h.chooseAct s.acts
  unfold State.own
  split
  next e => rw [e] at h'; exact h'.toNext
  next e => rw [e] at h'; exact h'.doAct _

theorem State.MemWf.takeInput {i : Instr} (h : s.MemWf) : OutWf (State.takeInput s i) := by
  unfold State.takeInput
  split
  · exact h.toNext
  · exact h.exec i

theorem State.MemWf.happen (h : s.MemWf) : OutWf s.happen := by
  unfold State.happen
  split
  · split
    · exact State.MemWf.takeInput h
    · exact h.own
  · exact h.own

theorem State.MemWf.serve (h : s.MemWf) : s.serve.MemWf := by
  refine h.foldl (fun _ h => ?_) _
  exact h

theorem State.MemWf.tick (h : s.MemWf) : s.tick.MemWf := h.serve

theorem State.MemWf.step (h : s.MemWf) : OutWf (step s) := by
  have h' := h.happen
  unfold Machine.step
  split
  next t e => exact (h' t e).tick.toNext
  · exact .fault _
  · exact nofun

end Sys2Proof.Machine

/-- Settles O47: what happens in a step keeps the form, by the case of the input or of the act, and so does the cycle that passes. -/
theorem memoryKeepsItsForm : Obligations.MemoryKeepsItsForm := fun _ t h e => h.step t e

end

/-! ## A store on its way: what each core sees of it, and when every view has it -/

section

open Sys2Proof Sys2Proof.Machine

namespace Sys2Proof.Machine

/-! ### Words that a core has sent, whether or not a store waits with them -/

/-- `m'` has the views and the placed writes of `m`, and behind `m`'s released writes the pieces `ps`, released by `core`. What waits behind
a lease is left open. -/
structure Sent (core : Nat) (m m' : MemSt) (ps : List (Nat × List Byte)) : Prop where
  view : ∀ d, m'.view d = m.view d
  flight : m'.flight = m.flight
  out : ∃ l, m'.out = m.out ++ l ∧ l.map Write.piece = ps ∧ ∀ w ∈ l, w.core = core

theorem Sent.refl (core : Nat) (m : MemSt) : Sent core m m [] :=
  ⟨fun _ => rfl, rfl, [], by simp, rfl, by simp⟩

theorem Sent.trans {core : Nat} {m m' m'' : MemSt} {ps qs : List (Nat × List Byte)} (h : Sent core m m' ps)
    (h' : Sent core m' m'' qs) : Sent core m m'' (ps ++ qs) := by
  obtain ⟨l, ho, hp, hc⟩ := h.out
  obtain ⟨l', ho', hp', hc'⟩ := h'.out
  refine ⟨fun d => (h'.view d).trans (h.view d), h'.flight.trans h.flight, l ++ l', ?_, ?_, ?_⟩
  · rw [ho', ho, List.append_assoc]
  · rw [List.map_append, hp, hp']
  · exact fun w hw => (List.mem_append.1 hw).elim (hc w) (hc' w)

theorem Released.sent {core : Nat} {m m' : MemSt} {ps : List (Nat × List Byte)} (h : Released core m m' ps) : Sent core m m' ps := by
  obtain ⟨l, ho, hp, _, hl⟩ := h.out
  exact ⟨h.view, h.flight, l, ho, hp, fun w hw => (hl w hw).1⟩

theorem State.lastInLine_sent (s : State) (core : Nat) (r : LeaseReq) : Sent core s.mem (s.lastInLine r).mem [] :=
  ⟨fun _ => rfl, rfl, [], by simp [State.lastInLine, State.setMem], rfl, by simp⟩

@[simp] theorem State.lastInLine_barges (s : State) (r : LeaseReq) : (s.lastInLine r).barges = s.barges := rfl

@[simp] theorem State.lastInLine_leaseQ (s : State) (r : LeaseReq) : (s.lastInLine r).mem.leaseQ = s.mem.leaseQ ++ [r] := rfl

@[simp] theorem State.sendWords_leaseQ (s : State) (core vc pa : Nat) (bs : List Byte) :
    (s.sendWords core vc pa bs).mem.leaseQ = s.mem.leaseQ := (s.sendWords_released core vc pa bs).leaseQ

/-! ### One granule's part of a store -/

section Part

variable {s : State} {bid core vc pa : Nat} {spc : Space} {bs : List Byte}

theorem State.releasePart_free (hb : s.blockedAt bid (pa / 64) = false) :
    s.releasePart bid core spc vc pa bs = (s.touchStore core vc pa bs.length spc).sendWords core vc pa bs := by
  simp [State.releasePart, hb]

theorem State.releasePart_unseen (hb : s.blockedAt bid (pa / 64) = true) (hu : s.unseenAt bid core (pa / 64) = true) :
    s.releasePart bid core spc vc pa bs = s.lastInLine (.effect bid core (.store spc [⟨pa, vc, bs⟩])) := by
  simp [State.releasePart, hb, hu]

theorem State.releasePart_waits (hb : s.blockedAt bid (pa / 64) = true) (hu : s.unseenAt bid core (pa / 64) = false) :
    s.releasePart bid core spc vc pa bs =
      (s.sendWords core vc pa bs).lastInLine (.store bid core s.mem.nextW (cutWords pa bs).length spc vc pa bs.length) := by
  simp [State.releasePart, hb, hu]

/-- Whether or not it waits, a part that the core sees has its words sent. -/
theorem State.releasePart_seen (hu : s.unseenAt bid core (pa / 64) = false) :
    Sent core s.mem (s.releasePart bid core spc vc pa bs).mem (cutWords pa bs) := by
  have hsend : Sent core s.mem (s.sendWords core vc pa bs).mem (cutWords pa bs) := (State.sendWords_released ..).sent
  cases hb : s.blockedAt bid (pa / 64)
  · rw [State.releasePart_free hb]
    exact (((State.touchStore_cachesOnly ..).released core).trans (State.sendWords_released ..)).sent
  · rw [State.releasePart_waits hb hu]
    simpa using hsend.trans (State.lastInLine_sent ..)

theorem State.releasePart_sent : ∃ ps, Sent core s.mem (s.releasePart bid core spc vc pa bs).mem ps := by
  cases hu : s.unseenAt bid core (pa / 64)
  · exact ⟨_, State.releasePart_seen hu⟩
  cases hb : s.blockedAt bid (pa / 64)
  · rw [State.releasePart_free hb]
    exact ⟨_, (((State.touchStore_cachesOnly ..).released core).trans (State.sendWords_released ..)).sent⟩
  · rw [State.releasePart_unseen hb hu]
    exact ⟨_, State.lastInLine_sent ..⟩

end Part

/-! ### A part that is seen leaves the others seen -/

theorem State.unseenAt_congr {s t : State} (hb : t.barges = s.barges) (hq : t.mem.leaseQ = s.mem.leaseQ) (bid core g : Nat) :
    t.unseenAt bid core g = s.unseenAt bid core g := by
  simp [State.unseenAt, State.earlier, State.mateWait, State.barge?, hb, hq]

theorem mem_takeWhile_append {α : Type} {p : α → Bool} {l l' : List α} {x : α} (h : x ∈ (l ++ l').takeWhile p) :
    x ∈ l.takeWhile p ∨ x ∈ l' := by
  induction l with
  | nil => exact .inr (List.takeWhile_sublist p |>.mem h)
  | cons a l ih =>
    rw [List.cons_append, List.takeWhile_cons] at h
    rw [List.takeWhile_cons]
    split at h
    · next ha =>
      rw [if_pos ha]
      rcases List.mem_cons.1 h with rfl | h
      · exact .inl (List.mem_cons_self ..)
      · exact (ih h).imp_left (List.mem_cons_of_mem a)
    · simp at h

/-- A request that comes last is at most one more of the earlier ones. -/
theorem State.mem_earlier_lastInLine {s : State} {r q : LeaseReq} {bid g : Nat} (h : q ∈ (s.lastInLine r).earlier bid g) :
    q ∈ s.earlier bid g ∨ q = r := by
  obtain ⟨hq, hg⟩ := List.mem_filter.1 h
  exact (mem_takeWhile_append hq).imp (fun h => List.mem_filter.2 ⟨h, hg⟩) List.mem_singleton.1

/-- A store that comes to wait stands neither for a barge's wait nor for an effect that its core does not see. -/
theorem State.unseenAt_lastInLine {s : State} {bid core g : Nat} (h : s.unseenAt bid core g = false)
    (b c i k : Nat) (spc : Space) (vc pa n : Nat) : (s.lastInLine (.store b c i k spc vc pa n)).unseenAt bid core g = false := by
  obtain ⟨hlease, hreq⟩ := Bool.or_eq_false_iff.1 h
  refine Bool.or_eq_false_iff.2 ⟨hlease, List.any_eq_false.2 (fun q hq => ?_)⟩
  rcases State.mem_earlier_lastInLine hq with hq | rfl
  · exact List.any_eq_false.1 hreq q hq
  · simp [State.mateWait]

section Part

variable {s : State} {bid core vc pa : Nat} {spc : Space} {bs : List Byte}

@[simp] theorem State.releasePart_barges : (s.releasePart bid core spc vc pa bs).barges = s.barges := by
  unfold State.releasePart
  split
  · simp
  · split <;> simp

theorem State.unseenAt_releasePart (hu : s.unseenAt bid core (pa / 64) = false) {g : Nat} (h : s.unseenAt bid core g = false) :
    (s.releasePart bid core spc vc pa bs).unseenAt bid core g = false := by
  cases hb : s.blockedAt bid (pa / 64)
  · have hr := ((s.touchStore_cachesOnly core vc pa bs.length spc).released core).trans (State.sendWords_released _ core vc pa bs)
    rw [State.releasePart_free hb, State.unseenAt_congr (by simp) hr.leaseQ]
    exact h
  · rw [State.releasePart_waits hb hu]
    exact State.unseenAt_lastInLine ((State.unseenAt_congr (by simp) (by simp) ..).trans h) ..

/-! ### The whole store -/

theorem State.releaseStore_one (hi : s.isIsolated pa = false) (hs : s.homeStopped vc pa = false) :
    s.releaseStore bid core spc [⟨pa, vc, bs⟩] =
      (cutGrans pa bs).foldl (fun s e => s.releasePart bid core spc vc e.1 e.2) s := by
  simp [State.releaseStore, State.releasePiece, hi, hs]

theorem State.releaseParts_sent (l : List (Nat × List Byte)) (s : State) :
    ∃ ps, Sent core s.mem (l.foldl (fun s e => s.releasePart bid core spc vc e.1 e.2) s).mem ps := by
  induction l generalizing s with
  | nil => exact ⟨[], Sent.refl core s.mem⟩
  | cons e l ih =>
    obtain ⟨ps, he⟩ := State.releasePart_sent (s := s) (bid := bid) (core := core) (spc := spc) (vc := vc) (pa := e.1) (bs := e.2)
    obtain ⟨qs, hl⟩ := ih (s.releasePart bid core spc vc e.1 e.2)
    exact ⟨ps ++ qs, he.trans hl⟩

theorem State.releaseParts_seen {l : List (Nat × List Byte)} {s : State} (hu : ∀ e ∈ l, s.unseenAt bid core (e.1 / 64) = false) :
    Sent core s.mem (l.foldl (fun s e => s.releasePart bid core spc vc e.1 e.2) s).mem (l.flatMap (fun e => cutWords e.1 e.2)) := by
  induction l generalizing s with
  | nil => exact Sent.refl core s.mem
  | cons e l ih =>
    obtain ⟨he, hl⟩ := List.forall_mem_cons.1 hu
    exact (State.releasePart_seen he).trans (ih (fun f hf => State.unseenAt_releasePart he (hl f hf)))

/-- The words of a store whose every granule its core sees. -/
theorem State.releaseStore_seen (hi : s.isIsolated pa = false) (hs : s.homeStopped vc pa = false)
    (hu : ∀ g ∈ granules pa bs.length, s.unseenAt bid core g = false) :
    Sent core s.mem (s.releaseStore bid core spc [⟨pa, vc, bs⟩]).mem (storeWords pa bs) := by
  rw [State.releaseStore_one hi hs]
  refine State.releaseParts_seen (fun e he => hu _ (mem_granules.2 ?_))
  have := (cut_cutGrans pa bs).within e he
  omega

/-- A store within one granule is one part. -/
theorem cutGrans_one (hne : bs ≠ []) (h1 : pa % 64 + bs.length ≤ 64) : cutGrans pa bs = [(pa, bs)] := by
  have hle : bs.length ≤ 64 - pa % 64 := by omega
  simp [cutGrans, cutAt, hne, List.take_of_length_le hle, List.drop_eq_nil_of_le hle]

theorem State.releaseStore_granule (hi : s.isIsolated pa = false) (hs : s.homeStopped vc pa = false) (hne : bs ≠ [])
    (h1 : pa % 64 + bs.length ≤ 64) :
    s.releaseStore bid core spc [⟨pa, vc, bs⟩] = s.releasePart bid core spc vc pa bs := by
  rw [State.releaseStore_one hi hs, cutGrans_one hne h1]
  rfl

/-! ### What a core sees of it -/

/-- Where nothing else was on its way, the core that sent words sees them laid over its die's view. -/
theorem Sent.seen_own {m m' : MemSt} {ps : List (Nat × List Byte)} (h : Sent core m m' ps) (ho : m.out = []) (hf : m.flight = [])
    (a : Nat) : m'.seen core a 1 = [laid ps a (tgetD 0 (m.view (dieOf core)) a)] := by
  obtain ⟨l, hout, rfl, hc⟩ := h.out
  rw [ho, List.nil_append] at hout
  have hown : l.filter (fun w => w.core == core) = l := List.filter_eq_self.2 (fun w hw => by simp [hc w hw])
  simp only [MemSt.seen, h.flight, hf, hout, hown, List.filter_nil, List.foldl_nil, readTab, h.view]
  exact foldl_patch ..

/-- Every other core sees its die's view alone. -/
theorem Sent.seen_other {m m' : MemSt} {ps : List (Nat × List Byte)} (h : Sent core m m' ps) (ho : m.out = []) (hf : m.flight = [])
    {other : Nat} (hne : other ≠ core) (a : Nat) : m'.seen other a 1 = [tgetD 0 (m.view (dieOf other)) a] := by
  obtain ⟨l, hout, _, hc⟩ := h.out
  rw [ho, List.nil_append] at hout
  have hnone : l.filter (fun w => w.core == other) = [] :=
    List.filter_eq_nil_iff.2 (fun w hw => by simpa [hc w hw] using Ne.symm hne)
  simp [MemSt.seen, h.flight, hf, hout, hnone, readTab, h.view]

end Part

/-! ### Everything performed at module scope -/

theorem needed_none {before : Write → Write → Bool} {p : Write → Bool} {l : List Write} (h : ∀ w ∈ l, p w = false) :
    needed before p l = [] := by
  induction l with
  | nil => rfl
  | cons w l ih =>
    obtain ⟨hw, hl⟩ := List.forall_mem_cons.1 h
    simp [needed_cons, ih hl, hw]

/-- Words that are on their way, and that nothing holds back, enter every view. -/
theorem OnWay.drain_view {m : MemSt} (h : OnWay m) (d a : Nat) : tgetD 0 (m.drain.view d) a = m.due d a := by
  have hhome : ∀ d ∈ m.out.map Write.home, d < 4 := List.forall_mem_map.2 (fun w hw => (h.each w hw).1)
  have hdrain : m.drain = m.out.foldl (fun m w => m.enter allDies w) { m with out := [], flight := m.out } := by
    have hplace : m.place (fun _ => true) = { m with out := [], flight := m.out } := by
      rw [h.place_eq, List.filter_eq_self.2 (fun _ _ => rfl), List.filter_eq_nil_iff.2 (by simp)]
    rw [MemSt.drain, hplace, MemSt.bring, needed_all (fun _ _ => rfl), eraseDups_allDies hhome]
  obtain ⟨_, _, _, hview⟩ := enter_each (m := { m with out := [], flight := m.out }) rfl h.ids (fun w hw => (h.each w hw).2.1)
  rw [hdrain, hview d]
  exact tgetD_writes _ ((MemSt.wf_iff m).1 h.wf d) a

/-- Where all that is on its way waits behind a lease, no view changes. -/
theorem MemSt.drain_view_of_holds {m : MemSt} (hf : m.flight = []) (hh : ∀ w ∈ m.out, m.holds w.id = true) (d : Nat) :
    m.drain.view d = m.view d := by
  have hplace : (m.place (fun _ => true)).flight = [] := by
    rw [MemSt.place, MemSt.placeAny, needed_none (fun w hw => by simp [hh w hw])]
    simpa using hf
  have hsame : (m.place (fun _ => true)).view d = m.view d := by simp only [MemSt.place, MemSt.placeAny, MemSt.view]
  rw [MemSt.drain, MemSt.bring, hplace]
  exact hsame

/-! ### A store that waits holds its words -/

theorem MemSt.releases_nextW (core home whole : Nat) (l : List (Nat × List Byte)) (m : MemSt) :
    (l.foldl (fun m e => m.release core home e.1 e.2 whole) m).nextW = m.nextW + l.length := by
  induction l generalizing m with
  | nil => rfl
  | cons e l ih => rw [List.foldl_cons, ih]; simp [MemSt.release]; omega

theorem State.sendWords_nextW (s : State) (core vc pa : Nat) (bs : List Byte) :
    (s.sendWords core vc pa bs).mem.nextW = s.mem.nextW + (cutWords pa bs).length := MemSt.releases_nextW ..

/-- A store that stands in line holds the words of its numbers. -/
theorem State.holds_lastInLine (s : State) {b c i k vc pa n id : Nat} {spc : Space} (h : i ≤ id) (h' : id < i + k) :
    (s.lastInLine (.store b c i k spc vc pa n)).mem.holds id = true := by
  simp [MemSt.holds, h, h']

section Waits

variable {s : State} {bid core vc pa : Nat} {spc : Space} {bs : List Byte}

theorem State.releasePart_waits_holds (ho : s.mem.out = []) (hb : s.blockedAt bid (pa / 64) = true)
    (hu : s.unseenAt bid core (pa / 64) = false) :
    ∀ w ∈ (s.releasePart bid core spc vc pa bs).mem.out, (s.releasePart bid core spc vc pa bs).mem.holds w.id = true := by
  obtain ⟨l, hout, _, _, hl⟩ := (s.sendWords_released core vc pa bs).out
  rw [ho, List.nil_append] at hout
  rw [State.releasePart_waits hb hu]
  intro w hw
  obtain ⟨_, _, _, _, hlow, hhigh⟩ := hl w (hout ▸ hw)
  exact State.holds_lastInLine _ hlow (by rwa [State.sendWords_nextW] at hhigh)

/-- Everything performed, a part that waits is in no view. -/
theorem State.releasePart_drain (hst : Machine.still s) (hb : s.blockedAt bid (pa / 64) = true) (d : Nat) :
    (s.releasePart bid core spc vc pa bs).mem.drain.view d = s.mem.view d := by
  obtain ⟨ps, hsent⟩ := State.releasePart_sent (s := s) (bid := bid) (core := core) (spc := spc) (vc := vc) (pa := pa) (bs := bs)
  refine (MemSt.drain_view_of_holds (hsent.flight.trans hst.2) ?_ d).trans (hsent.view d)
  cases hu : s.unseenAt bid core (pa / 64)
  · exact State.releasePart_waits_holds hst.1 hb hu
  · rw [State.releasePart_unseen hb hu]
    simp [State.lastInLine, State.setMem, hst.1]

/-- What waits unseen its core does not see. -/
theorem State.releasePart_unseen_seen (hst : Machine.still s) (hb : s.blockedAt bid (pa / 64) = true)
    (hu : s.unseenAt bid core (pa / 64) = true) (a : Nat) :
    (s.releasePart bid core spc vc pa bs).seenAt core a 1 = [s.byteAt (dieOf core) a] := by
  rw [State.releasePart_unseen hb hu]
  exact (State.lastInLine_sent s core _).seen_own hst.1 hst.2 a

end Waits

end Sys2Proof.Machine

/-- Settles O24: a released store sends its words (`Sent`), which its core alone sees laid over its view; performed at module scope they
enter every view (`OnWay`), unless a store in line holds them. -/
theorem releasedWrites : Obligations.ReleasedWrites := by
  intro s bid core vc pa spc bs hw hst hi hs
  have hover (d a : Nat) : laid (storeWords pa bs) a (s.byteAt d a) = Machine.over pa bs (s.byteAt d) a :=
    (cut_storeWords pa bs).laid_eq a _
  obtain ⟨ps, hsent⟩ : ∃ ps, Sent core s.mem (s.releaseStore bid core spc [⟨pa, vc, bs⟩]).mem ps := by
    rw [State.releaseStore_one hi hs]
    exact State.releaseParts_sent ..
  refine ⟨State.memWf_releaseStore _ _ _ _ hw, fun d a => ?_, fun hu a => ?_, fun other a hne => hsent.seen_other hst.1 hst.2 hne a,
    fun hq hl d _ a => ?_, fun hne h1 hb => ?_⟩
  · simp only [State.byteAt, hsent.view]
  · exact ((State.releaseStore_seen hi hs hu).seen_own hst.1 hst.2 a).trans (congrArg (fun x => [x]) (hover _ a))
  · obtain ⟨_, hr⟩ := State.releaseStore_free (core := core) (spc := spc) hq hl hi hs
    obtain ⟨hway, _, hps⟩ := hr.onWay (cut_storeWords pa bs) hw hst.1 hst.2 hq
    refine (hway.drain_view d a).trans ?_
    rw [MemSt.due, hps, hr.view]
    exact hover d a
  · rw [State.releaseStore_granule hi hs hne h1]
    refine ⟨fun d a => ?_, fun hu => ?_, fun hu => ⟨?_, State.releasePart_unseen_seen hst hb hu⟩⟩
    · exact congrArg (fun v => tgetD 0 v a) (State.releasePart_drain hst hb d)
    · rw [State.releasePart_waits hb hu, State.lastInLine_leaseQ, State.sendWords_leaseQ]
    · rw [State.releasePart_unseen hb hu, State.lastInLine_leaseQ]

end
